-- ==== Sys2Proof/Word.lean ====
section
/-!
DEFINITION. Word.lean: the word types of the OLT-9600 and the type of a sparse table.
-/

namespace Sys2Proof

/-- One byte of any memory of the device. -/
abbrev Byte := BitVec 8
/-- A 16-bit field. -/
abbrev W16 := BitVec 16
/-- A 32-bit field. -/
abbrev W32 := BitVec 32
/-- A register of the window (R12), a scalar or an address register (R72). -/
abbrev W64 := BitVec 64

/-- A sparse table: keys strictly rising, and no entry equal to what an unlisted key reads as
(`Tab.wf` says so; the operations are in `Machine/Tab.lean`). A memory is a table of bytes. -/
abbrev Tab (α : Type) := List (Nat × α)

end Sys2Proof
end

