-- ==== Sys2Proof/Syntax.lean ====
section
/-!
DEFINITION. Syntax.lean: the commands of the block, one constructor per row of spec/opcode_table.json.
A strand instruction carries its site, its predicate fields (R117) and the fields of its format
(R121 to R141) at the width the encoding gives them. An event carries what the spec leaves to the
surroundings of the device: which unit, what was measured, what a frame holds, what a check reported.
-/

namespace Sys2Proof

/-- The strand that issues: core 0-95, strand 0-3 (R72). -/
structure Site where
  core : Fin 96
  strand : Fin 4
deriving DecidableEq, Repr

/-- A strand that ends its segment, and the cycles that were left of it (R61). -/
structure SegmentEnd where
  site : Site
  slack : Nat
deriving DecidableEq, Repr

/-- A segment of a strand, by its index in the step (R60). -/
structure Segment where
  site : Site
  seg : BitVec 28
deriving DecidableEq, Repr

/-- The completion object and the CODE of an SVC (R141). -/
structure SvcCall where
  done : BitVec 13
  code : BitVec 8
deriving DecidableEq, Repr

/-- PRED and PNEG of the instruction header (R117). -/
structure Pred where
  pred : BitVec 3
  pneg : Bool
deriving DecidableEq, Repr

/-- A tile-store operand (R121). -/
structure Tsop where
  base : BitVec 13
  lc : BitVec 2
  step : BitVec 4
deriving DecidableEq, Repr

/-- A memory operand (R123). -/
structure Mop where
  areg : BitVec 4
  lc : BitVec 2
  sh : BitVec 5
  disp : BitVec 13
deriving DecidableEq, Repr

/-- A node operand (R124): a node ID, or a scalar register that gives it. -/
inductive NodeOp where
  | id (n : BitVec 15)
  | reg (r : BitVec 5)
deriving DecidableEq, Repr

/-- The scope of a FENCE (R109, R129). -/
inductive Scope where
  | core | device | global
deriving DecidableEq, Repr

/-- Where an uncorrectable memory error lies (R474). -/
inductive EccPlace where
  | tileStore | groupStore | hbm | lpddr | workingCopy | stateInForce | heldCopy
deriving DecidableEq, Repr

/-- One memory error that the ECC reports on a read (R474): its place, the unit, frame or shard
it names, and whether it was corrected in place. -/
structure EccReport where
  place : EccPlace
  unit : Nat
  corrected : Bool
deriving DecidableEq, Repr

/-- What the hardware's checks report while one instruction runs: ECC reports on its reads (R474),
whether a modulo-3 residue check failed (R471), the destination bytes that the faulty unit left
wrong, and whether a narrow access missed (R75). -/
structure HwReport where
  ecc : List EccReport
  residue : Bool
  wrong : List (Nat × Byte)
  miss : Bool
deriving DecidableEq, Repr

/-- The fields of MMUL, MMULS and MMULW (R133). -/
structure MatF where
  tsa : Tsop
  tsc : Tsop
  tsx : Tsop
  rows : BitVec 13
  fmts : BitVec 4
  fmtt : BitVec 4
  accum : Bool
  anch : BitVec 2
  sreg : BitVec 5
  zt : Bool
  pass : BitVec 3
  mw : BitVec 3
deriving DecidableEq, Repr

/-- The fields of the vector format (R137). -/
structure VecF where
  tsd : Tsop
  tsa : Tsop
  tsb : Tsop
  vl : BitVec 13
  fmt : BitVec 4
  func : BitVec 4
  tsc : Tsop
  rnd : BitVec 2
  ofmt : BitVec 4
deriving DecidableEq, Repr

/-- A hardware fault while a product runs (R170 to R173): what faulty cells add wrongly to the accumulators (streamed row,
column, amount), accumulators that the accumulator path leaves wrong (row of the region, column, word), and what faulty
lanes add to the identity of a streamed row or of a column. -/
structure ArrFault where
  cells : List (Nat × Nat × Int)
  wrong : List (Nat × Nat × W64)
  laneRows : List (Nat × Nat)
  laneCols : List (Nat × Nat)
deriving DecidableEq, Repr

/-- What the checksum lanes report of the products of an ABLK (R170 to R173): the row and the column that the
failing identities locate, and the accumulators that the fault left wrong (row, column, word). -/
structure ChkFail where
  row : Option (BitVec 12)
  col : Option (BitVec 7)
  wrong : List (Nat × Nat × W64)
deriving DecidableEq, Repr

/-- The Bilaiham header of a received DATA-class or CONTROL frame, as far as its effect depends on
it (R438): the port it came in on (16 to 19 for the twin bridge's hub pairs, R445), the sender, the receiver's connection
context and DGEN, EPOCH, PSN, MSG, LAST, whether it passes authentication (R459), and its wire bytes (R448). -/
structure Hdr where
  port : Fin 20
  snode : BitVec 15
  dcid : BitVec 13
  dgen : BitVec 3
  epoch : BitVec 8
  psn : BitVec 32
  msg : BitVec 32
  last : Bool
  auth : Bool
deriving DecidableEq, Repr

/-- A fence notice of a marker (R457, R476). -/
structure FenceNotice where
  node : BitVec 15
  kind : BitVec 3
  beat : BitVec 32
deriving DecidableEq, Repr

/-- The 64-byte payload of a MARKER frame (R457) and what its port measured of it: the offset from
the reference that it gives (R53) and, with `elapsed`, the time t₄ − t₁ from this device's marker that TURN answers to
the receipt of this one (R458), in units of 0.125 ns. -/
structure Marker where
  beat : W64
  offset : BitVec 32
  refNode : BitVec 15
  hops : BitVec 3
  state : BitVec 2
  period : BitVec 2
  heart : BitVec 32
  strBeat : BitVec 32
  strReq : Bool
  strNotice : Bool
  strNode : Option (BitVec 15)
  notices : List FenceNotice
  measured : BitVec 32
  turn : BitVec 32
  elapsed : BitVec 32
deriving DecidableEq, Repr

/-- The message of a formation exchange (R539): digest, STEP, SOURCE, START_BEAT, period, and the
job's step-entry count that a spare takes (R443). -/
structure Formation where
  digest : BitVec 384
  step : W32
  source : Byte
  startBeat : W64
  period : BitVec 2
  epoch : Nat
deriving DecidableEq, Repr

/-- A count frame (R306 step 1), with the places of the holder's lists that the DISP descriptor names
(R303): counts by local expert. -/
structure CountFrame where
  did : BitVec 16
  pos : Nat
  members : Nat
  round : Nat
  experts : Nat
  k : Nat
  cap : Nat
  nrounds : Nat
  tokBase : Nat
  ntok : Nat
  rowB : Nat
  expbuf : Nat
  recv : Nat
  fills : Nat
  so : Nat
  counts : List (Nat × Nat)
deriving DecidableEq, Repr

/-- A grant frame (R306 step 3): per local expert the amount granted and the base slot. -/
structure GrantFrame where
  did : BitVec 16
  pos : Nat
  round : Nat
  holder : BitVec 15
  grants : List (Nat × Nat × Nat)
deriving DecidableEq, Repr

/-- What a COLL frame carries (R438): plan, step, item and byte offset, the position of the sender
in the plan's member table, whether the item goes down from the owner or root (a result) or up to
it (a contribution), the stamp sent with a gathered shard (R371), and the payload. -/
structure CollItem where
  plan : BitVec 16
  step : BitVec 13
  item : Nat
  offset : Nat
  pos : Nat
  result : Bool
  stamp : W32
  payload : List Byte
deriving DecidableEq, Repr

/-- A working copy that the recovery service derived from a held master (R477): its job descriptor, and the GATHER
plan and position whose shard it is part of (R571). -/
structure WorkCopy where
  desc : Nat
  plan : Nat
  pos : Nat
deriving DecidableEq, Repr

/-- A row of a dispatch on the wire (R309): its dispatch and DIR, local expert and slot, token and choice, the
sender's NTOK and K, and the places of the holder's lists that the DISP descriptor names (R303); of a RETURN, the chunk. -/
structure RowInfo where
  did : BitVec 16
  dir : Nat
  chunk : Nat
  expert : Nat
  slot : Nat
  token : Nat
  choice : Nat
  ntok : Nat
  k : Nat
  cap : Nat
  rowB : Nat
  expbuf : Nat
  recv : Nat
  fills : Nat
  so : Nat
deriving DecidableEq, Repr

/-- How a register access reaches the window (R12, R456, R551). -/
inductive Path where
  | pcie | mgmt | smbus
deriving DecidableEq, Repr

/-- Where a PDU arrives (R460): the port and the number of the connection. -/
structure TcpPlace where
  port : Fin 16
  conn : BitVec 6
deriving DecidableEq, Repr

/-- A PDU received on an NVMe/TCP connection (R460): ICResp; CapsuleResp, of a command of a service or (`none`) of one
that sets the connection up; C2HData; R2T; C2HTermReq; and any PDU whose header or data digest is wrong. -/
inductive NvmePdu where
  | icResp
  | resp (op : Option Nat) (status : W16)
  | data (op : Nat) (bytes : List Byte)
  | r2t (op offset length : Nat)
  | termReq
  | badDigest
deriving DecidableEq, Repr

/-- The two generations of a shard or a partner area (R327), or one area that both share: where each lies, and its bytes. -/
structure GenArea where
  gen0 : Nat
  gen1 : Nat
  bytes : Nat
deriving DecidableEq, Repr

/-- Where the generation `n` mod 2 lies. -/
def GenArea.at_ (x : GenArea) (n : Nat) : Nat := if n % 2 = 0 then x.gen0 else x.gen1

/-- Why a port leaves the spray set (R435, R464 cause codes 0 to 4). -/
inductive PortCause where
  | lock | fec | pause | disabled | link
deriving DecidableEq, Repr

/-- Why a received frame is malformed (R434, R438): each is dropped and counted, and a bad FCS is
counted at its port. -/
inductive BadWhy where
  | reservedType | reservedField | length | untagged | fcs
deriving DecidableEq, Repr

/-- A malformed frame: its bytes, and what is wrong with it. -/
structure BadFrame where
  bytes : Nat
  why : BadWhy
deriving DecidableEq, Repr

/-- The commands of the block: one constructor per row of spec/opcode_table.json, in its order. -/
inductive Instr where
  -- strand control (R126 to R128)
  | nop (a : Site)
  | loop (a : Site) (lc : BitVec 2) (csrc : Bool) (sreg : BitVec 5) (count : BitVec 32) (body : BitVec 24)
  | pset (a : Site) (p : Pred) (dstp src cmp : BitVec 3) (sel : BitVec 6) (selb : BitVec 3)
      (imm : BitVec 32) (tsop : Tsop) (word : BitVec 7)
  | skip (a : Site) (p : Pred) (n : BitVec 8)
  | beat (a : Site) (slack : Nat)
  | halt (a : SegmentEnd)
  -- sync (R129)
  | sowait (a : Site) (p : Pred) (index : BitVec 13) (remote : Bool) (tnode : NodeOp) (dstp : BitVec 3)
      (thresh : BitVec 32)
  | soinc (a : Site) (p : Pred) (index : BitVec 13) (remote : Bool) (tnode : NodeOp) (amount : BitVec 16)
  | soset (a : Site) (p : Pred) (index : BitVec 13) (remote : Bool) (tnode : NodeOp) (hold hexpl : Bool)
      (hnode : NodeOp) (hcore : BitVec 7) (count : BitVec 24) (thresh : BitVec 32)
  | fence (a : Site) (p : Pred) (scope : Scope)
  -- moves (R130 to R132)
  | ldt (a : Site) (p : Pred) (tsop : Tsop) (mop : Mop) (len : BitVec 13) (part : BitVec 3) (hw : HwReport)
  | stt (a : Site) (p : Pred) (tsop : Tsop) (mop : Mop) (len : BitVec 13) (part : BitVec 3) (hw : HwReport)
  | gth (a : Site) (p : Pred) (tsop : Tsop) (mop : Mop) (len : BitVec 13) (part : BitVec 3) (tsop2 : Tsop)
      (hw : HwReport)
  | sct (a : Site) (p : Pred) (tsop : Tsop) (mop : Mop) (len : BitVec 13) (part : BitVec 3) (tsop2 : Tsop)
      (hw : HwReport)
  | pfh (a : Site) (p : Pred) (mop : Mop) (dl : BitVec 16) (part : BitVec 3) (so : BitVec 13) (soen : Bool)
      (slot : BitVec 6) (fallback : BitVec 2)
  | xfer (a : Site) (p : Pred) (tsop : Tsop) (mop : Mop) (node : NodeOp) (len : BitVec 13) (part : BitVec 3)
      (hw : HwReport)
  | coll (a : Site) (p : Pred) (mop : Mop) (plan : BitVec 16) (step : BitVec 13) (so : BitVec 13) (soen : Bool)
  -- matrix (R133)
  | mload (a : Site) (p : Pred) (tsa tsc : Tsop) (fmts : BitVec 4) (sparse : BitVec 2) (hw : HwReport)
  | mmul (a : Site) (p : Pred) (f : MatF) (hw : HwReport)
  | mmuls (a : Site) (p : Pred) (f : MatF) (hw : HwReport)
  | mmulw (a : Site) (p : Pred) (f : MatF) (hw : HwReport)
  | mscale (a : Site) (p : Pred) (tsa tsx : Tsop) (rows : BitVec 13) (fmtt : BitVec 4) (accum : Bool)
      (klog : BitVec 5) (hw : HwReport)
  -- vector (R137)
  | vadd (a : Site) (p : Pred) (f : VecF) (hw : HwReport)
  | vmul (a : Site) (p : Pred) (f : VecF) (hw : HwReport)
  | vfma (a : Site) (p : Pred) (f : VecF) (hw : HwReport)
  | vmax (a : Site) (p : Pred) (f : VecF) (hw : HwReport)
  | vred (a : Site) (p : Pred) (f : VecF) (hw : HwReport)
  | vscan (a : Site) (p : Pred) (f : VecF) (hw : HwReport)
  | vexp (a : Site) (p : Pred) (f : VecF) (hw : HwReport)
  | vact (a : Site) (p : Pred) (f : VecF) (hw : HwReport)
  | vder (a : Site) (p : Pred) (f : VecF) (hw : HwReport)
  | vcvt (a : Site) (p : Pred) (f : VecF) (hw : HwReport)
  -- attention and pages (R138, R139)
  | ablk (a : Site) (p : Pred) (tsq tskv tsst : Tsop) (fmt : BitVec 4) (bmask : BitVec 2)
      (first last : Bool) (scale : BitVec 16) (hdim : BitVec 4) (bwd : Bool) (hw : HwReport)
      (chk : Option ChkFail)
  | asel (a : Site) (p : Pred) (tsq tssum tslist : Tsop) (qblk : BitVec 17) (qlc : BitVec 2) (qlce : Bool)
      (topk : BitVec 9) (win : BitVec 7) (first last causal : Bool) (nsum1 : BitVec 7) (hw : HwReport)
  | kvapp (a : Site) (p : Pred) (tsacc tsx : Tsop) (slot : BitVec 8) (layer : BitVec 10) (head : BitVec 6)
      (kv : Bool) (pos : BitVec 24) (plc : BitVec 2) (plce : Bool) (rows1 : BitVec 7) (fmt : BitVec 4)
      (hw : HwReport)
  -- routing (R140)
  | rtopk (a : Site) (p : Pred) (tsl tsd : Tsop) (e1 : BitVec 12) (k1 : BitVec 3) (ntok : BitVec 13)
      (norm : BitVec 2) (hw : HwReport)
  | disp (a : Site) (p : Pred) (tssel : Tsop) (mop list : Mop) (cap : BitVec 16) (policy : Bool)
      (ntok : BitVec 13) (so : BitVec 13)
  | cmb (a : Site) (p : Pred) (tsd tssel : Tsop) (mop : Mop) (ntok : BitVec 13) (k1 : BitVec 3)
      (ofmt : BitVec 4) (hw : HwReport)
  -- engines and services (R141)
  | upd (a : Site) (p : Pred) (mop : Mop) (gate : BitVec 13) (target : BitVec 16) (done : BitVec 13)
  | precon (a : Site) (p : Pred) (mop : Mop) (done : BitVec 13) (kind : BitVec 3)
  | ingest (a : Site) (p : Pred) (mop : Mop) (done : BitVec 13)
  | ckptFlash (a : Site) (p : Pred) (mop : Mop) (done : BitVec 13) (areas : List GenArea)
  | ckptStore (a : Site) (p : Pred) (mop : Mop) (done : BitVec 13) (areas : List GenArea)
  -- an SVC whose CODE is none of the three services above: 0x04 is POST_EVENT, and no other is provided (log 63)
  | postEvent (a : Site) (p : Pred) (mop : Mop) (done : SvcCall)
  -- events inside the device
  | sowaitResume (a : Site)
  | fenceComplete (a : Site)
  | narrowMissReturn (a : Site)
  | productComplete (core : Fin 96) (flt : Option ArrFault)
  | reliefReplayDone (core : Fin 96) (flt : Option ArrFault)
  | shadowCheck (a : Segment) (mismatch : Bool)
  | kvappResume (a : Site)
  | kvPoolTimeout (a : Site)
  | updJobStart (g : Fin 12) (job : Nat) (hw : HwReport)
  | updJobComplete (g : Fin 12) (job : Nat)
  | preconAttemptEnd (g : Fin 12) (job : Nat)
  | prefetchComplete (a : Site) (slot : BitVec 6) (runAhead : Nat)
  | prefetchDrop (a : Site) (slot : BitVec 6)
  | prefetchDeadline (a : Site) (slot : BitVec 6) (delivered : Nat)
  | collStepComplete (op : Nat)
  | gatherTimeout (op : Nat)
  | ckptFlashDone
  | ckptStoreDone (fail : Option W16)
  | kvMoveDone (frame : Nat)
  | poolMoveDone (frame : Nat)
  | frameScrub (frame : Nat)
  | ftlBackgroundWork (hub3 : Bool) (reclaimed retired refreshed : Nat) (written : Nat)
  | beatBoundary (watts : BitVec 16)
  | guardStart
  | segmentOverrun (a : Site) (cycles : BitVec 16)
  | stepEndBoundary (watts : BitVec 16)
  | switchEnd (watts : BitVec 16)
  | jobFirstStepEntry (watts : BitVec 16)
  | joinDeadline
  | kvQuarantineRelease (frame : Nat)
  | framePoolReturn (frame : Nat)
  | beatLock
  | holdoverEntry
  | acquireTimeout
  | markerSilence (peer : Fin 17)
  | markerLoss
  | offsetLimit
  | watchSilence (node : BitVec 15)
  | hangDetect (a : Site)
  | deviceFenceCommit (watts : BitVec 16)
  | selfFencing
  | hbmTempReport (stack : Fin 8) (temp thresh : Byte)
  | stackOvertemp (stack : Fin 8)
  | portRejoin (port : Fin 16)
  | ackTimer (conn : BitVec 13)
  | retransmitTimeout (conn : BitVec 13) (psn : BitVec 32)
  | sessionRekey (conn : BitVec 13)
  -- received frames (R438)
  | dataReceive (h : Hdr) (addr : W64) (bytes : List Byte) (row : Option RowInfo)
  | rxbufXon (port : Fin 16) (bytes : Nat)
  | pfcReceive (port : Fin 16) (xoff : Bool)
  | soincFrameReceive (h : Hdr) (index : BitVec 13) (amount : BitVec 16)
  | collFrameReceive (h : Hdr) (c : CollItem)
  | nreqReceive (h : Hdr) (slot : BitVec 8) (layer : BitVec 10) (head : BitVec 6) (block : BitVec 17)
      (tag : BitVec 32)
  | nrespReceive (h : Hdr) (tag : BitVec 32) (offset : BitVec 16) (pad fail full : Bool) (bytes : List Byte)
  | dcountReceive (h : Hdr) (c : CountFrame)
  | dgrantReceive (h : Hdr) (g : GrantFrame)
  | ackReceive (h : Hdr) (next : BitVec 32) (bitmap : BitVec 256) (notrun : Bool)
  | connectReceive (h : Hdr) (ctx : BitVec 4) (theirs : BitVec 16) (certOk : Bool)
  | acceptReceive (h : Hdr) (theirs : BitVec 16) (certOk : Bool)
  | closeReceive (h : Hdr)
  | markerReceive (peer : Fin 17) (auth : Bool) (m : Marker)
  | mgmtReceive (h : Hdr) (write : Bool) (offset : BitVec 24) (data : W64)
  | badFrameReceive (port : Fin 16) (why : BadFrame)
  | nvmePduReceive (at_ : TcpPlace) (pdu : NvmePdu)
  | icmpEchoRequest (port : Fin 16) (src : BitVec 128) (bytes : List Byte)
  | formationExchange (peer : BitVec 15) (f : Formation)
  -- page commands of the ring (R285)
  | share
  | free
  | promote
  -- mailbox (R535)
  | summary (path : Path) (tag : Byte)
  | testNative (path : Path) (tag : Byte)
  | testStress (path : Path) (tag : Byte)
  | fieldTestDone (failing : BitVec 96) (failGroups : BitVec 12)
  | fenceEdit (path : Path) (tag : Byte)
  | imageLoad (path : Path) (tag : Byte)
  | jobStart (path : Path) (tag : Byte)
  | stateLoadDone (found : Bool) (ioError : Bool) (stored : List (GenArea × List Byte))
  | jobLeave (path : Path) (tag : Byte)
  | spareJoin (path : Path) (tag : Byte)
  | ctxCreate (path : Path) (tag : Byte)
  | ctxMap (path : Path) (tag : Byte)
  | ctxUnmap (path : Path) (tag : Byte)
  | ctxSwitch (path : Path) (tag : Byte)
  | ctxDestroy (path : Path) (tag : Byte)
  | keyImport (path : Path) (tag : Byte)
  | attest (path : Path) (tag : Byte)
  | unsealAttempt (ctx : Fin 16)
  | mboxArgWrite (path : Path) (k : BitVec 5) (v : W64)
  -- registers (R12 to R17)
  | registerWrite (path : Path) (offset : BitVec 24) (v : W64)
  | narrowRegisterWrite (path : Path) (offset : BitVec 24) (width : Nat) (v : W64)
  | peakRegisterRead (offset : BitVec 24) (width : Nat)
  | eventRingRead (offset : BitVec 24) (width : Nat)
  | btPeriodWrite (v : W64)
  | fabNodeWrite (v : W64)
  | modeRequest (v : W64)
  | powerCapWrite (v : W64)
  | removalRequest
  | removalCancel
  | dbgHalt
  | dbgResume
  | dbgDataRead
  | dbgDataWrite (v : W64)
  | smbusWrite (pecOk : Bool) (offset : BitVec 24) (v : W64)
  | smbusRead (pecOk : Bool) (offset : BitVec 24)
  -- power and module (R526 to R534, R555 to R563)
  | standbyPowerUp (feed : BitVec 4) (hubpos : List (BitVec 2)) (latchClosed seated : Bool)
  | managementStageDone (microcodeOk : Bool)
  | seatInsert
  | mainPathOn
  | mainGood (input : BitVec 16)
  | railsUp (ok : Bool)
  | bistSliceDone (slice : Fin 113) (pass : Bool)
  | bistSliceTimeout (slice : Fin 113)
  | bistComplete (ms : BitVec 16)
  | fenceRecordWritten
  | perstDeassert
  | linkStateChange (port : Fin 16) (up : Bool) (lock : BitVec 4) (cause : PortCause)
  | supplyWarning (input : BitVec 16)
  | supplyRecovery (input : BitVec 16) (us : Nat)
  | supplyReset (input : BitVec 16)
  | guardTimeout (input : BitVec 16) (us : Nat)
  | supplyOverTimeout (input : BitVec 16)
  | mainOvervoltage (input : BitVec 16)
  | seatRelease
  | junctionLimit (tj : Byte)
  | attnRelease (ms : Nat)
  | attnHold
  | latchOpening
  | latchPowerDown
  | mainRailsDown
  -- the last rows of the table
  | imageLoadDone (bytes : Option (List Byte))
  | workingCopyDerivationDone (copies : List WorkCopy)
  | dbgDataAccessEnd
  | standbyPowerLoss
  | neighbourDiscoveryReceive (port : Fin 16) (kind : Byte) (src : BitVec 128) (mac : BitVec 48)
  | arpReceive (port : Fin 16) (request : Bool) (src : BitVec 32) (target : BitVec 32) (mac : BitVec 48)
deriving DecidableEq, Repr

end Sys2Proof
end

