-- ==== Sys2Proof/Decode.lean ====
section
/-!
DEFINITION. Decode.lean: the command a table word spells. The block's table gives no row any bits, so
no word spells a command.
-/

namespace Sys2Proof

/-- The command that a word spells by the table's bits: none of the 179 rows gives bits. -/
def decodeTableWord (_nbits _w : Nat) : Option Instr := none

end Sys2Proof
end

