-- ==== Sys2Proof/Machine/Tab.lean ====
section
/-!
DEFINITION. Machine/Tab.lean: sparse tables in one canonical form (keys strictly rising, no entry
equal to the default), and byte ranges over them. Every memory of the device is such a table.
-/

/-- Put an element before the first one that it may precede. -/
def List.sortedInsert {α : Type} (le : α → α → Bool) (a : α) : List α → List α
  | [] => [a]
  | b :: bs => if le a b then a :: b :: bs else b :: List.sortedInsert le a bs

/-- A list in ascending order; of equal elements the earlier comes first. -/
def List.stableSort {α : Type} (l : List α) (le : α → α → Bool) : List α := l.foldr (List.sortedInsert le) []

namespace Sys2Proof

/-- The entry of key `k`, or the default. -/
def Tab.get {α : Type} (d : α) : Tab α → Nat → α
  | [], _ => d
  | (k', v) :: t, k => if k = k' then v else Tab.get d t k

/-- Set the entry of key `k`; setting the default removes it. -/
def Tab.set {α : Type} [DecidableEq α] (d : α) : Tab α → Nat → α → Tab α
  | [], k, v => if v = d then [] else [(k, v)]
  | (k', v') :: t, k, v =>
    if k < k' then (if v = d then (k', v') :: t else (k, v) :: (k', v') :: t)
    else if k = k' then (if v = d then t else (k, v) :: t)
    else (k', v') :: Tab.set d t k v

/-- The canonical form: keys strictly rising, no entry equal to the default. -/
def Tab.wf {α : Type} [DecidableEq α] (d : α) : Tab α → Bool
  | [] => true
  | (k, v) :: t => decide (v ≠ d) && t.all (fun p => decide (k < p.1)) && Tab.wf d t

/-- The `n` entries from key `k` up. -/
def Tab.range {α : Type} (d : α) (t : Tab α) (k : Nat) : Nat → List α
  | 0 => []
  | n + 1 => Tab.get d t k :: Tab.range d t (k + 1) n

/-- Set entries from key `k` up to the values of a list, in ascending order. -/
def Tab.setRange {α : Type} [DecidableEq α] (d : α) (t : Tab α) (k : Nat) : List α → Tab α
  | [] => t
  | v :: vs => Tab.setRange d (Tab.set d t k v) (k + 1) vs

/-- Change every listed entry; an entry that becomes the default leaves the list. -/
def Tab.mapv {α : Type} [DecidableEq α] (d : α) (f : α → α) : Tab α → Tab α
  | [] => []
  | (k, v) :: t => if f v = d then Tab.mapv d f t else (k, f v) :: Tab.mapv d f t

/-- Byte `k` of a little-endian value (R10). -/
def byteOf (v k : Nat) : Byte := BitVec.ofNat 8 (v / 256 ^ k)

/-- The low `n` bytes of a value, little-endian (R10). -/
def toBytes (n v : Nat) : List Byte := (List.range n).map (byteOf v)

/-- The value of a little-endian byte list (R10). -/
def ofBytes : List Byte → Nat
  | [] => 0
  | b :: bs => b.toNat + 256 * ofBytes bs

end Sys2Proof
end

