-- ==== Sys2Proof/Machine/Fp.lean ====
section
/-!
DEFINITION. Machine/Fp.lean: numbers of every element format (R177, R178), exact arithmetic on them, and
one rounding at the end (R199, R200, R202, R218). A finite value is sign, integer and power of two, so
every sum and product is formed exactly.
-/

namespace Sys2Proof.Machine

/-- A value: NaN, ±∞, or ± m × 2^e with its own sign of zero. -/
inductive Fv where
  | nan
  | inf (neg : Bool)
  | num (neg : Bool) (m : Nat) (e : Int)
deriving DecidableEq, Repr

/-- How the non-finite codes of a format are laid out (R177). -/
inductive NonFin where
  | ieee | e4m3 | none
deriving DecidableEq, Repr

/-- A floating format (R177): width, exponent bits, fraction bits, bias, non-finite codes. -/
structure Fmt where
  w : Nat
  eb : Nat
  mb : Nat
  bias : Nat
  nf : NonFin
deriving DecidableEq, Repr

/-- The format of a code (R125, R177); code 7, MXINT8, is not a floating format and is handled apart. -/
def fmtOf (c : Nat) : Fmt :=
  match c with
  | 0 => ⟨16, 8, 7, 127, .ieee⟩
  | 1 => ⟨16, 5, 10, 15, .ieee⟩
  | 2 => ⟨8, 4, 3, 7, .e4m3⟩
  | 3 => ⟨8, 5, 2, 15, .ieee⟩
  | 4 => ⟨6, 3, 2, 3, .none⟩
  | 5 => ⟨6, 2, 3, 1, .none⟩
  | 6 => ⟨4, 2, 1, 1, .none⟩
  | _ => ⟨32, 8, 23, 127, .ieee⟩

/-- E_fmt of an MX format (R177). -/
def eFmt (c : Nat) : Int :=
  match c with
  | 2 => 9
  | 3 => 16
  | 4 => 5
  | 5 => 3
  | 6 => 3
  | _ => 1

/-- Codes 2 to 7 are MX formats (R178). -/
def isMx (c : Nat) : Bool := decide (2 ≤ c ∧ c ≤ 7)

/-- Exponent of the last place of a subnormal: 1 − bias − fraction bits. -/
def Fmt.emin (f : Fmt) : Int := 1 - (f.bias : Int) - f.mb

/-- The value of a floating code. -/
def Fmt.decode (f : Fmt) (v : Nat) : Fv :=
  let neg := v / 2 ^ (f.eb + f.mb) % 2 == 1
  let ex := v / 2 ^ f.mb % 2 ^ f.eb
  let fr := v % 2 ^ f.mb
  let fin : Fv :=
    if ex = 0 then .num neg fr f.emin else .num neg (2 ^ f.mb + fr) (f.emin + (ex : Int) - 1)
  match f.nf with
  | .ieee => if ex = 2 ^ f.eb - 1 then (if fr = 0 then .inf neg else .nan) else fin
  | .e4m3 => if ex = 15 ∧ fr = 7 then .nan else fin
  | .none => fin

/-- The value of an element code before its block scale (R177). -/
def decodeElem (c v : Nat) : Fv :=
  if c = 7 then (if v < 128 then .num false v (-6) else .num true (256 - v) (-6))
  else (fmtOf c).decode v

/-- Multiply by a power of two. -/
def Fv.scale (x : Fv) (k : Int) : Fv :=
  match x with
  | .num s m e => .num s m (e + k)
  | y => y

/-- The value of an MX element under its block scale (R178). -/
def mxElem (c sc v : Nat) : Fv :=
  if sc = 0 then .num false 0 0 else if sc = 255 then .nan
  else (decodeElem c v).scale ((sc : Int) - 127)

/-! ### Exact arithmetic -/

/-- Whether the value is NaN. -/
def Fv.isNan : Fv → Bool
  | .nan => true
  | _ => false
/-- Whether the value is infinite. -/
def Fv.isInf : Fv → Bool
  | .inf _ => true
  | _ => false
/-- Whether the value is finite. -/
def Fv.isFin : Fv → Bool
  | .num _ _ _ => true
  | _ => false
/-- Whether the value is zero. -/
def Fv.isZero : Fv → Bool
  | .num _ 0 _ => true
  | _ => false
/-- The sign. -/
def Fv.neg : Fv → Bool
  | .nan => false
  | .inf s => s
  | .num s _ _ => s
/-- The negated value. -/
def Fv.negate : Fv → Fv
  | .nan => .nan
  | .inf s => .inf (!s)
  | .num s m e => .num (!s) m e

/-- The integer ± m × 2^(e − q) for q ≤ e. -/
def sInt (s : Bool) (m : Nat) (e q : Int) : Int :=
  let n : Int := (m * 2 ^ (e - q).toNat : Nat)
  if s then -n else n

/-- The exact product. -/
def Fv.mul (a b : Fv) : Fv :=
  match a, b with
  | .nan, _ => .nan
  | _, .nan => .nan
  | .inf s, .inf t => .inf (s != t)
  | .inf s, .num t m _ => if m = 0 then .nan else .inf (s != t)
  | .num s m _, .inf t => if m = 0 then .nan else .inf (s != t)
  | .num s m e, .num t n f => .num (s != t) (m * n) (e + f)

/-- The exact sum; a sum of zeros of one sign keeps it, every other zero sum is +0 (IEEE 754). -/
def Fv.add (a b : Fv) : Fv :=
  match a, b with
  | .nan, _ => .nan
  | _, .nan => .nan
  | .inf s, .inf t => if s = t then .inf s else .nan
  | .inf s, .num _ _ _ => .inf s
  | .num _ _ _, .inf t => .inf t
  | .num s m e, .num t n f =>
    let q := min e f
    let v := sInt s m e q + sInt t n f q
    if v = 0 then .num (s && t) 0 q else .num (decide (v < 0)) v.natAbs q

/-- The exact a × b + c. -/
def Fv.fma (a b c : Fv) : Fv := (a.mul b).add c

/-- Compare finite values or infinities: a < b. -/
def Fv.lt (a b : Fv) : Bool :=
  match a, b with
  | .nan, _ => false
  | _, .nan => false
  | .inf s, .inf t => s && !t
  | .inf s, .num _ _ _ => s
  | .num _ _ _, .inf t => !t
  | .num s m e, .num t n f =>
    let q := min e f
    decide (sInt s m e q < sInt t n f q)

/-- The ceiling exponent ⌊log₂|v|⌋ + 1 of a finite non-zero value (R180). -/
def Fv.ceilExp : Fv → Option Int
  | .num _ m e => if m = 0 then none else some ((Nat.log2 m : Int) + 1 + e)
  | _ => none

/-! ### Rounding -/

/-- Rounding modes of RND (R137). -/
inductive Rnd where
  | rne | rtz
deriving DecidableEq, Repr

/-- ⌊log₂ (n / d × 2^e)⌋ for n, d > 0. -/
def flog2 (n d : Nat) (e : Int) : Int :=
  let a : Int := (Nat.log2 n : Int) - Nat.log2 d
  let big : Bool := if 0 ≤ a then decide (d * 2 ^ a.toNat ≤ n) else decide (d ≤ n * 2 ^ (-a).toNat)
  (if big then a else a - 1) + e

/-- n / d × 2^(e − q) rounded to an integer. -/
def roundAt (r : Rnd) (n d : Nat) (e q : Int) : Nat :=
  let nn := n * 2 ^ (e - q).toNat
  let dd := d * 2 ^ (q - e).toNat
  let quo := nn / dd
  let rem := nn % dd
  match r with
  | .rtz => quo
  | .rne => if dd < 2 * rem ∨ (2 * rem = dd ∧ quo % 2 = 1) then quo + 1 else quo

/-- The largest finite magnitude code of a format. -/
def Fmt.maxCode (f : Fmt) : Nat :=
  match f.nf with
  | .ieee => (2 ^ f.eb - 1) * 2 ^ f.mb - 1
  | .e4m3 => 2 ^ (f.eb + f.mb) - 2
  | .none => 2 ^ (f.eb + f.mb) - 1

/-- The magnitude code of n / d × 2^e after one rounding, unbounded above: codes of a format ascend with
the magnitude, through the subnormals. -/
def Fmt.code (f : Fmt) (r : Rnd) (n d : Nat) (e : Int) : Nat :=
  if n = 0 then 0
  else
    let q := max (flog2 n d e - f.mb) f.emin
    (q - f.emin).toNat * 2 ^ f.mb + roundAt r n d e q

/-- The sign bit of a format. -/
def Fmt.sign (f : Fmt) (neg : Bool) : Nat := if neg then 2 ^ (f.eb + f.mb) else 0
/-- The canonical quiet NaN (R199). -/
def Fmt.qnan (f : Fmt) : Nat := (2 ^ f.eb - 1) * 2 ^ f.mb + 2 ^ (f.mb - 1)
/-- The code of infinity. -/
def Fmt.infCode (f : Fmt) : Nat := (2 ^ f.eb - 1) * 2 ^ f.mb

/-- One rounding of ± n / d × 2^e to FP32, BF16 or FP16 (R199). -/
def Fmt.encRat (f : Fmt) (r : Rnd) (neg : Bool) (n d : Nat) (e : Int) : Nat :=
  let c := f.code r n d e
  f.sign neg + (if c ≤ f.maxCode then c else match r with
    | .rne => f.infCode
    | .rtz => f.maxCode)

/-- Conversion of a value to FP32, BF16 or FP16 (R199). -/
def Fmt.enc (f : Fmt) (r : Rnd) (x : Fv) : Nat :=
  match x with
  | .nan => f.qnan
  | .inf s => f.sign s + f.infCode
  | .num s m e => f.encRat r s m 1 e

/-- Conversion of a finite scaled value to an MX element, clamped to the largest finite element
(R199). -/
def encMx (c : Nat) (r : Rnd) (x : Fv) : Nat :=
  match x with
  | .num s m e =>
    if c = 7 then
      let v := min 127 (roundAt r m 1 e (-6))
      if s ∧ v ≠ 0 then 256 - v else v
    else
      let f := fmtOf c
      f.sign s + min f.maxCode (f.code r m 1 e)
  | _ => 0

/-- An MX output block (R200): the scale code, the element codes, and whether NONFIN is set. -/
def mxBlock (c : Nat) (r : Rnd) (xs : List Fv) : Nat × List Nat × Bool :=
  if xs.any (fun x => !x.isFin) then (255, xs.map (fun _ => 0), true)
  else
    match (xs.filterMap Fv.ceilExp).max? with
    | none => (0, xs.map (fun _ => 0), false)
    | some em =>
      let k : Int := em - eFmt c + 127
      if 254 < k then (255, xs.map (fun _ => 0), true)
      else
        let sc := max 1 k
        (sc.toNat, xs.map (fun x => encMx c r (x.scale (127 - sc))), false)

/-! ### Binary32 operations (R218) -/

/-- FP32. -/
def f32 : Fmt := fmtOf 8

/-- A value rounded once to FP32 by RNE. -/
def Fv.r32 (x : Fv) : Fv := f32.decode (f32.enc .rne x)

/-- The FP32 code of a value. -/
def Fv.bits32 (x : Fv) : BitVec 32 := BitVec.ofNat 32 (f32.enc .rne x)

/-- The value of an FP32 code. -/
def ofF32 (v : Nat) : Fv := f32.decode v

/-- a + b. -/
def fadd (a b : Fv) : Fv := (a.add b).r32
/-- a − b. -/
def fsub (a b : Fv) : Fv := (a.add b.negate).r32
/-- a × b. -/
def fmul (a b : Fv) : Fv := (a.mul b).r32
/-- a × b + c with one rounding. -/
def ffma (a b c : Fv) : Fv := (a.fma b c).r32

/-- a / b, one RNE rounding of the exact quotient. -/
def fdiv (a b : Fv) : Fv :=
  match a, b with
  | .nan, _ => .nan
  | _, .nan => .nan
  | .inf _, .inf _ => .nan
  | .inf s, .num t _ _ => .inf (s != t)
  | .num s _ _, .inf t => .num (s != t) 0 0
  | .num s m e, .num t n f =>
    if n = 0 then (if m = 0 then .nan else .inf (s != t))
    else f32.decode (f32.encRat .rne (s != t) m n (e - f))

/-- √a, one RNE rounding: the root of m × 2^(2k) is taken with 64 extra bits and a sticky bit. -/
def fsqrtWith (root : Nat → Nat) (a : Fv) : Fv :=
  match a with
  | .nan => .nan
  | .inf s => if s then .nan else .inf false
  | .num s m e =>
    if m = 0 then .num s 0 0
    else if s then .nan
    else
      let odd := e % 2 != 0
      let m' := (if odd then 2 * m else m) * 2 ^ 128
      let e' : Int := (if odd then e - 1 else e) / 2 - 64
      let r := root m'
      let sticky := if r * r = m' then 0 else 1
      (Fv.num false (2 * r + sticky) (e' - 1)).r32

/-- The larger operand; max(+0, −0) is +0 (R218). -/
def fmax (a b : Fv) : Fv :=
  if a.isNan || b.isNan then .nan
  else if a.lt b then b else if b.lt a then a else if a.neg then b else a

/-- The smaller operand; min(+0, −0) is −0 (R218). -/
def fmin (a b : Fv) : Fv :=
  if a.isNan || b.isNan then .nan
  else if a.lt b then a else if b.lt a then b else if a.neg then a else b

/-- One level of the tree of R204. -/
def treeLevel (op : Fv → Fv → Fv) : List Fv → List Fv
  | a :: b :: t => op a b :: treeLevel op t
  | t => t

/-- The tree of R204: pairs by index, level by level; `fuel` bounds the levels. -/
def treeFold (op : Fv → Fv → Fv) : Nat → List Fv → Fv
  | 0, t => t.headD (.num false 0 0)
  | fuel + 1, t =>
    match t with
    | [] => .num false 0 0
    | [x] => x
    | t => treeFold op fuel (treeLevel op t)

/-! ### Accumulators (R181 to R183) -/

/-- The NaN marker. -/
def nanMarker : W64 := 0x8000000000000000

/-- An accumulator's value A × 2^a (R181). -/
def accValue (a : Int) (w : W64) : Fv :=
  if w = nanMarker then .nan
  else .num (decide (w.toInt < 0)) w.toInt.natAbs a

/-- ⌊p / 2^a⌋ of an exact product (R182). -/
def truncAt (a : Int) (s : Bool) (m : Nat) (e : Int) : Int :=
  let n : Int := if s then -(m : Int) else m
  if a ≤ e then n * 2 ^ (e - a).toNat else n.fdiv (2 ^ (a - e).toNat)

/-- The integer a product adds; none for a product with a non-finite factor (R183). -/
def prodTerm (a : Int) (x w : Fv) : Option Int :=
  match x, w with
  | .num s m e, .num t n f => some (truncAt a (s != t) (m * n) (e + f))
  | _, _ => none

/-- The largest accumulator magnitude. -/
def accMax : Int := 2 ^ 63 - 1

/-- An accumulator's exact new value after terms are added: none is the NaN marker (R183). -/
def accSum (old : W64) (terms : List (Option Int)) : Option Int :=
  terms.foldl (fun acc t => match acc, t with
    | some x, some y => some (x + y)
    | _, _ => none) (if old = nanMarker then none else some old.toInt)

/-- An exact value overflows (R191). -/
def accOver (v : Option Int) : Bool :=
  match v with
  | some x => decide (accMax < x ∨ x < -accMax)
  | none => false

/-- The word of an exact value, saturated by sign (R193). -/
def accWord (v : Option Int) : W64 :=
  match v with
  | none => nanMarker
  | some x => if accMax < x then BitVec.ofInt 64 accMax
              else if x < -accMax then BitVec.ofInt 64 (-accMax) else BitVec.ofInt 64 x

end Sys2Proof.Machine
end

