-- ==== Sys2Proof/Config.lean ====
section
/-!
DEFINITION. Config.lean: what one device's build fixes and the values the spec leaves open. A free value
is an opaque constant: nothing can be proved of it (logs 2 and 11).
-/

namespace Sys2Proof.Config

/-- FREE VALUE (log 2). A byte of a region that a stopped instruction was writing (R568), and every
other byte whose content the spec calls undefined, for a draw and a position. -/
opaque freeByte : Nat → Nat → Byte

/-- FREE VALUE (log 2). A 64-bit word the spec leaves open, for a draw. -/
opaque freeWord : Nat → W64

/-- FREE VALUE (log 7). What a register field that only time moves shows, for the field and a draw. -/
opaque timing : Nat → Nat → W64

/-- FREE VALUE (log 11). The bit pattern of a Class L result within its bound (R203): which of the
admissible binary32 patterns the implementation picks, by function number and operands. -/
opaque classL : Nat → BitVec 32 → BitVec 32 → BitVec 32

/-- FREE VALUE (log 12). A key or secret drawn by the random generator (R514), for a draw. -/
opaque key : Nat → W64

/-- FREE VALUE (log 12). A public key, signature or ciphertext (R514, R515, R518, R519): byte `k` of
the value made for a draw. -/
opaque cryptoByte : Nat → Nat → Byte

/-- FREE VALUE (log 12). What KEY_IMPORT unwraps from a wrapped key (R518): none when it fails. -/
opaque unwrapKey : W64 → List Byte → Option (BitVec 256)

/-- FREE VALUE (log 12). Byte `k` of the public key of an attestation key (R519). -/
opaque publicKey : W64 → Nat → Byte

/-- IMPLEMENTATION (log 4). Byte `k` of IDKEY, the identity public key (R514, R519). -/
opaque idKey : Nat → Byte

/-- IMPLEMENTATION (log 4). Byte `k` of FUSES (R519). -/
opaque fuses : Nat → Byte

/-- IMPLEMENTATION (log 4). Silicon revision, `SVC_ID.REV`. -/
opaque revision : Byte

/-- IMPLEMENTATION (log 4). The initial count of spare flash blocks of hub 2 (0) and hub 3 (1) (R426, R427). -/
opaque spareBlocks : Nat → Nat

/-- IMPLEMENTATION (log 4). Whether this is device B of a D2, `SVC_ID.TWIN` (R546). -/
opaque deviceB : Bool

/-- IMPLEMENTATION (log 4). Byte `k` of SERIAL (R519). -/
opaque serial : Nat → Byte

/-- IMPLEMENTATION (log 4). Byte `k` of DIG_BOOT to DIG_TABLES (R519). -/
opaque digests : Nat → Byte

/-- IMPLEMENTATION (log 13). The feed tag of a node as its member announces it (R486, R487). -/
opaque feedTag : Nat → BitVec 4

/-- IMPLEMENTATION (log 13). `FLT_FEED.FORCE` of another node as its member announces it (R487). -/
opaque feedForce : Nat → Bool

/-- IMPLEMENTATION (log 13). The other device of the D2 module that a node lies on (R486). -/
opaque twinOf : Nat → Option Nat

/-- IMPLEMENTATION (log 13). The marker peer that assignment `k` of the pairing function gives a port of a node, for a
member set (R569): another `k` is another choice of the service (R458). -/
opaque peerOf : List Nat → Nat → Nat → Nat → Option Nat

/-- FREE VALUE (log 31). Which of the sets this device owns a shard belongs to, by the job's PADDR (R356). -/
opaque setOf : Nat → Nat

/-- IMPLEMENTATION (log 13). The watchers of a node in a member set under assignment `k` (R475, R569). -/
opaque watchersOf : List Nat → Nat → Nat → List Nat

end Sys2Proof.Config
end

