-- ==== Sys2Proof/Machine/Regs.lean ====
section
/-!
DEFINITION. Machine/Regs.lean: the register map (R13, R14), one definition per field of the register
tables of the chapters, under the name the tables give it: offset, bits, access type (R15) and reset.
A register that repeats has an inner stride (strand, port, partition) and an outer one (core, group).
-/

namespace Sys2Proof.Machine

/-- The access types of R15. -/
inductive Acc where
  | rw | ro | w1c | wo
deriving DecidableEq, Repr

/-- A field of a register: the register's offset and its two strides with their counts, the field's
lowest bit and width, its access type and its reset value. -/
structure Fld where
  base : Nat
  s1 : Nat
  n1 : Nat
  s2 : Nat
  n2 : Nat
  lo : Nat
  w : Nat
  acc : Acc
  reset : Nat
deriving DecidableEq, Repr

/-- The offset of instance (outer `i`, inner `j`) of the field's register. -/
def Fld.off (f : Fld) (i j : Nat) : Nat := f.base + f.s2 * i + f.s1 * j

/-- Whether the register that holds `f` has an instance at offset `off`. -/
def Fld.isAt (f : Fld) (off : Nat) : Bool :=
  if off < f.base then false
  else
    let i := if f.n2 ≤ 1 then 0 else (off - f.base) / f.s2
    let r := off - f.base - f.s2 * i
    let j := if f.n1 ≤ 1 then 0 else r / f.s1
    decide (i < f.n2) && decide (j < f.n1) && decide (r = f.s1 * j)

/-- The bits of a word that the field takes. -/
def Fld.ext (f : Fld) (v : Nat) : Nat := v / 2 ^ f.lo % 2 ^ f.w

namespace Reg

/-- R70. -/
def BT_CTRL_STATE : Fld := ⟨0x010000, 0, 1, 0x0, 1, 0, 2, .ro, 0⟩
/-- R70. -/
def BT_CTRL_OVR_FAULT : Fld := ⟨0x010000, 0, 1, 0x0, 1, 2, 1, .ro, 0⟩
/-- R70. -/
def BT_CTRL_IS_REF : Fld := ⟨0x010000, 0, 1, 0x0, 1, 3, 1, .ro, 0⟩
/-- R70. -/
def BT_PERIOD_SEL : Fld := ⟨0x010008, 0, 1, 0x0, 1, 0, 2, .rw, 2⟩
/-- R70. -/
def BT_PERIOD_CYCLES : Fld := ⟨0x010008, 0, 1, 0x0, 1, 16, 16, .ro, 12800⟩
/-- R70. -/
def BT_PERIOD_GUARD : Fld := ⟨0x010008, 0, 1, 0x0, 1, 32, 10, .ro, 256⟩
/-- R70. -/
def BT_COUNT_COUNT : Fld := ⟨0x010010, 0, 1, 0x0, 1, 0, 64, .ro, 0⟩
/-- R70. -/
def BT_OFFSET_OFFSET : Fld := ⟨0x010018, 0, 1, 0x0, 1, 0, 32, .ro, 0⟩
/-- R70. -/
def BT_OFFSET_PEAK : Fld := ⟨0x010018, 0, 1, 0x0, 1, 32, 32, .ro, 0⟩
/-- R70. -/
def BT_REF_NODE : Fld := ⟨0x010020, 0, 1, 0x0, 1, 0, 15, .ro, 0⟩
/-- R70. -/
def BT_REF_VALID : Fld := ⟨0x010020, 0, 1, 0x0, 1, 15, 1, .ro, 0⟩
/-- R70. -/
def BT_REF_HOPS : Fld := ⟨0x010020, 0, 1, 0x0, 1, 16, 3, .ro, 7⟩
/-- R70. -/
def BT_STRETCH_GRANTED : Fld := ⟨0x010028, 0, 1, 0x0, 1, 0, 32, .ro, 0⟩
/-- R70. -/
def BT_STRETCH_RAISED : Fld := ⟨0x010028, 0, 1, 0x0, 1, 32, 32, .ro, 0⟩
/-- R70. -/
def BT_STRETCH_CFG_LIMIT : Fld := ⟨0x010030, 0, 1, 0x0, 1, 0, 8, .rw, 4⟩
/-- R70. -/
def BT_STATUS_OVERRUN : Fld := ⟨0x010038, 0, 1, 0x0, 1, 0, 1, .w1c, 0⟩
/-- R70. -/
def BT_STATUS_STRETCH_LATE : Fld := ⟨0x010038, 0, 1, 0x0, 1, 1, 1, .w1c, 0⟩
/-- R70. -/
def BT_STATUS_OFFSET_HIGH : Fld := ⟨0x010038, 0, 1, 0x0, 1, 2, 1, .w1c, 0⟩
/-- R70. -/
def BT_STATUS_MARKER_MISS : Fld := ⟨0x010038, 0, 1, 0x0, 1, 3, 1, .w1c, 0⟩
/-- R70. -/
def BT_MARKER_RX_PORT : Fld := ⟨0x010040, 0, 1, 0x0, 1, 0, 16, .ro, 0⟩
/-- R70. -/
def BT_MARKER_RX_TWIN : Fld := ⟨0x010040, 0, 1, 0x0, 1, 16, 1, .ro, 0⟩
/-- R70. -/
def BT_SLACK_MIN : Fld := ⟨0x010048, 0, 1, 0x0, 1, 0, 16, .ro, 0⟩
/-- R70. -/
def BT_SLACK_CORE : Fld := ⟨0x010048, 0, 1, 0x0, 1, 16, 7, .ro, 0⟩
/-- R70. -/
def BT_PEER_NODE : Fld := ⟨0x010080, 8, 16, 0x0, 1, 0, 15, .ro, 0⟩
/-- R70. -/
def BT_PEER_VALID : Fld := ⟨0x010080, 8, 16, 0x0, 1, 15, 1, .ro, 0⟩
/-- R70. -/
def BT_PEER_WATCHER : Fld := ⟨0x010080, 8, 16, 0x0, 1, 16, 1, .ro, 0⟩
/-- R70. -/
def BT_PEER_WATCHED : Fld := ⟨0x010080, 8, 16, 0x0, 1, 17, 1, .ro, 0⟩
/-- R70. -/
def BT_PEER_HOPS : Fld := ⟨0x010080, 8, 16, 0x0, 1, 18, 3, .ro, 7⟩
/-- R70. -/
def BT_PEER_TWIN_NODE : Fld := ⟨0x010100, 0, 1, 0x0, 1, 0, 15, .ro, 0⟩
/-- R70. -/
def BT_PEER_TWIN_VALID : Fld := ⟨0x010100, 0, 1, 0x0, 1, 15, 1, .ro, 0⟩
/-- R99. -/
def SO_COUNT_COUNT : Fld := ⟨0x0A0000, 8, 8192, 0x0, 1, 0, 32, .rw, 0⟩
/-- R99. -/
def SO_COUNT_THRESH : Fld := ⟨0x0A0000, 8, 8192, 0x0, 1, 32, 32, .rw, 0⟩
/-- R99. -/
def SO_HOLDER_NODE : Fld := ⟨0x0B0000, 8, 8192, 0x0, 1, 0, 15, .ro, 0⟩
/-- R99. -/
def SO_HOLDER_VALID : Fld := ⟨0x0B0000, 8, 8192, 0x0, 1, 15, 1, .ro, 0⟩
/-- R99. -/
def SO_HOLDER_CORE : Fld := ⟨0x0B0000, 8, 8192, 0x0, 1, 16, 7, .ro, 127⟩
/-- R99. -/
def SO_HOLDER_STATUS : Fld := ⟨0x0B0000, 8, 8192, 0x0, 1, 24, 3, .ro, 0⟩
/-- R99. -/
def SO_HOLDER_CTX : Fld := ⟨0x0B0000, 8, 8192, 0x0, 1, 32, 4, .ro, 0⟩
/-- R114. -/
def CORE_STRAND_PC : Fld := ⟨0x200000, 8, 4, 0x1000, 96, 0, 32, .ro, 0⟩
/-- R114. -/
def CORE_STRAND_STATE : Fld := ⟨0x200000, 8, 4, 0x1000, 96, 32, 3, .ro, 0⟩
/-- R114. -/
def CORE_STRAND_ENABLED : Fld := ⟨0x200000, 8, 4, 0x1000, 96, 35, 1, .ro, 0⟩
/-- R114. -/
def CORE_STRAND_SEG : Fld := ⟨0x200000, 8, 4, 0x1000, 96, 36, 28, .ro, 0⟩
/-- R175. -/
def CORE_ARR_STATE_OWNER : Fld := ⟨0x200100, 0, 1, 0x1000, 96, 0, 2, .ro, 0⟩
/-- R175. -/
def CORE_ARR_STATE_STAT_VALID : Fld := ⟨0x200100, 0, 1, 0x1000, 96, 2, 1, .ro, 0⟩
/-- R175. -/
def CORE_ARR_STATE_STAT_FMT : Fld := ⟨0x200100, 0, 1, 0x1000, 96, 3, 4, .ro, 0⟩
/-- R175. -/
def CORE_ARR_STATE_STAT_SPARSE : Fld := ⟨0x200100, 0, 1, 0x1000, 96, 7, 2, .ro, 0⟩
/-- R175. -/
def CORE_ARR_STATE_QUEUE : Fld := ⟨0x200100, 0, 1, 0x1000, 96, 9, 2, .ro, 0⟩
/-- R175. -/
def CORE_ARR_CHKLOG_VALID : Fld := ⟨0x200108, 0, 1, 0x1000, 96, 0, 1, .w1c, 0⟩
/-- R175. -/
def CORE_ARR_CHKLOG_STRAND : Fld := ⟨0x200108, 0, 1, 0x1000, 96, 1, 2, .ro, 0⟩
/-- R175. -/
def CORE_ARR_CHKLOG_ROW : Fld := ⟨0x200108, 0, 1, 0x1000, 96, 3, 12, .ro, 0⟩
/-- R175. -/
def CORE_ARR_CHKLOG_ROW_VALID : Fld := ⟨0x200108, 0, 1, 0x1000, 96, 15, 1, .ro, 0⟩
/-- R175. -/
def CORE_ARR_CHKLOG_COL : Fld := ⟨0x200108, 0, 1, 0x1000, 96, 16, 7, .ro, 0⟩
/-- R175. -/
def CORE_ARR_CHKLOG_COL_VALID : Fld := ⟨0x200108, 0, 1, 0x1000, 96, 23, 1, .ro, 0⟩
/-- R175. -/
def CORE_ARR_CHKLOG_INDEX : Fld := ⟨0x200108, 0, 1, 0x1000, 96, 32, 32, .ro, 0⟩
/-- R175. -/
def CORE_ARR_STREAM_COUNT : Fld := ⟨0x200110, 0, 1, 0x1000, 96, 0, 64, .ro, 0⟩
/-- R175. -/
def CORE_ARR_LOAD_COUNT : Fld := ⟨0x200118, 0, 1, 0x1000, 96, 0, 64, .ro, 0⟩
/-- R175. -/
def CORE_ARR_ROWS_COUNT : Fld := ⟨0x200120, 0, 1, 0x1000, 96, 0, 64, .ro, 0⟩
/-- R175. -/
def CORE_ARR_ZTSKIP_COUNT : Fld := ⟨0x200128, 0, 1, 0x1000, 96, 0, 64, .ro, 0⟩
/-- R175. -/
def CORE_ARR_ZBGATE_COUNT : Fld := ⟨0x200130, 0, 1, 0x1000, 96, 0, 64, .ro, 0⟩
/-- R175. -/
def CORE_ARR_CHECKS_COUNT : Fld := ⟨0x200138, 0, 1, 0x1000, 96, 0, 64, .ro, 0⟩
/-- R175. -/
def CORE_ARR_CHKFAIL_COUNT : Fld := ⟨0x200140, 0, 1, 0x1000, 96, 0, 64, .ro, 0⟩
/-- R209. -/
def CORE_NUM_FLAGS_NONFIN : Fld := ⟨0x200180, 0, 1, 0x1000, 96, 0, 1, .w1c, 0⟩
/-- R209. -/
def CORE_NUM_FLAGS_SAT : Fld := ⟨0x200180, 0, 1, 0x1000, 96, 1, 1, .w1c, 0⟩
/-- R209. -/
def CORE_NUM_FLAGS_REPLAY : Fld := ⟨0x200180, 0, 1, 0x1000, 96, 2, 1, .w1c, 0⟩
/-- R209. -/
def CORE_NUM_FLAGS_STEP_FLAG : Fld := ⟨0x200180, 0, 1, 0x1000, 96, 8, 1, .ro, 0⟩
/-- R209. -/
def CORE_NUM_REPLAYS_COUNT : Fld := ⟨0x200188, 0, 1, 0x1000, 96, 0, 64, .ro, 0⟩
/-- R209. -/
def CORE_NUM_EXHAUST_COUNT : Fld := ⟨0x200190, 0, 1, 0x1000, 96, 0, 64, .ro, 0⟩
/-- R209. -/
def CORE_NUM_NONFIN_COUNT : Fld := ⟨0x200198, 0, 1, 0x1000, 96, 0, 64, .ro, 0⟩
/-- R209. -/
def CORE_SCALE_CUR : Fld := ⟨0x2001A0, 8, 4, 0x1000, 96, 0, 10, .ro, 0⟩
/-- R209. -/
def CORE_SCALE_CUR_VALID : Fld := ⟨0x2001A0, 8, 4, 0x1000, 96, 10, 1, .ro, 0⟩
/-- R209. -/
def CORE_SCALE_PREV : Fld := ⟨0x2001A0, 8, 4, 0x1000, 96, 16, 10, .ro, 0⟩
/-- R209. -/
def CORE_SCALE_PREV_VALID : Fld := ⟨0x2001A0, 8, 4, 0x1000, 96, 26, 1, .ro, 0⟩
/-- R209. -/
def CORE_SCALE_TSX : Fld := ⟨0x2001A0, 8, 4, 0x1000, 96, 32, 13, .ro, 0⟩
/-- R230. -/
def CORE_VEC_BUSY_COUNT : Fld := ⟨0x200200, 0, 1, 0x1000, 96, 0, 64, .ro, 0⟩
/-- R230. -/
def CORE_VEC_VECTORS_COUNT : Fld := ⟨0x200208, 0, 1, 0x1000, 96, 0, 64, .ro, 0⟩
/-- R230. -/
def CORE_VEC_FUNC_COUNT : Fld := ⟨0x200210, 0, 1, 0x1000, 96, 0, 64, .ro, 0⟩
/-- R230. -/
def CORE_VEC_SCAN_COUNT : Fld := ⟨0x200218, 0, 1, 0x1000, 96, 0, 64, .ro, 0⟩
/-- R230. -/
def CORE_VEC_NONFIN_COUNT : Fld := ⟨0x200220, 0, 1, 0x1000, 96, 0, 64, .ro, 0⟩
/-- R265. -/
def ATT_EMPTYROWS_COUNT : Fld := ⟨0x070000, 0, 1, 0x0, 1, 0, 64, .ro, 0⟩
/-- R265. -/
def ATT_FWD_BLOCKS_COUNT : Fld := ⟨0x070008, 0, 1, 0x0, 1, 0, 64, .ro, 0⟩
/-- R265. -/
def ATT_BWD_BLOCKS_COUNT : Fld := ⟨0x070010, 0, 1, 0x0, 1, 0, 64, .ro, 0⟩
/-- R265. -/
def ATT_SELECTIONS_COUNT : Fld := ⟨0x070018, 0, 1, 0x0, 1, 0, 64, .ro, 0⟩
/-- R265. -/
def ATT_SEL_SCORED_COUNT : Fld := ⟨0x070020, 0, 1, 0x0, 1, 0, 64, .ro, 0⟩
/-- R265. -/
def ATT_PAD_KEYS_COUNT : Fld := ⟨0x070028, 0, 1, 0x0, 1, 0, 64, .ro, 0⟩
/-- R265. -/
def ATT_LENGTH_REFUSED_COUNT : Fld := ⟨0x070030, 0, 1, 0x0, 1, 0, 64, .ro, 0⟩
/-- R265. -/
def ATT_STATUS_EMPTY : Fld := ⟨0x070038, 0, 1, 0x0, 1, 0, 1, .w1c, 0⟩
/-- R265. -/
def ATT_STATUS_LENGTH : Fld := ⟨0x070038, 0, 1, 0x0, 1, 1, 1, .w1c, 0⟩
/-- R265. -/
def ATT_STATUS_SEL_NAN : Fld := ⟨0x070038, 0, 1, 0x0, 1, 2, 1, .w1c, 0⟩
/-- R298. -/
def KVP_POOL_HBM_FREE : Fld := ⟨0x070800, 0, 1, 0x0, 1, 0, 25, .ro, 0⟩
/-- R298. -/
def KVP_POOL_HBM_TOTAL : Fld := ⟨0x070800, 0, 1, 0x0, 1, 32, 25, .ro, 0⟩
/-- R298. -/
def KVP_POOL_LP_FREE : Fld := ⟨0x070808, 0, 1, 0x0, 1, 0, 25, .ro, 0⟩
/-- R298. -/
def KVP_POOL_LP_TOTAL : Fld := ⟨0x070808, 0, 1, 0x0, 1, 32, 25, .ro, 0⟩
/-- R298. -/
def KVP_POOL_CFG_LOW : Fld := ⟨0x070810, 0, 1, 0x0, 1, 0, 24, .rw, 4096⟩
/-- R298. -/
def KVP_POOL_CFG_RATE : Fld := ⟨0x070810, 0, 1, 0x0, 1, 32, 8, .rw, 16⟩
/-- R298. -/
def KVP_QUAR_FRAMES : Fld := ⟨0x070818, 0, 1, 0x0, 1, 0, 25, .ro, 0⟩
/-- R298. -/
def KVP_COW_COUNT : Fld := ⟨0x070820, 0, 1, 0x0, 1, 0, 64, .ro, 0⟩
/-- R298. -/
def KVP_AGED_COUNT : Fld := ⟨0x070828, 0, 1, 0x0, 1, 0, 64, .ro, 0⟩
/-- R298. -/
def KVP_REMOTE_COUNT : Fld := ⟨0x070830, 0, 1, 0x0, 1, 0, 64, .ro, 0⟩
/-- R298. -/
def KVP_RCACHE_HIT_COUNT : Fld := ⟨0x070838, 0, 1, 0x0, 1, 0, 64, .ro, 0⟩
/-- R298. -/
def KVP_PAD_READS_COUNT : Fld := ⟨0x070840, 0, 1, 0x0, 1, 0, 64, .ro, 0⟩
/-- R298. -/
def KVP_REMOTE_FAIL_COUNT : Fld := ⟨0x070848, 0, 1, 0x0, 1, 0, 64, .ro, 0⟩
/-- R298. -/
def KVP_CMD_CONS_K : Fld := ⟨0x070850, 0, 1, 0x0, 1, 0, 32, .ro, 0⟩
/-- R298. -/
def KVP_CIRC_COUNT : Fld := ⟨0x070858, 0, 1, 0x0, 1, 0, 64, .ro, 0⟩
/-- R298. -/
def KVP_STATUS_POOL_WAIT : Fld := ⟨0x070860, 0, 1, 0x0, 1, 0, 1, .w1c, 0⟩
/-- R298. -/
def KVP_STATUS_REFSAT : Fld := ⟨0x070860, 0, 1, 0x0, 1, 1, 1, .w1c, 0⟩
/-- R298. -/
def KVP_STATUS_TABLE : Fld := ⟨0x070860, 0, 1, 0x0, 1, 2, 1, .w1c, 0⟩
/-- R298. -/
def KVP_STATUS_CMD : Fld := ⟨0x070860, 0, 1, 0x0, 1, 3, 1, .w1c, 0⟩
/-- R298. -/
def KVP_STATUS_QUAR_HOLD : Fld := ⟨0x070860, 0, 1, 0x0, 1, 4, 1, .w1c, 0⟩
/-- R298. -/
def KVP_STATUS_REMOTE_FAIL : Fld := ⟨0x070860, 0, 1, 0x0, 1, 5, 1, .w1c, 0⟩
/-- R320. -/
def RT_TOKENS_COUNT : Fld := ⟨0x060000, 0, 1, 0x0, 1, 0, 64, .ro, 0⟩
/-- R320. -/
def RT_CLAIMS_COUNT : Fld := ⟨0x060008, 0, 1, 0x0, 1, 0, 64, .ro, 0⟩
/-- R320. -/
def RT_ACCEPT_FIRST_COUNT : Fld := ⟨0x060010, 0, 1, 0x0, 1, 0, 64, .ro, 0⟩
/-- R320. -/
def RT_ACCEPT_NEXT_COUNT : Fld := ⟨0x060018, 0, 1, 0x0, 1, 0, 64, .ro, 0⟩
/-- R320. -/
def RT_DROPPED_COUNT : Fld := ⟨0x060020, 0, 1, 0x0, 1, 0, 64, .ro, 0⟩
/-- R320. -/
def RT_ROUNDS_COUNT : Fld := ⟨0x060028, 0, 1, 0x0, 1, 0, 64, .ro, 0⟩
/-- R320. -/
def RT_ROWS_OUT_COUNT : Fld := ⟨0x060030, 0, 1, 0x0, 1, 0, 64, .ro, 0⟩
/-- R320. -/
def RT_ROWS_IN_COUNT : Fld := ⟨0x060038, 0, 1, 0x0, 1, 0, 64, .ro, 0⟩
/-- R320. -/
def RT_INFLIGHT_COUNT : Fld := ⟨0x060040, 0, 1, 0x0, 1, 0, 8, .ro, 0⟩
/-- R320. -/
def RT_STATUS_DROP : Fld := ⟨0x060048, 0, 1, 0x0, 1, 0, 1, .w1c, 0⟩
/-- R320. -/
def RT_STATUS_NAN_LOGIT : Fld := ⟨0x060048, 0, 1, 0x0, 1, 1, 1, .w1c, 0⟩
/-- R320. -/
def RT_STATUS_MISMATCH : Fld := ⟨0x060048, 0, 1, 0x0, 1, 2, 1, .w1c, 0⟩
/-- R320. -/
def RT_STATUS_FULL : Fld := ⟨0x060048, 0, 1, 0x0, 1, 3, 1, .w1c, 0⟩
/-- R358. -/
def UE_STEP_STEP : Fld := ⟨0x050000, 0, 1, 0x0, 1, 0, 32, .ro, 0⟩
/-- R358. -/
def UE_SEED_SEED : Fld := ⟨0x050008, 0, 1, 0x0, 1, 0, 64, .rw, 0⟩
/-- R358. -/
def UE_GSCALE_EXP : Fld := ⟨0x050010, 0, 1, 0x0, 1, 0, 8, .ro, 0⟩
/-- R358. -/
def UE_SCALE_CFG_GROWTH : Fld := ⟨0x050018, 0, 1, 0x0, 1, 0, 32, .rw, 2000⟩
/-- R358. -/
def UE_SILENT_CFG_LIMIT : Fld := ⟨0x050020, 0, 1, 0x0, 1, 0, 16, .rw, 64⟩
/-- R358. -/
def UE_STATUS_STEPSKEW : Fld := ⟨0x050028, 0, 1, 0x0, 1, 0, 1, .w1c, 0⟩
/-- R358. -/
def UE_STATUS_JOB_ERROR : Fld := ⟨0x050028, 0, 1, 0x0, 1, 1, 1, .w1c, 0⟩
/-- R358. -/
def UE_STATUS_SATURATE : Fld := ⟨0x050028, 0, 1, 0x0, 1, 2, 1, .w1c, 0⟩
/-- R358. -/
def UE_STATUS_ESCALATE : Fld := ⟨0x050028, 0, 1, 0x0, 1, 3, 1, .w1c, 0⟩
/-- R358. -/
def UE_STATUS_STALE : Fld := ⟨0x050028, 0, 1, 0x0, 1, 4, 1, .w1c, 0⟩
/-- R358. -/
def UE_STATUS_LATE : Fld := ⟨0x050028, 0, 1, 0x0, 1, 5, 1, .w1c, 0⟩
/-- R358. -/
def UE_STATUS_SILENT : Fld := ⟨0x050028, 0, 1, 0x0, 1, 6, 1, .w1c, 0⟩
/-- R358. -/
def UE_STATUS_TEE_ABORT : Fld := ⟨0x050028, 0, 1, 0x0, 1, 7, 1, .w1c, 0⟩
/-- R358. -/
def UE_SILENT_TAB_COUNT : Fld := ⟨0x050800, 8, 256, 0x0, 1, 0, 64, .ro, 0⟩
/-- R359. -/
def UE_QUEUE_JOBS : Fld := ⟨0x050100, 0, 1, 0x1000, 12, 0, 7, .ro, 0⟩
/-- R359. -/
def UE_QUEUE_GATED : Fld := ⟨0x050100, 0, 1, 0x1000, 12, 8, 7, .ro, 0⟩
/-- R359. -/
def UE_QUEUE_RUNNING : Fld := ⟨0x050100, 0, 1, 0x1000, 12, 16, 3, .ro, 0⟩
/-- R359. -/
def UE_QUEUE_PRECON : Fld := ⟨0x050100, 0, 1, 0x1000, 12, 20, 3, .ro, 0⟩
/-- R359. -/
def UE_JOBS_COUNT : Fld := ⟨0x050108, 0, 1, 0x1000, 12, 0, 64, .ro, 0⟩
/-- R359. -/
def UE_PARAMS_COUNT : Fld := ⟨0x050110, 0, 1, 0x1000, 12, 0, 64, .ro, 0⟩
/-- R359. -/
def UE_BYTES_COUNT : Fld := ⟨0x050118, 0, 1, 0x1000, 12, 0, 64, .ro, 0⟩
/-- R359. -/
def UE_TEE_BYTES_COUNT : Fld := ⟨0x050120, 0, 1, 0x1000, 12, 0, 64, .ro, 0⟩
/-- R359. -/
def UE_GATE_WAIT_COUNT : Fld := ⟨0x050128, 0, 1, 0x1000, 12, 0, 64, .ro, 0⟩
/-- R359. -/
def UE_SATURATE_CNT_COUNT : Fld := ⟨0x050130, 0, 1, 0x1000, 12, 0, 64, .ro, 0⟩
/-- R359. -/
def UE_PRECON_RUNS_COUNT : Fld := ⟨0x050138, 0, 1, 0x1000, 12, 0, 64, .ro, 0⟩
/-- R359. -/
def UE_PRECON_ESC_COUNT : Fld := ⟨0x050140, 0, 1, 0x1000, 12, 0, 64, .ro, 0⟩
/-- R359. -/
def UE_PRECON_STALE_CNT_COUNT : Fld := ⟨0x050148, 0, 1, 0x1000, 12, 0, 64, .ro, 0⟩
/-- R359. -/
def UE_PRECON_LATE_COUNT : Fld := ⟨0x050150, 0, 1, 0x1000, 12, 0, 64, .ro, 0⟩
/-- R389. -/
def UE_GS_CFG_INIT : Fld := ⟨0x050030, 0, 1, 0x0, 1, 0, 8, .rw, 16⟩
/-- R389. -/
def UE_GS_CFG_MIN : Fld := ⟨0x050030, 0, 1, 0x0, 1, 8, 8, .rw, 0⟩
/-- R389. -/
def UE_GS_CFG_MAX : Fld := ⟨0x050030, 0, 1, 0x0, 1, 16, 8, .rw, 24⟩
/-- R389. -/
def UE_GS_ADDR_ADDR : Fld := ⟨0x050038, 0, 1, 0x0, 1, 0, 48, .rw, 0⟩
/-- R389. -/
def UE_GS_ADDR_EN : Fld := ⟨0x050038, 0, 1, 0x0, 1, 63, 1, .rw, 0⟩
/-- R389. -/
def UE_DSTEP_DSTEP : Fld := ⟨0x050040, 0, 1, 0x0, 1, 0, 64, .ro, 0⟩
/-- R389. -/
def UE_VERDICT_LOCAL : Fld := ⟨0x050048, 0, 1, 0x0, 1, 0, 16, .ro, 0⟩
/-- R389. -/
def UE_VERDICT_CUT : Fld := ⟨0x050048, 0, 1, 0x0, 1, 16, 1, .ro, 0⟩
/-- R389. -/
def UE_VERDICT_REDUCED : Fld := ⟨0x050048, 0, 1, 0x0, 1, 17, 1, .ro, 0⟩
/-- R389. -/
def UE_VERDICT_VALUE : Fld := ⟨0x050048, 0, 1, 0x0, 1, 32, 16, .ro, 0⟩
/-- R389. -/
def UE_LAST_VERDICT : Fld := ⟨0x050050, 0, 1, 0x0, 1, 0, 16, .ro, 0⟩
/-- R389. -/
def UE_LAST_ACTION : Fld := ⟨0x050050, 0, 1, 0x0, 1, 16, 2, .ro, 0⟩
/-- R389. -/
def UE_LAST_STEP : Fld := ⟨0x050050, 0, 1, 0x0, 1, 32, 32, .ro, 0⟩
/-- R389. -/
def UE_CLEAN_RUN_COUNT : Fld := ⟨0x050058, 0, 1, 0x0, 1, 0, 32, .ro, 0⟩
/-- R389. -/
def UE_REPLAY_CFG_LIMIT : Fld := ⟨0x050060, 0, 1, 0x0, 1, 0, 8, .rw, 8⟩
/-- R389. -/
def UE_SKIPS_COUNT : Fld := ⟨0x050068, 0, 1, 0x0, 1, 0, 64, .ro, 0⟩
/-- R389. -/
def UE_REPLAYS_COUNT : Fld := ⟨0x050070, 0, 1, 0x0, 1, 0, 64, .ro, 0⟩
/-- R389. -/
def UE_REPLAY_RUN_COUNT : Fld := ⟨0x050078, 0, 1, 0x0, 1, 0, 8, .ro, 0⟩
/-- R389. -/
def UE_GP_GATHERS_COUNT : Fld := ⟨0x050080, 0, 1, 0x0, 1, 0, 64, .ro, 0⟩
/-- R389. -/
def UE_GP_REUSE_COUNT : Fld := ⟨0x050088, 0, 1, 0x0, 1, 0, 64, .ro, 0⟩
/-- R389. -/
def UE_GP_EVICT_COUNT : Fld := ⟨0x050090, 0, 1, 0x0, 1, 0, 64, .ro, 0⟩
/-- R389. -/
def UE_GP_FRAMES_FREE : Fld := ⟨0x050098, 0, 1, 0x0, 1, 0, 24, .ro, 0⟩
/-- R389. -/
def UE_GP_FRAMES_TOTAL : Fld := ⟨0x050098, 0, 1, 0x0, 1, 24, 24, .ro, 0⟩
/-- R389. -/
def UE_VERSKEW_CNT_COUNT : Fld := ⟨0x0500A0, 0, 1, 0x0, 1, 0, 64, .ro, 0⟩
/-- R389. -/
def UE_INGEST_BYTES_COUNT : Fld := ⟨0x0500A8, 0, 1, 0x0, 1, 0, 64, .ro, 0⟩
/-- R389. -/
def UE_STEP_STATUS_VERSKEW : Fld := ⟨0x0500B0, 0, 1, 0x0, 1, 0, 1, .w1c, 0⟩
/-- R389. -/
def UE_STEP_STATUS_GS_FLOOR : Fld := ⟨0x0500B0, 0, 1, 0x0, 1, 1, 1, .w1c, 0⟩
/-- R389. -/
def UE_STEP_STATUS_NOSPACE : Fld := ⟨0x0500B0, 0, 1, 0x0, 1, 2, 1, .w1c, 0⟩
/-- R389. -/
def UE_STEP_STATUS_INGEST : Fld := ⟨0x0500B0, 0, 1, 0x0, 1, 3, 1, .w1c, 0⟩
/-- R389. -/
def UE_STEP_STATUS_REPLAY_LIMIT : Fld := ⟨0x0500B0, 0, 1, 0x0, 1, 4, 1, .w1c, 0⟩
/-- R389. -/
def UE_STEP_STATUS_EARLY : Fld := ⟨0x0500B0, 0, 1, 0x0, 1, 5, 1, .w1c, 0⟩
/-- R430. -/
def CORE_STALL_COUNT : Fld := ⟨0x200300, 8, 10, 0x1000, 96, 0, 64, .ro, 0⟩
/-- R430. -/
def CORE_REG_RATE : Fld := ⟨0x200400, 8, 6, 0x1000, 96, 0, 16, .rw, 65535⟩
/-- R430. -/
def CORE_REG_BURST : Fld := ⟨0x200400, 8, 6, 0x1000, 96, 16, 16, .rw, 64⟩
/-- R430. -/
def CORE_TAGS_WIDE : Fld := ⟨0x200430, 0, 1, 0x1000, 96, 0, 10, .ro, 0⟩
/-- R430. -/
def CORE_TAGS_NARROW : Fld := ⟨0x200430, 0, 1, 0x1000, 96, 16, 9, .ro, 0⟩
/-- R431. -/
def MT_REG_RATE : Fld := ⟨0x080000, 8, 6, 0x4000, 4, 0, 16, .rw, 65535⟩
/-- R431. -/
def MT_REG_BURST : Fld := ⟨0x080000, 8, 6, 0x4000, 4, 16, 16, .rw, 64⟩
/-- R431. -/
def MT_THERM_TEMP : Fld := ⟨0x080040, 8, 2, 0x4000, 4, 0, 8, .ro, 0⟩
/-- R431. -/
def MT_THERM_THRESH : Fld := ⟨0x080040, 8, 2, 0x4000, 4, 8, 8, .ro, 95⟩
/-- R431. -/
def MT_THERM_LEVEL : Fld := ⟨0x080040, 8, 2, 0x4000, 4, 16, 3, .ro, 0⟩
/-- R431. -/
def MT_THERM_PEAK : Fld := ⟨0x080040, 8, 2, 0x4000, 4, 24, 8, .ro, 0⟩
/-- R431. -/
def MT_THROTTLE_CYC_COUNT : Fld := ⟨0x080050, 0, 1, 0x4000, 4, 0, 64, .ro, 0⟩
/-- R431. -/
def MT_PF_DONE_COUNT : Fld := ⟨0x080058, 0, 1, 0x4000, 4, 0, 64, .ro, 0⟩
/-- R431. -/
def MT_PF_MISS_COUNT : Fld := ⟨0x080060, 0, 1, 0x4000, 4, 0, 64, .ro, 0⟩
/-- R431. -/
def MT_PF_DROP_COUNT : Fld := ⟨0x080068, 0, 1, 0x4000, 4, 0, 64, .ro, 0⟩
/-- R431. -/
def MT_PF_STALE_COUNT : Fld := ⟨0x080070, 0, 1, 0x4000, 4, 0, 64, .ro, 0⟩
/-- R431. -/
def MT_PF_REFETCH_COUNT : Fld := ⟨0x080078, 0, 1, 0x4000, 4, 0, 64, .ro, 0⟩
/-- R431. -/
def MT_WATCH_USED : Fld := ⟨0x080080, 0, 1, 0x4000, 4, 0, 11, .ro, 0⟩
/-- R431. -/
def MT_NARROW_COUNT : Fld := ⟨0x080088, 0, 1, 0x4000, 4, 0, 64, .ro, 0⟩
/-- R431. -/
def MT_TAGS_WIDE : Fld := ⟨0x080090, 0, 1, 0x4000, 4, 0, 14, .ro, 0⟩
/-- R431. -/
def MT_TAGS_NARROW : Fld := ⟨0x080090, 0, 1, 0x4000, 4, 16, 13, .ro, 0⟩
/-- R431. -/
def MT_STATUS_THROTTLE : Fld := ⟨0x080098, 0, 1, 0x4000, 4, 0, 1, .w1c, 0⟩
/-- R431. -/
def MT_STATUS_MISS : Fld := ⟨0x080098, 0, 1, 0x4000, 4, 1, 1, .w1c, 0⟩
/-- R431. -/
def MT_STATUS_DROP : Fld := ⟨0x080098, 0, 1, 0x4000, 4, 2, 1, .w1c, 0⟩
/-- R431. -/
def MT_STATUS_STALE : Fld := ⟨0x080098, 0, 1, 0x4000, 4, 3, 1, .w1c, 0⟩
/-- R431. -/
def MT_STATUS_POOL_LOW : Fld := ⟨0x080098, 0, 1, 0x4000, 4, 4, 1, .w1c, 0⟩
/-- R431. -/
def MT_STATUS_FTL : Fld := ⟨0x080098, 0, 1, 0x4000, 4, 5, 1, .w1c, 0⟩
/-- R431. -/
def MT_POOL_HBM_FREE : Fld := ⟨0x080100, 0, 1, 0x0, 1, 0, 24, .ro, 0⟩
/-- R431. -/
def MT_POOL_HBM_TOTAL : Fld := ⟨0x080100, 0, 1, 0x0, 1, 24, 24, .ro, 262144⟩
/-- R431. -/
def MT_POOL_LP_FREE : Fld := ⟨0x080108, 0, 1, 0x0, 1, 0, 24, .ro, 0⟩
/-- R431. -/
def MT_POOL_LP_TOTAL : Fld := ⟨0x080108, 0, 1, 0x0, 1, 24, 24, .ro, 524288⟩
/-- R431. -/
def MT_POOL_CFG_HBM_LOW : Fld := ⟨0x080110, 0, 1, 0x0, 1, 0, 16, .rw, 256⟩
/-- R431. -/
def MT_POOL_CFG_HBM_HIGH : Fld := ⟨0x080110, 0, 1, 0x0, 1, 16, 16, .rw, 1024⟩
/-- R431. -/
def MT_POOL_CFG_LP_LOW : Fld := ⟨0x080110, 0, 1, 0x0, 1, 32, 16, .rw, 512⟩
/-- R431. -/
def MT_POOL_CFG_RATE : Fld := ⟨0x080110, 0, 1, 0x0, 1, 48, 8, .rw, 2⟩
/-- R431. -/
def MT_POOL_MOVED_COUNT : Fld := ⟨0x080118, 0, 1, 0x0, 1, 0, 64, .ro, 0⟩
/-- R431. -/
def MT_POOL_RETURNED_COUNT : Fld := ⟨0x080120, 0, 1, 0x0, 1, 0, 64, .ro, 0⟩
/-- R431. -/
def MT_FTL_WEAR_PCT : Fld := ⟨0x088200, 0, 1, 0x4000, 2, 0, 8, .ro, 0⟩
/-- R431. -/
def MT_FTL_WEAR_READONLY : Fld := ⟨0x088200, 0, 1, 0x4000, 2, 8, 1, .ro, 0⟩
/-- R431. -/
def MT_FTL_SPARE_BLOCKS : Fld := ⟨0x088208, 0, 1, 0x4000, 2, 0, 32, .ro, 0⟩
/-- R431. -/
def MT_FTL_RETIRED_COUNT : Fld := ⟨0x088210, 0, 1, 0x4000, 2, 0, 64, .ro, 0⟩
/-- R431. -/
def MT_FTL_REFRESH_COUNT : Fld := ⟨0x088218, 0, 1, 0x4000, 2, 0, 64, .ro, 0⟩
/-- R431. -/
def MT_FTL_WRITTEN_COUNT : Fld := ⟨0x088220, 0, 1, 0x4000, 2, 0, 64, .ro, 0⟩
/-- R432. -/
def GRP_STATE_FENCED : Fld := ⟨0x100000, 0, 1, 0x10000, 12, 0, 8, .ro, 0⟩
/-- R432. -/
def GRP_STATE_WHOLE : Fld := ⟨0x100000, 0, 1, 0x10000, 12, 8, 1, .ro, 0⟩
/-- R432. -/
def GRP_STATE_OVL : Fld := ⟨0x100000, 0, 1, 0x10000, 12, 16, 8, .ro, 0⟩
/-- R432. -/
def GRP_STATE_OVL_MODE : Fld := ⟨0x100000, 0, 1, 0x10000, 12, 24, 2, .ro, 0⟩
/-- R432. -/
def GRP_ARB0_COUNT : Fld := ⟨0x100008, 0, 1, 0x10000, 12, 0, 64, .ro, 0⟩
/-- R432. -/
def GRP_ARB1_COUNT : Fld := ⟨0x100010, 0, 1, 0x10000, 12, 0, 64, .ro, 0⟩
/-- R432. -/
def GRP_ARB2_COUNT : Fld := ⟨0x100018, 0, 1, 0x10000, 12, 0, 64, .ro, 0⟩
/-- R432. -/
def GRP_ARB_AGED_COUNT : Fld := ⟨0x100020, 0, 1, 0x10000, 12, 0, 64, .ro, 0⟩
/-- R432. -/
def GRP_PORT_RD_COUNT : Fld := ⟨0x100028, 0, 1, 0x10000, 12, 0, 64, .ro, 0⟩
/-- R432. -/
def GRP_PORT_WR_COUNT : Fld := ⟨0x100030, 0, 1, 0x10000, 12, 0, 64, .ro, 0⟩
/-- R432. -/
def GRP_XLAT_MISS_COUNT : Fld := ⟨0x100038, 0, 1, 0x10000, 12, 0, 64, .ro, 0⟩
/-- R432. -/
def GRP_SEL_BUSY_COUNT : Fld := ⟨0x100040, 0, 1, 0x10000, 12, 0, 64, .ro, 0⟩
/-- R432. -/
def GRP_RT_BUSY_COUNT : Fld := ⟨0x100048, 0, 1, 0x10000, 12, 0, 64, .ro, 0⟩
/-- R432. -/
def GRP_STORE_ECC_COUNT : Fld := ⟨0x100050, 0, 1, 0x10000, 12, 0, 64, .ro, 0⟩
/-- R432. -/
def GRP_RELIEF_COUNT : Fld := ⟨0x100058, 0, 1, 0x10000, 12, 0, 64, .ro, 0⟩
/-- R462. -/
def FAB_PORT_CTRL_EN : Fld := ⟨0x090000, 0, 1, 0x400, 16, 0, 1, .rw, 1⟩
/-- R462. -/
def FAB_PORT_CTRL_PHY : Fld := ⟨0x090000, 0, 1, 0x400, 16, 1, 2, .rw, 1⟩
/-- R462. -/
def FAB_PORT_STATUS_LINK : Fld := ⟨0x090008, 0, 1, 0x400, 16, 0, 1, .ro, 0⟩
/-- R462. -/
def FAB_PORT_STATUS_SPRAY : Fld := ⟨0x090008, 0, 1, 0x400, 16, 1, 1, .ro, 0⟩
/-- R462. -/
def FAB_PORT_STATUS_PAUSED : Fld := ⟨0x090008, 0, 1, 0x400, 16, 2, 1, .ro, 0⟩
/-- R462. -/
def FAB_PORT_STATUS_LOCK : Fld := ⟨0x090008, 0, 1, 0x400, 16, 3, 4, .ro, 0⟩
/-- R462. -/
def FAB_PORT_MAC_MAC : Fld := ⟨0x090010, 0, 1, 0x400, 16, 0, 48, .ro, 0⟩
/-- R462. -/
def FAB_PORT_TXBYTES_COUNT : Fld := ⟨0x090018, 0, 1, 0x400, 16, 0, 64, .ro, 0⟩
/-- R462. -/
def FAB_PORT_RXBYTES_COUNT : Fld := ⟨0x090020, 0, 1, 0x400, 16, 0, 64, .ro, 0⟩
/-- R462. -/
def FAB_PORT_FCSERR_COUNT : Fld := ⟨0x090028, 0, 1, 0x400, 16, 0, 64, .ro, 0⟩
/-- R462. -/
def FAB_PORT_FECCORR_COUNT : Fld := ⟨0x090030, 0, 1, 0x400, 16, 0, 64, .ro, 0⟩
/-- R462. -/
def FAB_PORT_FECUNC_COUNT : Fld := ⟨0x090038, 0, 1, 0x400, 16, 0, 64, .ro, 0⟩
/-- R462. -/
def FAB_PORT_XOFF_TX_COUNT : Fld := ⟨0x090040, 0, 1, 0x400, 16, 0, 64, .ro, 0⟩
/-- R462. -/
def FAB_PORT_PAUSED_COUNT : Fld := ⟨0x090048, 0, 1, 0x400, 16, 0, 64, .ro, 0⟩
/-- R462. -/
def FAB_PORT_RXBUF_NOW : Fld := ⟨0x090050, 0, 1, 0x400, 16, 0, 18, .ro, 0⟩
/-- R462. -/
def FAB_PORT_RXBUF_PEAK : Fld := ⟨0x090050, 0, 1, 0x400, 16, 32, 18, .ro, 0⟩
/-- R463. -/
def FAB_NODE_NODE : Fld := ⟨0x094000, 0, 1, 0x0, 1, 0, 15, .rw, 0⟩
/-- R463. -/
def FAB_NODE_VALID : Fld := ⟨0x094000, 0, 1, 0x0, 1, 15, 1, .rw, 0⟩
/-- R463. -/
def FAB_CFG_PCP_CTL : Fld := ⟨0x094008, 0, 1, 0x0, 1, 0, 3, .rw, 7⟩
/-- R463. -/
def FAB_CFG_PCP_DATA : Fld := ⟨0x094008, 0, 1, 0x0, 1, 4, 3, .rw, 5⟩
/-- R463. -/
def FAB_CFG_PCP_STORE : Fld := ⟨0x094008, 0, 1, 0x0, 1, 8, 3, .rw, 3⟩
/-- R463. -/
def FAB_CFG_FANOUT : Fld := ⟨0x094008, 0, 1, 0x0, 1, 12, 4, .rw, 2⟩
/-- R463. -/
def FAB_CFG_RTO : Fld := ⟨0x094008, 0, 1, 0x0, 1, 16, 8, .rw, 6⟩
/-- R463. -/
def FAB_CFG_RETX_MAX : Fld := ⟨0x094008, 0, 1, 0x0, 1, 24, 8, .rw, 7⟩
/-- R463. -/
def FAB_MGMT_NODE : Fld := ⟨0x094010, 0, 1, 0x0, 1, 0, 15, .rw, 0⟩
/-- R463. -/
def FAB_MGMT_EN : Fld := ⟨0x094010, 0, 1, 0x0, 1, 15, 1, .rw, 0⟩
/-- R463. -/
def FAB_SHARE_CAP : Fld := ⟨0x094018, 8, 6, 0x0, 1, 0, 16, .rw, 65535⟩
/-- R463. -/
def FAB_SHARE_WEIGHT : Fld := ⟨0x094018, 8, 6, 0x0, 1, 16, 8, .rw, 1⟩
/-- R463. -/
def FAB_CTX_USED : Fld := ⟨0x094048, 0, 1, 0x0, 1, 0, 14, .ro, 0⟩
/-- R463. -/
def FAB_CTX_PEAK : Fld := ⟨0x094048, 0, 1, 0x0, 1, 16, 14, .ro, 0⟩
/-- R463. -/
def FAB_UNACKED_COUNT : Fld := ⟨0x094050, 0, 1, 0x0, 1, 0, 13, .ro, 0⟩
/-- R463. -/
def FAB_RETX_COUNT : Fld := ⟨0x094058, 0, 1, 0x0, 1, 0, 64, .ro, 0⟩
/-- R463. -/
def FAB_DISCARD_COUNT : Fld := ⟨0x094060, 0, 1, 0x0, 1, 0, 64, .ro, 0⟩
/-- R463. -/
def FAB_DUP_DROP_COUNT : Fld := ⟨0x094068, 0, 1, 0x0, 1, 0, 64, .ro, 0⟩
/-- R463. -/
def FAB_AUTH_DROP_COUNT : Fld := ⟨0x094070, 0, 1, 0x0, 1, 0, 64, .ro, 0⟩
/-- R463. -/
def FAB_BAD_DROP_COUNT : Fld := ⟨0x094078, 0, 1, 0x0, 1, 0, 64, .ro, 0⟩
/-- R463. -/
def FAB_RECYCLES_COUNT : Fld := ⟨0x094080, 0, 1, 0x0, 1, 0, 64, .ro, 0⟩
/-- R463. -/
def FAB_MCAST_FWD_COUNT : Fld := ⟨0x094088, 0, 1, 0x0, 1, 0, 64, .ro, 0⟩
/-- R463. -/
def FAB_STATUS_PORT_DOWN : Fld := ⟨0x094090, 0, 1, 0x0, 1, 0, 1, .w1c, 0⟩
/-- R463. -/
def FAB_STATUS_RETX_LIMIT : Fld := ⟨0x094090, 0, 1, 0x0, 1, 1, 1, .w1c, 0⟩
/-- R463. -/
def FAB_STATUS_AUTH : Fld := ⟨0x094090, 0, 1, 0x0, 1, 2, 1, .w1c, 0⟩
/-- R463. -/
def FAB_STATUS_CTX_WAIT : Fld := ⟨0x094090, 0, 1, 0x0, 1, 3, 1, .w1c, 0⟩
/-- R463. -/
def FAB_STATUS_MISMATCH : Fld := ⟨0x094090, 0, 1, 0x0, 1, 4, 1, .w1c, 0⟩
/-- R463. -/
def FAB_STATUS_NVME : Fld := ⟨0x094090, 0, 1, 0x0, 1, 5, 1, .w1c, 0⟩
/-- R463. -/
def FAB_MDELAY_DELAY : Fld := ⟨0x094100, 8, 16, 0x0, 1, 0, 32, .ro, 0⟩
/-- R463. -/
def FAB_IP_LO : Fld := ⟨0x094180, 0, 1, 0x0, 1, 0, 64, .rw, 0⟩
/-- R463. -/
def FAB_IP_HI_HI : Fld := ⟨0x094188, 0, 1, 0x0, 1, 0, 64, .rw, 0⟩
/-- R463. -/
def FAB_IP_CFG_PREFIX : Fld := ⟨0x094190, 0, 1, 0x0, 1, 0, 8, .rw, 64⟩
/-- R463. -/
def FAB_IP_CFG_EN : Fld := ⟨0x094190, 0, 1, 0x0, 1, 8, 1, .rw, 0⟩
/-- R501. -/
def FLT_STATUS_CORE_FENCE : Fld := ⟨0x030000, 0, 1, 0x0, 1, 0, 1, .w1c, 0⟩
/-- R501. -/
def FLT_STATUS_DEV_FENCE : Fld := ⟨0x030000, 0, 1, 0x0, 1, 1, 1, .w1c, 0⟩
/-- R501. -/
def FLT_STATUS_SELF : Fld := ⟨0x030000, 0, 1, 0x0, 1, 2, 1, .w1c, 0⟩
/-- R501. -/
def FLT_STATUS_EXPOSED : Fld := ⟨0x030000, 0, 1, 0x0, 1, 3, 1, .ro, 0⟩
/-- R501. -/
def FLT_STATUS_DOUBLE_EXPOSURE : Fld := ⟨0x030000, 0, 1, 0x0, 1, 4, 1, .w1c, 0⟩
/-- R501. -/
def FLT_STATUS_GUARD : Fld := ⟨0x030000, 0, 1, 0x0, 1, 5, 1, .ro, 0⟩
/-- R501. -/
def FLT_STATUS_PAIR_FORCED : Fld := ⟨0x030000, 0, 1, 0x0, 1, 6, 1, .ro, 0⟩
/-- R501. -/
def FLT_STATUS_FENCE_LATE : Fld := ⟨0x030000, 0, 1, 0x0, 1, 7, 1, .w1c, 0⟩
/-- R501. -/
def FLT_FENCED_LO_CORES : Fld := ⟨0x030008, 0, 1, 0x0, 1, 0, 64, .ro, 0⟩
/-- R501. -/
def FLT_FENCED_HI_CORES : Fld := ⟨0x030010, 0, 1, 0x0, 1, 0, 32, .ro, 0⟩
/-- R501. -/
def FLT_CFG_REPEAT : Fld := ⟨0x030018, 0, 1, 0x0, 1, 0, 16, .rw, 1000⟩
/-- R501. -/
def FLT_CFG_HANG : Fld := ⟨0x030018, 0, 1, 0x0, 1, 16, 8, .rw, 16⟩
/-- R501. -/
def FLT_FAILED_NODE0 : Fld := ⟨0x030020, 0, 1, 0x0, 1, 0, 15, .ro, 0⟩
/-- R501. -/
def FLT_FAILED_V0 : Fld := ⟨0x030020, 0, 1, 0x0, 1, 15, 1, .ro, 0⟩
/-- R501. -/
def FLT_FAILED_NODE1 : Fld := ⟨0x030020, 0, 1, 0x0, 1, 16, 15, .ro, 0⟩
/-- R501. -/
def FLT_FAILED_V1 : Fld := ⟨0x030020, 0, 1, 0x0, 1, 31, 1, .ro, 0⟩
/-- R501. -/
def FLT_FAILED_ROLE0 : Fld := ⟨0x030020, 0, 1, 0x0, 1, 32, 3, .ro, 0⟩
/-- R501. -/
def FLT_FAILED_ROLE1 : Fld := ⟨0x030020, 0, 1, 0x0, 1, 35, 3, .ro, 0⟩
/-- R501. -/
def FLT_WATCHED_NODES : Fld := ⟨0x030028, 0, 1, 0x0, 1, 0, 60, .ro, 0⟩
/-- R501. -/
def FLT_WATCHERS_NODES : Fld := ⟨0x030030, 0, 1, 0x0, 1, 0, 60, .ro, 0⟩
/-- R501. -/
def FLT_HOLDER_PRIMARY : Fld := ⟨0x030038, 0, 1, 0x0, 1, 0, 16, .ro, 0⟩
/-- R501. -/
def FLT_HOLDER_TAKE0 : Fld := ⟨0x030038, 0, 1, 0x0, 1, 16, 16, .ro, 0⟩
/-- R501. -/
def FLT_HOLDER_TAKE1 : Fld := ⟨0x030038, 0, 1, 0x0, 1, 32, 16, .ro, 0⟩
/-- R501. -/
def FLT_HELD_OWNERS : Fld := ⟨0x030040, 0, 1, 0x0, 1, 0, 64, .ro, 0⟩
/-- R501. -/
def FLT_EXPOSE_SETS : Fld := ⟨0x030048, 0, 1, 0x0, 1, 0, 8, .ro, 0⟩
/-- R501. -/
def FLT_EXPOSE_SINCE : Fld := ⟨0x030048, 0, 1, 0x0, 1, 16, 48, .ro, 0⟩
/-- R501. -/
def FLT_REFILL_MIB : Fld := ⟨0x030050, 0, 1, 0x0, 1, 0, 16, .rw, 4096⟩
/-- R501. -/
def FLT_REFILL_NEXT : Fld := ⟨0x030050, 0, 1, 0x0, 1, 16, 10, .ro, 0⟩
/-- R501. -/
def FLT_FEED_STRAP : Fld := ⟨0x030058, 0, 1, 0x0, 1, 0, 4, .ro, 0⟩
/-- R501. -/
def FLT_FEED_OVR : Fld := ⟨0x030058, 0, 1, 0x0, 1, 4, 4, .rw, 0⟩
/-- R501. -/
def FLT_FEED_OVR_EN : Fld := ⟨0x030058, 0, 1, 0x0, 1, 8, 1, .rw, 0⟩
/-- R501. -/
def FLT_FEED_FORCE : Fld := ⟨0x030058, 0, 1, 0x0, 1, 9, 1, .rw, 0⟩
/-- R501. -/
def FLT_REMOVE_STATE : Fld := ⟨0x030060, 0, 1, 0x0, 1, 0, 2, .ro, 0⟩
/-- R501. -/
def FLT_REMOVE_REQ : Fld := ⟨0x030060, 0, 1, 0x0, 1, 2, 1, .wo, 0⟩
/-- R501. -/
def FLT_REMOVE_CANCEL : Fld := ⟨0x030060, 0, 1, 0x0, 1, 3, 1, .wo, 0⟩
/-- R501. -/
def FLT_SAMPLE_INDEX : Fld := ⟨0x030068, 0, 1, 0x0, 1, 0, 6, .ro, 0⟩
/-- R501. -/
def FLT_ECC_CORR_COUNT : Fld := ⟨0x030080, 0, 1, 0x0, 1, 0, 64, .ro, 0⟩
/-- R501. -/
def FLT_ECC_UNC_COUNT : Fld := ⟨0x030088, 0, 1, 0x0, 1, 0, 64, .ro, 0⟩
/-- R501. -/
def FLT_RELIEF_OK_COUNT : Fld := ⟨0x030090, 0, 1, 0x0, 1, 0, 64, .ro, 0⟩
/-- R501. -/
def FLT_RELIEF_NO_COUNT : Fld := ⟨0x030098, 0, 1, 0x0, 1, 0, 64, .ro, 0⟩
/-- R501. -/
def FLT_RESIDUE_COUNT : Fld := ⟨0x0300A0, 0, 1, 0x0, 1, 0, 64, .ro, 0⟩
/-- R501. -/
def FLT_SHADOW_COUNT : Fld := ⟨0x0300A8, 0, 1, 0x0, 1, 0, 64, .ro, 0⟩
/-- R501. -/
def FLT_RETIRED_COUNT : Fld := ⟨0x0300B0, 0, 1, 0x0, 1, 0, 64, .ro, 0⟩
/-- R501. -/
def FLT_GUARDS_COUNT : Fld := ⟨0x0300B8, 0, 1, 0x0, 1, 0, 64, .ro, 0⟩
/-- R501. -/
def FLT_REFILL_BYTES_COUNT : Fld := ⟨0x0300C0, 0, 1, 0x0, 1, 0, 64, .ro, 0⟩
/-- R523. -/
def DBG_CTRL_CTX : Fld := ⟨0x400000, 0, 1, 0x0, 1, 0, 4, .rw, 0⟩
/-- R523. -/
def DBG_CTRL_SPACE : Fld := ⟨0x400000, 0, 1, 0x0, 1, 4, 2, .rw, 0⟩
/-- R523. -/
def DBG_CTRL_UNIT : Fld := ⟨0x400000, 0, 1, 0x0, 1, 8, 7, .rw, 0⟩
/-- R523. -/
def DBG_CTRL_HALT : Fld := ⟨0x400000, 0, 1, 0x0, 1, 16, 1, .wo, 0⟩
/-- R523. -/
def DBG_CTRL_RESUME : Fld := ⟨0x400000, 0, 1, 0x0, 1, 17, 1, .wo, 0⟩
/-- R523. -/
def DBG_STATUS_HALTED : Fld := ⟨0x400008, 0, 1, 0x0, 1, 0, 1, .ro, 0⟩
/-- R523. -/
def DBG_STATUS_BUSY : Fld := ⟨0x400008, 0, 1, 0x0, 1, 1, 1, .ro, 0⟩
/-- R523. -/
def DBG_STATUS_ERR : Fld := ⟨0x400008, 0, 1, 0x0, 1, 2, 1, .w1c, 0⟩
/-- R523. -/
def DBG_STATUS_HALT_PEND : Fld := ⟨0x400008, 0, 1, 0x0, 1, 3, 1, .ro, 0⟩
/-- R523. -/
def DBG_ADDR_ADDR : Fld := ⟨0x400010, 0, 1, 0x0, 1, 0, 48, .rw, 0⟩
/-- R523. -/
def DBG_DATA_DATA : Fld := ⟨0x400018, 0, 1, 0x0, 1, 0, 64, .rw, 0⟩
/-- R524. -/
def SEC_CTX_RUN : Fld := ⟨0x040000, 0, 1, 0x0, 1, 0, 4, .ro, 0⟩
/-- R524. -/
def SEC_CTX_RUN_VALID : Fld := ⟨0x040000, 0, 1, 0x0, 1, 4, 1, .ro, 0⟩
/-- R524. -/
def SEC_CTX_SWITCHING : Fld := ⟨0x040000, 0, 1, 0x0, 1, 5, 1, .ro, 0⟩
/-- R524. -/
def SEC_CTX_STATE_STATE : Fld := ⟨0x040008, 0, 1, 0x0, 1, 0, 32, .ro, 0⟩
/-- R524. -/
def SEC_SWITCH_TARGET : Fld := ⟨0x040010, 0, 1, 0x0, 1, 0, 4, .ro, 0⟩
/-- R524. -/
def SEC_SWITCH_VALID : Fld := ⟨0x040010, 0, 1, 0x0, 1, 4, 1, .ro, 0⟩
/-- R524. -/
def SEC_SWITCH_BEAT : Fld := ⟨0x040010, 0, 1, 0x0, 1, 16, 48, .ro, 0⟩
/-- R524. -/
def SEC_RESIDENT_SINCE : Fld := ⟨0x040018, 0, 1, 0x0, 1, 0, 48, .ro, 0⟩
/-- R524. -/
def SEC_SESSIONS_OPEN : Fld := ⟨0x040020, 0, 1, 0x0, 1, 0, 15, .ro, 0⟩
/-- R524. -/
def SEC_REKEYS_COUNT : Fld := ⟨0x040028, 0, 1, 0x0, 1, 0, 64, .ro, 0⟩
/-- R524. -/
def SEC_SCRUB_PENDING : Fld := ⟨0x040030, 0, 1, 0x0, 1, 0, 24, .ro, 0⟩
/-- R524. -/
def SEC_SCRUBBED_COUNT : Fld := ⟨0x040038, 0, 1, 0x0, 1, 0, 64, .ro, 0⟩
/-- R524. -/
def SEC_DEBUG_BITS : Fld := ⟨0x040040, 8, 16, 0x0, 1, 0, 64, .ro, 0⟩
/-- R524. -/
def SEC_STATUS_DEFER : Fld := ⟨0x0400C0, 0, 1, 0x0, 1, 0, 1, .w1c, 0⟩
/-- R524. -/
def SEC_STATUS_REFUSED : Fld := ⟨0x0400C0, 0, 1, 0x0, 1, 1, 1, .w1c, 0⟩
/-- R524. -/
def SEC_STATUS_SESSION : Fld := ⟨0x0400C0, 0, 1, 0x0, 1, 2, 1, .w1c, 0⟩
/-- R524. -/
def SEC_STATUS_IMPORT : Fld := ⟨0x0400C0, 0, 1, 0x0, 1, 3, 1, .w1c, 0⟩
/-- R524. -/
def SEC_STATUS_DEBUG : Fld := ⟨0x0400C0, 0, 1, 0x0, 1, 4, 1, .w1c, 0⟩
/-- R524. -/
def SEC_STATUS_UNSEAL : Fld := ⟨0x0400C0, 0, 1, 0x0, 1, 5, 1, .w1c, 0⟩
/-- R543. -/
def SVC_ID_PART : Fld := ⟨0x000000, 0, 1, 0x0, 1, 0, 16, .ro, 38400⟩
/-- R543. -/
def SVC_ID_REV : Fld := ⟨0x000000, 0, 1, 0x0, 1, 16, 8, .ro, 0⟩
/-- R543. -/
def SVC_ID_TWIN : Fld := ⟨0x000000, 0, 1, 0x0, 1, 24, 1, .ro, 0⟩
/-- R543. -/
def SVC_STATE_STATE : Fld := ⟨0x000008, 0, 1, 0x0, 1, 0, 4, .ro, 0⟩
/-- R543. -/
def SVC_BIST_HUB : Fld := ⟨0x000010, 0, 1, 0x0, 1, 0, 4, .ro, 0⟩
/-- R543. -/
def SVC_BIST_FABRIC : Fld := ⟨0x000010, 0, 1, 0x0, 1, 4, 1, .ro, 0⟩
/-- R543. -/
def SVC_BIST_GROUP : Fld := ⟨0x000010, 0, 1, 0x0, 1, 16, 12, .ro, 0⟩
/-- R543. -/
def SVC_BIST_CORES : Fld := ⟨0x000010, 0, 1, 0x0, 1, 32, 7, .ro, 0⟩
/-- R543. -/
def SVC_BIST_MS : Fld := ⟨0x000010, 0, 1, 0x0, 1, 48, 16, .ro, 0⟩
/-- R543. -/
def SVC_EVT_COUNT_COUNT : Fld := ⟨0x000018, 0, 1, 0x0, 1, 0, 64, .ro, 0⟩
/-- R543. -/
def SVC_EVT_LOST_COUNT : Fld := ⟨0x000020, 0, 1, 0x0, 1, 0, 64, .ro, 0⟩
/-- R543. -/
def SVC_MBOX_CMD_CODE : Fld := ⟨0x000100, 0, 1, 0x0, 1, 0, 8, .rw, 0⟩
/-- R543. -/
def SVC_MBOX_CMD_TAG : Fld := ⟨0x000100, 0, 1, 0x0, 1, 8, 8, .rw, 0⟩
/-- R543. -/
def SVC_MBOX_CMD_GO : Fld := ⟨0x000100, 0, 1, 0x0, 1, 63, 1, .wo, 0⟩
/-- R543. -/
def SVC_MBOX_STATUS_STATE : Fld := ⟨0x000108, 0, 1, 0x0, 1, 0, 2, .ro, 0⟩
/-- R543. -/
def SVC_MBOX_STATUS_TAG : Fld := ⟨0x000108, 0, 1, 0x0, 1, 8, 8, .ro, 0⟩
/-- R543. -/
def SVC_MBOX_STATUS_RESULT : Fld := ⟨0x000108, 0, 1, 0x0, 1, 16, 16, .ro, 0⟩
/-- R543. -/
def SVC_MBOX_STATUS_LEN : Fld := ⟨0x000108, 0, 1, 0x0, 1, 32, 13, .ro, 0⟩
/-- R543. -/
def SVC_MBOX_ARG_ARG : Fld := ⟨0x000200, 8, 32, 0x0, 1, 0, 64, .rw, 0⟩
/-- R543. -/
def SVC_MBOX_RESP_RESP : Fld := ⟨0x001000, 8, 512, 0x0, 1, 0, 64, .ro, 0⟩
/-- R564. -/
def PWR_MODE_CUR : Fld := ⟨0x020000, 0, 1, 0x0, 1, 0, 2, .ro, 0⟩
/-- R564. -/
def PWR_MODE_REQ : Fld := ⟨0x020000, 0, 1, 0x0, 1, 4, 2, .rw, 0⟩
/-- R564. -/
def PWR_CAP_WATTS : Fld := ⟨0x020008, 0, 1, 0x0, 1, 0, 11, .rw, 1500⟩
/-- R564. -/
def PWR_INPUT_MAIN : Fld := ⟨0x020010, 0, 1, 0x0, 1, 0, 16, .ro, 0⟩
/-- R564. -/
def PWR_INPUT_STBY : Fld := ⟨0x020010, 0, 1, 0x0, 1, 16, 16, .ro, 0⟩
/-- R564. -/
def PWR_POWER_WATTS : Fld := ⟨0x020018, 0, 1, 0x0, 1, 0, 16, .ro, 0⟩
/-- R564. -/
def PWR_POWER_PEAK : Fld := ⟨0x020018, 0, 1, 0x0, 1, 16, 16, .ro, 0⟩
/-- R564. -/
def PWR_LIMIT_BEATS_COUNT : Fld := ⟨0x020020, 0, 1, 0x0, 1, 0, 64, .ro, 0⟩
/-- R564. -/
def PWR_MODULE_LATCH : Fld := ⟨0x020028, 0, 1, 0x0, 1, 0, 1, .ro, 0⟩
/-- R564. -/
def PWR_MODULE_ATTN : Fld := ⟨0x020028, 0, 1, 0x0, 1, 1, 1, .ro, 0⟩
/-- R564. -/
def PWR_MODULE_SEAT : Fld := ⟨0x020028, 0, 1, 0x0, 1, 2, 1, .ro, 0⟩
/-- R564. -/
def PWR_MODULE_LOCATE : Fld := ⟨0x020028, 0, 1, 0x0, 1, 8, 1, .rw, 0⟩
/-- R564. -/
def PWR_MODULE_FAULT : Fld := ⟨0x020028, 0, 1, 0x0, 1, 9, 2, .ro, 0⟩
/-- R564. -/
def PWR_MODULE_OK2RM : Fld := ⟨0x020028, 0, 1, 0x0, 1, 11, 2, .ro, 0⟩
/-- R564. -/
def PWR_THERM_TJ : Fld := ⟨0x020030, 0, 1, 0x0, 1, 0, 8, .ro, 0⟩
/-- R564. -/
def PWR_THERM_PEAK : Fld := ⟨0x020030, 0, 1, 0x0, 1, 8, 8, .ro, 0⟩
/-- R564. -/
def PWR_ALERT_SEEN : Fld := ⟨0x020038, 0, 1, 0x0, 1, 0, 64, .rw, 0⟩
/-- R564. -/
def PWR_STATUS_OVER : Fld := ⟨0x020040, 0, 1, 0x0, 1, 0, 1, .w1c, 0⟩
/-- R564. -/
def PWR_STATUS_LIMIT : Fld := ⟨0x020040, 0, 1, 0x0, 1, 1, 1, .w1c, 0⟩
/-- R564. -/
def PWR_STATUS_LATCH_OPEN : Fld := ⟨0x020040, 0, 1, 0x0, 1, 2, 1, .w1c, 0⟩
/-- R564. -/
def PWR_STATUS_HOT : Fld := ⟨0x020040, 0, 1, 0x0, 1, 3, 1, .w1c, 0⟩
/-- R430. -/
def UE_REG_RATE : Fld := ⟨0x050400, 0, 1, 0x1000, 12, 0, 16, .rw, 65535⟩
/-- R430. -/
def UE_REG_BURST : Fld := ⟨0x050400, 0, 1, 0x1000, 12, 16, 16, .rw, 64⟩
/-- R431. -/
def PMC_STALL_COUNT : Fld := ⟨0x300000, 8, 10, 0x80, 24, 0, 64, .ro, 0⟩

/-- The fields of block SVC_ (R13). -/
def svcBlock : List Fld :=
  [SVC_ID_PART, SVC_ID_REV, SVC_ID_TWIN, SVC_STATE_STATE, SVC_BIST_HUB, SVC_BIST_FABRIC,
    SVC_BIST_GROUP, SVC_BIST_CORES, SVC_BIST_MS, SVC_EVT_COUNT_COUNT, SVC_EVT_LOST_COUNT,
    SVC_MBOX_CMD_CODE, SVC_MBOX_CMD_TAG, SVC_MBOX_CMD_GO, SVC_MBOX_STATUS_STATE,
    SVC_MBOX_STATUS_TAG, SVC_MBOX_STATUS_RESULT, SVC_MBOX_STATUS_LEN, SVC_MBOX_ARG_ARG,
    SVC_MBOX_RESP_RESP]
/-- The fields of block BT_ (R13). -/
def btBlock : List Fld :=
  [BT_CTRL_STATE, BT_CTRL_OVR_FAULT, BT_CTRL_IS_REF, BT_PERIOD_SEL, BT_PERIOD_CYCLES,
    BT_PERIOD_GUARD, BT_COUNT_COUNT, BT_OFFSET_OFFSET, BT_OFFSET_PEAK, BT_REF_NODE, BT_REF_VALID,
    BT_REF_HOPS, BT_STRETCH_GRANTED, BT_STRETCH_RAISED, BT_STRETCH_CFG_LIMIT, BT_STATUS_OVERRUN,
    BT_STATUS_STRETCH_LATE, BT_STATUS_OFFSET_HIGH, BT_STATUS_MARKER_MISS, BT_MARKER_RX_PORT]
  ++ [BT_MARKER_RX_TWIN, BT_SLACK_MIN, BT_SLACK_CORE, BT_PEER_NODE, BT_PEER_VALID, BT_PEER_WATCHER,
    BT_PEER_WATCHED, BT_PEER_HOPS, BT_PEER_TWIN_NODE, BT_PEER_TWIN_VALID]
/-- The fields of block PWR_ (R13). -/
def pwrBlock : List Fld :=
  [PWR_MODE_CUR, PWR_MODE_REQ, PWR_CAP_WATTS, PWR_INPUT_MAIN, PWR_INPUT_STBY, PWR_POWER_WATTS,
    PWR_POWER_PEAK, PWR_LIMIT_BEATS_COUNT, PWR_MODULE_LATCH, PWR_MODULE_ATTN, PWR_MODULE_SEAT,
    PWR_MODULE_LOCATE, PWR_MODULE_FAULT, PWR_MODULE_OK2RM, PWR_THERM_TJ, PWR_THERM_PEAK,
    PWR_ALERT_SEEN, PWR_STATUS_OVER, PWR_STATUS_LIMIT, PWR_STATUS_LATCH_OPEN]
  ++ [PWR_STATUS_HOT]
/-- The fields of block FLT_ (R13). -/
def fltBlock : List Fld :=
  [FLT_STATUS_CORE_FENCE, FLT_STATUS_DEV_FENCE, FLT_STATUS_SELF, FLT_STATUS_EXPOSED,
    FLT_STATUS_DOUBLE_EXPOSURE, FLT_STATUS_GUARD, FLT_STATUS_PAIR_FORCED, FLT_STATUS_FENCE_LATE,
    FLT_FENCED_LO_CORES, FLT_FENCED_HI_CORES, FLT_CFG_REPEAT, FLT_CFG_HANG, FLT_FAILED_NODE0,
    FLT_FAILED_V0, FLT_FAILED_NODE1, FLT_FAILED_V1, FLT_FAILED_ROLE0, FLT_FAILED_ROLE1,
    FLT_WATCHED_NODES, FLT_WATCHERS_NODES]
  ++ [FLT_HOLDER_PRIMARY, FLT_HOLDER_TAKE0, FLT_HOLDER_TAKE1, FLT_HELD_OWNERS, FLT_EXPOSE_SETS,
    FLT_EXPOSE_SINCE, FLT_REFILL_MIB, FLT_REFILL_NEXT, FLT_FEED_STRAP, FLT_FEED_OVR,
    FLT_FEED_OVR_EN, FLT_FEED_FORCE, FLT_REMOVE_STATE, FLT_REMOVE_REQ, FLT_REMOVE_CANCEL,
    FLT_SAMPLE_INDEX, FLT_ECC_CORR_COUNT, FLT_ECC_UNC_COUNT, FLT_RELIEF_OK_COUNT,
    FLT_RELIEF_NO_COUNT]
  ++ [FLT_RESIDUE_COUNT, FLT_SHADOW_COUNT, FLT_RETIRED_COUNT, FLT_GUARDS_COUNT,
    FLT_REFILL_BYTES_COUNT]
/-- The fields of block SEC_ (R13). -/
def secBlock : List Fld :=
  [SEC_CTX_RUN, SEC_CTX_RUN_VALID, SEC_CTX_SWITCHING, SEC_CTX_STATE_STATE, SEC_SWITCH_TARGET,
    SEC_SWITCH_VALID, SEC_SWITCH_BEAT, SEC_RESIDENT_SINCE, SEC_SESSIONS_OPEN, SEC_REKEYS_COUNT,
    SEC_SCRUB_PENDING, SEC_SCRUBBED_COUNT, SEC_DEBUG_BITS, SEC_STATUS_DEFER, SEC_STATUS_REFUSED,
    SEC_STATUS_SESSION, SEC_STATUS_IMPORT, SEC_STATUS_DEBUG, SEC_STATUS_UNSEAL]
/-- The fields of block UE_ (R13). -/
def ueBlock : List Fld :=
  [UE_STEP_STEP, UE_SEED_SEED, UE_GSCALE_EXP, UE_SCALE_CFG_GROWTH, UE_SILENT_CFG_LIMIT,
    UE_STATUS_STEPSKEW, UE_STATUS_JOB_ERROR, UE_STATUS_SATURATE, UE_STATUS_ESCALATE,
    UE_STATUS_STALE, UE_STATUS_LATE, UE_STATUS_SILENT, UE_STATUS_TEE_ABORT, UE_SILENT_TAB_COUNT,
    UE_QUEUE_JOBS, UE_QUEUE_GATED, UE_QUEUE_RUNNING, UE_QUEUE_PRECON, UE_JOBS_COUNT,
    UE_PARAMS_COUNT]
  ++ [UE_BYTES_COUNT, UE_TEE_BYTES_COUNT, UE_GATE_WAIT_COUNT, UE_SATURATE_CNT_COUNT,
    UE_PRECON_RUNS_COUNT, UE_PRECON_ESC_COUNT, UE_PRECON_STALE_CNT_COUNT, UE_PRECON_LATE_COUNT,
    UE_GS_CFG_INIT, UE_GS_CFG_MIN, UE_GS_CFG_MAX, UE_GS_ADDR_ADDR, UE_GS_ADDR_EN, UE_DSTEP_DSTEP,
    UE_VERDICT_LOCAL, UE_VERDICT_CUT, UE_VERDICT_REDUCED, UE_VERDICT_VALUE, UE_LAST_VERDICT,
    UE_LAST_ACTION]
  ++ [UE_LAST_STEP, UE_CLEAN_RUN_COUNT, UE_REPLAY_CFG_LIMIT, UE_SKIPS_COUNT, UE_REPLAYS_COUNT,
    UE_REPLAY_RUN_COUNT, UE_GP_GATHERS_COUNT, UE_GP_REUSE_COUNT, UE_GP_EVICT_COUNT,
    UE_GP_FRAMES_FREE, UE_GP_FRAMES_TOTAL, UE_VERSKEW_CNT_COUNT, UE_INGEST_BYTES_COUNT,
    UE_STEP_STATUS_VERSKEW, UE_STEP_STATUS_GS_FLOOR, UE_STEP_STATUS_NOSPACE, UE_STEP_STATUS_INGEST,
    UE_STEP_STATUS_REPLAY_LIMIT, UE_STEP_STATUS_EARLY, UE_REG_RATE]
  ++ [UE_REG_BURST]
/-- The fields of block RT_ (R13). -/
def rtBlock : List Fld :=
  [RT_TOKENS_COUNT, RT_CLAIMS_COUNT, RT_ACCEPT_FIRST_COUNT, RT_ACCEPT_NEXT_COUNT,
    RT_DROPPED_COUNT, RT_ROUNDS_COUNT, RT_ROWS_OUT_COUNT, RT_ROWS_IN_COUNT, RT_INFLIGHT_COUNT,
    RT_STATUS_DROP, RT_STATUS_NAN_LOGIT, RT_STATUS_MISMATCH, RT_STATUS_FULL]
/-- The fields of block ATT_ (R13). -/
def attBlock : List Fld :=
  [ATT_EMPTYROWS_COUNT, ATT_FWD_BLOCKS_COUNT, ATT_BWD_BLOCKS_COUNT, ATT_SELECTIONS_COUNT,
    ATT_SEL_SCORED_COUNT, ATT_PAD_KEYS_COUNT, ATT_LENGTH_REFUSED_COUNT, ATT_STATUS_EMPTY,
    ATT_STATUS_LENGTH, ATT_STATUS_SEL_NAN, KVP_POOL_HBM_FREE, KVP_POOL_HBM_TOTAL, KVP_POOL_LP_FREE,
    KVP_POOL_LP_TOTAL, KVP_POOL_CFG_LOW, KVP_POOL_CFG_RATE, KVP_QUAR_FRAMES, KVP_COW_COUNT,
    KVP_AGED_COUNT, KVP_REMOTE_COUNT]
  ++ [KVP_RCACHE_HIT_COUNT, KVP_PAD_READS_COUNT, KVP_REMOTE_FAIL_COUNT, KVP_CMD_CONS_K,
    KVP_CIRC_COUNT, KVP_STATUS_POOL_WAIT, KVP_STATUS_REFSAT, KVP_STATUS_TABLE, KVP_STATUS_CMD,
    KVP_STATUS_QUAR_HOLD, KVP_STATUS_REMOTE_FAIL]
/-- The fields of block MT_ (R13). -/
def mtBlock : List Fld :=
  [MT_REG_RATE, MT_REG_BURST, MT_THERM_TEMP, MT_THERM_THRESH, MT_THERM_LEVEL, MT_THERM_PEAK,
    MT_THROTTLE_CYC_COUNT, MT_PF_DONE_COUNT, MT_PF_MISS_COUNT, MT_PF_DROP_COUNT, MT_PF_STALE_COUNT,
    MT_PF_REFETCH_COUNT, MT_WATCH_USED, MT_NARROW_COUNT, MT_TAGS_WIDE, MT_TAGS_NARROW,
    MT_STATUS_THROTTLE, MT_STATUS_MISS, MT_STATUS_DROP, MT_STATUS_STALE]
  ++ [MT_STATUS_POOL_LOW, MT_STATUS_FTL, MT_POOL_HBM_FREE, MT_POOL_HBM_TOTAL, MT_POOL_LP_FREE,
    MT_POOL_LP_TOTAL, MT_POOL_CFG_HBM_LOW, MT_POOL_CFG_HBM_HIGH, MT_POOL_CFG_LP_LOW,
    MT_POOL_CFG_RATE, MT_POOL_MOVED_COUNT, MT_POOL_RETURNED_COUNT, MT_FTL_WEAR_PCT,
    MT_FTL_WEAR_READONLY, MT_FTL_SPARE_BLOCKS, MT_FTL_RETIRED_COUNT, MT_FTL_REFRESH_COUNT,
    MT_FTL_WRITTEN_COUNT]
/-- The fields of block FAB_ (R13). -/
def fabBlock : List Fld :=
  [FAB_PORT_CTRL_EN, FAB_PORT_CTRL_PHY, FAB_PORT_STATUS_LINK, FAB_PORT_STATUS_SPRAY,
    FAB_PORT_STATUS_PAUSED, FAB_PORT_STATUS_LOCK, FAB_PORT_MAC_MAC, FAB_PORT_TXBYTES_COUNT,
    FAB_PORT_RXBYTES_COUNT, FAB_PORT_FCSERR_COUNT, FAB_PORT_FECCORR_COUNT, FAB_PORT_FECUNC_COUNT,
    FAB_PORT_XOFF_TX_COUNT, FAB_PORT_PAUSED_COUNT, FAB_PORT_RXBUF_NOW, FAB_PORT_RXBUF_PEAK,
    FAB_NODE_NODE, FAB_NODE_VALID, FAB_CFG_PCP_CTL, FAB_CFG_PCP_DATA]
  ++ [FAB_CFG_PCP_STORE, FAB_CFG_FANOUT, FAB_CFG_RTO, FAB_CFG_RETX_MAX, FAB_MGMT_NODE, FAB_MGMT_EN,
    FAB_SHARE_CAP, FAB_SHARE_WEIGHT, FAB_CTX_USED, FAB_CTX_PEAK, FAB_UNACKED_COUNT, FAB_RETX_COUNT,
    FAB_DISCARD_COUNT, FAB_DUP_DROP_COUNT, FAB_AUTH_DROP_COUNT, FAB_BAD_DROP_COUNT,
    FAB_RECYCLES_COUNT, FAB_MCAST_FWD_COUNT, FAB_STATUS_PORT_DOWN, FAB_STATUS_RETX_LIMIT]
  ++ [FAB_STATUS_AUTH, FAB_STATUS_CTX_WAIT, FAB_STATUS_MISMATCH, FAB_STATUS_NVME, FAB_MDELAY_DELAY,
    FAB_IP_LO, FAB_IP_HI_HI, FAB_IP_CFG_PREFIX, FAB_IP_CFG_EN]
/-- The fields of block SO_ (R13). -/
def soBlock : List Fld :=
  [SO_COUNT_COUNT, SO_COUNT_THRESH, SO_HOLDER_NODE, SO_HOLDER_VALID, SO_HOLDER_CORE,
    SO_HOLDER_STATUS, SO_HOLDER_CTX]
/-- The fields of block GRP_ (R13). -/
def grpBlock : List Fld :=
  [GRP_STATE_FENCED, GRP_STATE_WHOLE, GRP_STATE_OVL, GRP_STATE_OVL_MODE, GRP_ARB0_COUNT,
    GRP_ARB1_COUNT, GRP_ARB2_COUNT, GRP_ARB_AGED_COUNT, GRP_PORT_RD_COUNT, GRP_PORT_WR_COUNT,
    GRP_XLAT_MISS_COUNT, GRP_SEL_BUSY_COUNT, GRP_RT_BUSY_COUNT, GRP_STORE_ECC_COUNT,
    GRP_RELIEF_COUNT]
/-- The fields of block CORE_ (R13). -/
def coreBlock : List Fld :=
  [CORE_STRAND_PC, CORE_STRAND_STATE, CORE_STRAND_ENABLED, CORE_STRAND_SEG, CORE_ARR_STATE_OWNER,
    CORE_ARR_STATE_STAT_VALID, CORE_ARR_STATE_STAT_FMT, CORE_ARR_STATE_STAT_SPARSE,
    CORE_ARR_STATE_QUEUE, CORE_ARR_CHKLOG_VALID, CORE_ARR_CHKLOG_STRAND, CORE_ARR_CHKLOG_ROW,
    CORE_ARR_CHKLOG_ROW_VALID, CORE_ARR_CHKLOG_COL, CORE_ARR_CHKLOG_COL_VALID,
    CORE_ARR_CHKLOG_INDEX, CORE_ARR_STREAM_COUNT, CORE_ARR_LOAD_COUNT, CORE_ARR_ROWS_COUNT,
    CORE_ARR_ZTSKIP_COUNT]
  ++ [CORE_ARR_ZBGATE_COUNT, CORE_ARR_CHECKS_COUNT, CORE_ARR_CHKFAIL_COUNT, CORE_NUM_FLAGS_NONFIN,
    CORE_NUM_FLAGS_SAT, CORE_NUM_FLAGS_REPLAY, CORE_NUM_FLAGS_STEP_FLAG, CORE_NUM_REPLAYS_COUNT,
    CORE_NUM_EXHAUST_COUNT, CORE_NUM_NONFIN_COUNT, CORE_SCALE_CUR, CORE_SCALE_CUR_VALID,
    CORE_SCALE_PREV, CORE_SCALE_PREV_VALID, CORE_SCALE_TSX, CORE_VEC_BUSY_COUNT,
    CORE_VEC_VECTORS_COUNT, CORE_VEC_FUNC_COUNT, CORE_VEC_SCAN_COUNT, CORE_VEC_NONFIN_COUNT]
  ++ [CORE_STALL_COUNT, CORE_REG_RATE, CORE_REG_BURST, CORE_TAGS_WIDE, CORE_TAGS_NARROW]
/-- The fields of block PMC_ (R13). -/
def pmcBlock : List Fld :=
  [PMC_STALL_COUNT]
/-- The fields of block DBG_ (R13). -/
def dbgBlock : List Fld :=
  [DBG_CTRL_CTX, DBG_CTRL_SPACE, DBG_CTRL_UNIT, DBG_CTRL_HALT, DBG_CTRL_RESUME, DBG_STATUS_HALTED,
    DBG_STATUS_BUSY, DBG_STATUS_ERR, DBG_STATUS_HALT_PEND, DBG_ADDR_ADDR, DBG_DATA_DATA]

/-- The fields of the block that offset `off` lies in (R13). -/
def block (off : Nat) : List Fld :=
  if off < 0x010000 then svcBlock else
  if off < 0x020000 then btBlock else
  if off < 0x030000 then pwrBlock else
  if off < 0x040000 then fltBlock else
  if off < 0x050000 then secBlock else
  if off < 0x060000 then ueBlock else
  if off < 0x070000 then rtBlock else
  if off < 0x080000 then attBlock else
  if off < 0x090000 then mtBlock else
  if off < 0x0A0000 then fabBlock else
  if off < 0x0C0000 then soBlock else
  if off < 0x200000 then grpBlock else
  if off < 0x300000 then coreBlock else
  if off < 0x400000 then pmcBlock else
  dbgBlock

/-- The fields whose reset value is not 0. -/
def nonzero : List Fld :=
  [BT_PERIOD_SEL, BT_PERIOD_CYCLES, BT_PERIOD_GUARD, BT_REF_HOPS, BT_STRETCH_CFG_LIMIT,
   BT_PEER_HOPS, SO_HOLDER_CORE, KVP_POOL_CFG_LOW, KVP_POOL_CFG_RATE, UE_SCALE_CFG_GROWTH,
   UE_SILENT_CFG_LIMIT, UE_GS_CFG_INIT, UE_GS_CFG_MAX, UE_REPLAY_CFG_LIMIT, CORE_REG_RATE,
   CORE_REG_BURST, MT_REG_RATE, MT_REG_BURST, MT_THERM_THRESH, MT_POOL_HBM_TOTAL, MT_POOL_LP_TOTAL,
   MT_POOL_CFG_HBM_LOW, MT_POOL_CFG_HBM_HIGH, MT_POOL_CFG_LP_LOW, MT_POOL_CFG_RATE,
   FAB_PORT_CTRL_EN, FAB_PORT_CTRL_PHY, FAB_CFG_PCP_CTL, FAB_CFG_PCP_DATA, FAB_CFG_PCP_STORE,
   FAB_CFG_FANOUT, FAB_CFG_RTO, FAB_CFG_RETX_MAX, FAB_SHARE_CAP, FAB_SHARE_WEIGHT,
   FAB_IP_CFG_PREFIX, FLT_CFG_REPEAT, FLT_CFG_HANG, FLT_REFILL_MIB, SVC_ID_PART, PWR_CAP_WATTS,
   UE_REG_RATE, UE_REG_BURST]

end Reg

/-- The word that a register reads after reset (R15, R16). -/
def resetWord (off : Nat) : W64 :=
  BitVec.ofNat 64
    ((Reg.nonzero.filter (fun f => f.isAt off)).foldl (fun a f => a + f.reset * 2 ^ f.lo) 0)

/-- The fields of the register at `off`; none for an offset that no chapter assigns (R16). -/
def fieldsAt (off : Nat) : List Fld := (Reg.block off).filter (fun f => f.isAt off)

end Sys2Proof.Machine
end

