-- ==== Sys2Proof/Machine/State.lean ====
section
/-!
DEFINITION. Machine/State.lean: the state of one OLT-9600 device as plain data, its reset value, and
the reasons a step can stop. Registers of the window (R12) live in `regs`; what the chapters describe
beside them has a typed home below. INVENTORY.md lists every piece with its rule.
-/

namespace Sys2Proof.Machine

/-- No step of the block faults: every command of the table answers a next state or a refusal. -/
inductive Fault where
deriving DecidableEq, Repr

/-- Why a command has no meaning. -/
inductive Refusal where
  /-- Raised by the dispatcher for a row that has no meaning yet. Safe: nothing is claimed of it. -/
  | notModelled (mnemonic : String)
  /-- Raised by a strand instruction whose operands the loader rejects (R89, R144): such an encoding
  cannot execute (R112, R120). Safe: the device never runs it. -/
  | rejectedAtLoad
deriving DecidableEq, Repr

/-! ### Strands, cores and groups -/

/-- `CORE_STRAND.STATE` (R114). -/
inductive StrandSt where
  | idle | run | parkNarrow | waitSo | waitFence | waitBeat | stopped
deriving DecidableEq, Repr

/-- An active hardware loop (R82, R122): its counter, the body [first, last), the loaded count. -/
structure LoopFrame where
  lc : Nat
  first : Nat
  last : Nat
  count : Nat
deriving DecidableEq, Repr

/-- A parked SOWAIT (R101). -/
structure SoWait where
  index : Nat
  thresh : Nat
  dstp : Nat
deriving DecidableEq, Repr

/-- A read that waits for narrow granules or remote pages (R75, R296): the instruction, the request
tags outstanding with the page each asks for, the page images it has, the local frames it has
resolved with the beat of each (R288), and the gather-pool frames it reads, by virtual frame (R369). -/
structure HeldRead where
  instr : Instr
  tags : List (Nat × Nat)
  got : List (Nat × List Byte)
  frames : List (Nat × Nat)
  pool : List (Nat × Nat)
deriving DecidableEq, Repr

/-- A KVAPP that waits for a free frame or for the end of a move (R280, R281). -/
structure KvWait where
  instr : Instr
  since : Nat
  moving : Bool
deriving DecidableEq, Repr

/-- One strand (R72, R114, R185). -/
structure Strand where
  sreg : Tab W64
  areg : Tab W64
  preds : BitVec 8
  lc : Tab W32
  loops : List LoopFrame
  pc : W32
  st : StrandSt
  enabled : Bool
  seg : BitVec 28
  soWait : Option SoWait
  fence : Option Scope
  held : Option HeldRead
  kvWait : Option KvWait
  cur : Option Int
  prev : Option Int
  lastTsx : Option Nat
  overrun : Bool
  overBeats : Nat
  beatReq : Bool
deriving DecidableEq, Repr

/-- The strand before any step entry (R72, R114, R209). -/
def Strand.reset : Strand :=
  { sreg := [], areg := [], preds := 1, lc := [], loops := [], pc := 0, st := .idle, enabled := false
    seg := 0, soWait := none, fence := none, held := none, kvWait := none, cur := none, prev := none
    lastTsx := none, overrun := false, overBeats := 0, beatReq := false }

/-- The stationary tile as MLOAD latched it (R146, R153, R158, R159), the unit ranges it came from,
and whether any of them has been written since (R468). -/
structure StatTile where
  owner : Nat
  fmt : Nat
  sparse : Nat
  bytes : List Byte
  scales : List Byte
  metaData : List Byte
  src : List (Nat × Nat)
  written : Bool
deriving DecidableEq, Repr

/-- Which product instruction (R133). -/
inductive ProdKind where
  | dense | sparse | multi
deriving DecidableEq, Repr

/-- A product between its issue and the arrival of its last row at the adder (R143, R147, R171):
its operands as the array took them, and the core whose array runs it (R470). Regions are in 512-byte units. -/
structure Product where
  array : Nat
  kind : ProdKind
  strand : Nat
  idx : Nat
  tsa : Nat
  tsc : Nat
  tsx : Nat
  rows : Nat
  fmtt : Nat
  accum : Bool
  hint : Option Int
  zt : Bool
  pass : Nat
  mw : Nat
  ta : Bool
  ts : Bool
  bitmap : W32
  anchor : Int
  tile : StatTile
  stream : List Byte
  streamScales : List Byte
deriving DecidableEq, Repr

/-- One core (R30, R75, R146, R197, R468, R470). `left` says that the strand `cur` has parked and no other was ready
then: the core still has to switch. `relief` holds the failed products that a relief partner
repeats, oldest first, each with the partner; the three failure marks hold UE_STEP at the last failure of their kind. -/
structure CoreSt where
  cur : Fin 4
  left : Bool
  tile : Tab Byte
  marks : Tab (Option Int)
  stat : Option StatTile
  prods : List Product
  relief : List (Nat × Product)
  failArray : Option Nat
  failResidue : Option Nat
  failSram : Option Nat
  fenceDecided : Option Nat
  nonfinSent : Bool
  emptySent : Bool
  missSent : Bool
  dropSent : Bool
  posted : Nat
deriving DecidableEq, Repr

/-- The core before any step entry. -/
def CoreSt.reset : CoreSt :=
  { cur := 0, left := false, tile := [], marks := [], stat := none, prods := [], relief := [], failArray := none
    failResidue := none, failSram := none, fenceDecided := none, nonfinSent := false
    emptySent := false, missSent := false, dropSent := false, posted := 0 }

/-- The phase of an update job (R322, R329, R348). -/
inductive JobPhase where
  | waiting | running | waitRoot
deriving DecidableEq, Repr

/-- A UPD job that the engine holds (R322, R324, R351). -/
structure UpdJob where
  id : Nat
  site : Site
  idx : Nat
  desc : Nat
  gate : Nat
  target : Nat
  done : Nat
  phase : JobPhase
  params : Nat
  late : Bool
deriving DecidableEq, Repr

/-- Where a root computation stands (R345). -/
inductive RootSt where
  | running | done | stale
deriving DecidableEq, Repr

/-- A PRECON job (R344 to R349) of a context; `dones` are the completion objects merged into it, `roots` the root plane of
the copied generation, `tsbase` the first tile-store unit it uses on its cores. -/
structure RootJob where
  id : Nat
  ctx : Nat
  site : Site
  idx : Nat
  dones : List Nat
  inverse : Bool
  state0 : Nat
  state1 : Nat
  scratch : Nat
  right : Bool
  cores : Nat
  tsbase : Nat
  roots : List Byte
  layer : Nat
  n : Nat
  issueStep : Nat
  adoptStep : Nat
  damp : W32
  attempt : Nat
  st : RootSt
deriving DecidableEq, Repr

/-- The fate of one choice of one token in a dispatch (R306 to R308). -/
inductive ClaimSt where
  | open_ | accepted (round slot : Nat) | dropped
deriving DecidableEq, Repr

/-- One choice of a token: the expert it now claims, the alternates tried, and its fate. -/
structure Claim where
  token : Nat
  choice : Nat
  expert : Nat
  st : ClaimSt
deriving DecidableEq, Repr

/-- The header of a DISP descriptor (R303). -/
structure DispHead where
  e : Nat
  k : Nat
  dir : Nat
  nrounds : Nat
  did : Nat
  pos : Nat
  m : Nat
  tokbase : Nat
  rowB : Nat
  src : Nat
  expbuf : Nat
  recv : Nat
  fills : Nat
  retbuf : Nat
  emap : Nat
  mtab : Nat
deriving DecidableEq, Repr

/-- A dispatch in flight on the device that issued its DISP (R303 to R311): the site and instruction, the
header, CAP, policy, NTOK, the unit of TSSEL, the list address, the completion object; the round, the
claims, the ranks tried, the grants of the round and the holders still to answer it; whether its rounds still run, so that
TSSEL is pending (R143, R308), and the holders whose increment came before this device's last send (R310). -/
structure Dispatch where
  site : Site
  idx : Nat
  head : DispHead
  cap : Nat
  next : Bool
  ntok : Nat
  sel : Nat
  list : Nat
  so : Nat
  round : Nat
  claims : List Claim
  tried : List (Nat × Nat)
  grants : List GrantFrame
  waitHolders : List Nat
  ranking : Bool
  early : List Nat
deriving DecidableEq, Repr

/-- The holder side of a dispatch (R306, R310): the first count frame, which the others must match, the
round, every count frame with the node that sent it, the slots used by local expert, whether its rounds
have ended, the bytes of rows landed, and whether its last row has landed once. -/
structure HolderDisp where
  first : CountFrame
  round : Nat
  frames : List (Nat × CountFrame)
  used : Tab Nat
  finished : Bool
  landed : Nat
  done : Bool
deriving DecidableEq, Repr

/-- The holder side of a REPLAY (R309, R310): CAP, ROWB, EXPBUF, FILLS and the completion object as its rows or this
device's own DISP name them; that DISP's header and positions; the bytes landed, and whether it has ended. -/
structure ReplayHold where
  did : Nat
  cap : Nat
  rowB : Nat
  expbuf : Nat
  fills : Nat
  so : Nat
  head : Option DispHead
  own : List Nat
  landed : Nat
  done : Bool
deriving DecidableEq, Repr

/-- One group (R31, R36, R94): its store, whether it is fenced as a whole, the overlay record in
force, and its engines' work. Its router unit holds the dispatches of its DISPs, and the holder sides of the DIDs that
are the group's number modulo 12 (R311). `shadow` lists the shadow mismatches that are not yet settled, each as 384 × segment +
strand, with the step entry of each (R472). -/
structure GroupSt where
  store : Tab Byte
  whole : Bool
  ovl : BitVec 8
  ovlMode : BitVec 2
  jobs : List UpdJob
  roots : List RootJob
  disps : List Dispatch
  holders : List HolderDisp
  replays : List ReplayHold
  dropSent : Bool
  nanSent : Bool
  satSent : Bool
  shadow : List (Nat × Nat)
  storeFail : Option Nat
deriving DecidableEq, Repr

/-- The group at reset. -/
def GroupSt.reset : GroupSt :=
  { store := [], whole := false, ovl := 0, ovlMode := 0, jobs := [], roots := [], disps := []
    holders := [], replays := [], dropSent := false, nanSent := false, satSent := false, shadow := [], storeFail := none }

/-! ### Sync objects, beat, events -/

/-- STATUS of a sync object (R99). -/
inductive SoStatus where
  | free | held | fencedRelease
deriving DecidableEq, Repr

/-- A sync object (R99). -/
structure SyncObj where
  count : W32
  thresh : W32
  node : BitVec 15
  valid : Bool
  core : BitVec 7
  status : SoStatus
  ctx : BitVec 4
deriving DecidableEq, Repr

/-- The sync object at reset (R99). -/
def SyncObj.reset : SyncObj :=
  { count := 0, thresh := 0, node := 0, valid := false, core := 0x7F, status := .free, ctx := 0 }

/-- `BT_CTRL.STATE` (R56, R70). -/
inductive BeatSt where
  | detached | acquire | locked | holdover
deriving DecidableEq, Repr

/-- A marker peer, port 0 to 15 or the twin bridge (R569, R70, R71, R475): whether an authenticated marker has
come in this beat (`heard`) with an advanced HEART (`alive`), in the last beat (`recent`) or ever on this port
(`answered`, R457), the beats before this one in which none has (`missRun`, `silent`), whether this device reported it
unreachable in this beat (R446), and the smallest path delay of each of the last 16 beats (R458). -/
structure Peer where
  node : BitVec 15
  watcher : Bool
  watched : Bool
  hops : BitVec 3
  heard : Bool
  alive : Bool
  silent : Nat
  missRun : Nat
  unreach : Bool
  missSent : Bool
  heart : BitVec 32
  recent : Bool
  answered : Bool
  delays : List (Option Nat)
deriving DecidableEq, Repr

/-- A stretch request or notice held for a beat (R64, R65): the lowest requester known, whether only an overrun of this
device under the supply guard asks for it (R63), and whether a lower requester was learned after the notice was
forwarded. -/
structure StretchNote where
  beat : Nat
  node : Nat
  exempt : Bool
  tell : Bool
deriving DecidableEq, Repr

/-- The beat unit (R56 to R71). `offBeat` and `offLast` are the largest |offset| of this beat and of the last one;
`assign` is the assignment of marker peers in force (R458, R569); `ownExempt` says that only overruns under the supply
guard made the request `ownReq` (R63). -/
structure BeatUnit where
  st : BeatSt
  sel : BitVec 2
  count : W64
  peers : Tab (Option Peer)
  lockRun : Nat
  acquireBeats : Nat
  offHighRun : Nat
  usable : Bool
  measured : Bool
  heardAny : Bool
  refNode : Option (BitVec 15)
  hops : BitVec 3
  stretches : List StretchNote
  stretched : Bool
  inGuard : Bool
  ownReq : Bool
  ownExempt : Bool
  runStretch : Nat
  slackMin : Option (Nat × Nat)
  heart : BitVec 32
  correction : Int
  offBeat : Nat
  offLast : Nat
  assign : Nat
deriving DecidableEq, Repr

/-- An event record (R18). -/
structure EvtRec where
  code : W16
  node : BitVec 15
  core : Byte
  ctx : Option (BitVec 4)
  beat : BitVec 48
  detail : W32
deriving DecidableEq, Repr

/-! ### Contexts and jobs -/

/-- HOME and TIER of a frame (R394). -/
inductive Tier where
  | hbm | lpddr | flash
deriving DecidableEq, Repr

/-- A mapped frame of a context (R394): the physical 2 MiB frame (a flash frame in tier FLASH), its
attributes, its AGE (R420), and the destination of a move in progress (R423). -/
structure Mapping where
  frame : Nat
  home : Tier
  tier : Tier
  pin : Bool
  coded : Bool
  ro : Bool
  age : Nat
  moving : Option (Tier × Nat)
deriving DecidableEq, Repr

/-- A view pair (R397): C, G0, G1 as frame numbers of the context, and the frames of each. -/
structure ViewPair where
  c : Nat
  g0 : Nat
  g1 : Nat
  n : Nat
deriving DecidableEq, Repr

/-- A mapping change that waits for its boundary (R395, R507). -/
inductive MapChange where
  | map (ctx vframe frames : Nat) (home : Tier) (pin coded ro view : Bool) (g0 g1 : Nat)
  | unmap (ctx vframe frames : Nat)
deriving DecidableEq, Repr

/-- SOURCE of a job start (R539). -/
inductive JobSource where
  | fresh | flash | store
deriving DecidableEq, Repr

/-- A started job of a context (R539 to R541); `place` lists the physical groups of its logical groups from its first
step entry on (R37). -/
structure Job where
  step : W32
  place : Option (List Nat)
  source : JobSource
  startBeat : Nat
  endBeat : Option Nat
  entered : Bool
  late : Bool
  spare : Bool
  admitted : Bool
deriving DecidableEq, Repr

/-- A set of the partner map (R485): its original owner, the device that now owns it, its holders, the
beat since which it is exposed, the new holder of a refill and the next layer to refill (R489, R490). -/
structure PartnerSet where
  primary : Nat
  owner : Nat
  holders : List Nat
  exposed : Option Nat
  newHolder : Option Nat
  nextLayer : Nat
  lost : Bool
deriving DecidableEq, Repr

/-- A failed node (R482, R483): this device's role mask, and what the survivor rule chose at its commit:
LEFT, RIGHT and the holder of its primary set. -/
structure FailedNode where
  node : Nat
  role : BitVec 3
  left : Option Nat
  right : Option Nat
  holder : Option Nat
deriving DecidableEq, Repr

/-- The fault history of a job (R477, R482, R504): the failed nodes, the live set of members, the partner map, the
state bytes by layer of the last complete step (R490), whether working copies wait to be derived, and those derived
(R477). -/
structure FaultMap where
  failed : List FailedNode
  members : List Nat
  sets : List PartnerSet
  layers : Tab Nat
  derive : Bool
  derived : List WorkCopy
deriving DecidableEq, Repr

/-- The fault map of a context with no job. -/
def FaultMap.reset : FaultMap := { failed := [], members := [], sets := [], layers := [], derive := false, derived := [] }

/-- The state of a context as it is saved across switches (R504): sync objects, its device-wide
registers by offset, its fault map. -/
structure Saved where
  so : Tab SyncObj
  regs : Tab W64
  flt : FaultMap
deriving DecidableEq, Repr

/-- State of a context (R503). -/
inductive CtxSt where
  | free | loaded | running | suspended
deriving DecidableEq, Repr

/-- A context (R503, R504, R514, R522). Keys are held as values; `ephemeral` is the attestation key,
its NONCE and whether its one import is spent (R518); `newImage` says that an image was loaded since the last step entry
(R387). -/
structure Ctx where
  st : CtxSt
  save : Nat
  newImage : Bool
  maps : Tab (Option Mapping)
  views : List ViewPair
  image : Option (List Byte)
  lpKey : W64
  flashKey : W64
  unsealed : Bool
  sealedSlot : Option Nat
  slots : Tab (Option (BitVec 256))
  ephemeral : Option (W64 × BitVec 512 × Bool)
  dbgBits : W64
  job : Option Job
  entries : Nat
  saved : Saved
deriving DecidableEq, Repr

/-- A context that is FREE. -/
def Ctx.reset : Ctx :=
  { st := .free, save := 0, newImage := false, maps := [], views := [], image := none, lpKey := 0, flashKey := 0
    unsealed := false, sealedSlot := none, slots := [], ephemeral := none, dbgBits := 0, job := none
    entries := 0, saved := { so := [], regs := [], flt := FaultMap.reset } }

/-- A physical frame that is not free (R423, R474, R504, R512). -/
inductive FrameSt where
  | free
  | mapped (ctx vframe : Nat)
  | save (ctx : Nat)
  | pool (ctx : Nat)
  | quarantine (beat : Nat)
  | scrub
  | retired
deriving DecidableEq, Repr

/-! ### Key-value pages, gather pool, prefetch -/

/-- A page move in progress (R289, R286 PROMOTE): extent and frame it leaves and takes, the entry. -/
structure PageMove where
  lpddr : Bool
  src : Nat
  dst : Nat
  stream : Nat
  block : Nat
deriving DecidableEq, Repr

/-- A cached remote page (R297) and the HBM frame that keeps it. -/
structure CachedPage where
  node : Nat
  stream : Nat
  block : Nat
  frame : Nat
deriving DecidableEq, Repr

/-- The page unit (R269 to R297). Frames are keyed by 2 × frame number + extent. `resolutions` counts
outstanding reads of a frame by beat (R288); `frees` are the FREE commands pending commit (R286), `after` those that
have taken effect but wait for the move of their entry to end (R284). -/
structure PageUnit where
  frees : List (Nat × Nat)
  after : List (Nat × Nat)
  moves : List PageMove
  resolutions : List (Nat × Nat)
  cache : List CachedPage
  nextTag : Nat
deriving DecidableEq, Repr

/-- A gather that waits for frames (R369). -/
structure GatherWait where
  op : Nat
  entry : Nat
  since : Nat
deriving DecidableEq, Repr

/-- Where a prefetch stands (R411 to R417). -/
inductive PfSt where
  | active | done | recompute | direct | waiting
deriving DecidableEq, Repr

/-- A prefetch in a slot of a strand (R409 to R419). `delivered` counts destination bytes from DST,
run-ahead included; `stopped` says a drop ended its transfer; `stale` lists the stale source granules. -/
structure Prefetch where
  site : Site
  slot : Nat
  src : Nat
  dst : Nat
  len : Nat
  xlo : Nat
  xhi : Nat
  ra : Nat
  watch : Bool
  faultStale : Bool
  deadline : Nat
  fallback : Nat
  so : Option Nat
  delivered : Nat
  st : PfSt
  missed : Bool
  stopped : Bool
  stale : List Nat
deriving DecidableEq, Repr

/-! ### Fabric -/

/-- The work of this device that a packet belongs to: what waits for its acknowledgement. -/
inductive PktTag where
  | none
  | strand (a : Site)
  | tee (group job : Nat)
  | coll (plan step : Nat)
  | dispatch (did pos : Nat)
deriving DecidableEq, Repr

/-- What a COLL frame carries beside the fields of R438: the position of the sender, whether its bytes are part of
a result, and the stamp of a shard (R371) or the saturation mark of a region (R206). The spec gives it no place in the
frame (log 34). -/
structure CollMark where
  pos : Nat
  result : Bool
  stamp : Nat
deriving DecidableEq, Repr

/-- What an NVMe/TCP frame carries (R460): the target's address, the next hop, the TCP port, the connection, the PDU
type, and of a command its code, identifier, namespace, first block and length, or of data its offset. -/
structure NvmeHdr where
  dst : BitVec 128
  hop : BitVec 128
  tcp : BitVec 16
  conn : Nat
  pdu : Nat
  cmd : Nat
  cid : Nat
  nsid : BitVec 32
  at_ : Nat
  bytes : Nat
deriving DecidableEq, Repr

/-- A frame handed to a port (R437, R438). `ty` is TYPE, or EtherType 0x88B5's companions of R460
(0x100 NVMe/TCP, 0x101 ICMP, 0x102 neighbour discovery, 0x103 ARP, 0x104 PFC). The port gives the frame its SNODE, its
class's PCP in the 802.1Q tag, and ENC; VER is 1 in every frame. -/
structure Frame where
  ty : Nat
  port : Nat
  pcp : Nat
  enc : Bool
  snode : Nat
  dnode : Nat
  dcid : Nat
  epoch : Byte
  psn : Nat
  msg : Nat
  xsn : Nat
  addr : W64
  aux : W64
  last : Bool
  retx : Bool
  mark : Option CollMark
  nvme : Option NvmeHdr
  payload : List Byte
deriving DecidableEq, Repr

/-- A packet sent and not yet acknowledged (R441, R446). -/
structure Packet where
  frame : Frame
  tag : PktTag
  tries : Nat
  limited : Bool
deriving DecidableEq, Repr

/-- An effect that waits for its place in MSG order (R442): an increment, a row of a dispatch that has landed, a
count or grant frame, a page request, or a packet of a page answer. -/
inductive RxEffect where
  | soinc (index amount : Nat)
  | row (r : RowInfo) (bytes : Nat) (last : Bool)
  | count (c : CountFrame)
  | grant (g : GrantFrame)
  | pageReq (slot layer head block tag : Nat)
  | pageAns (tag offset : Nat) (pad fail full last : Bool) (bytes : List Byte)
deriving DecidableEq, Repr

/-- A session (R459, R515): its peer, the context it belongs to (none for the device session of the peer), the key of
each direction, the salt, and the next transmission number. -/
structure Session where
  node : Nat
  ctx : Option Nat
  txKey : W64
  rxKey : W64
  salt : W64
  xsn : Nat
deriving DecidableEq, Repr

/-- A connection context (R439 to R447, R459): `theirs` and `theirGen` are the peer's context index and its DGEN; `asked`
says that its CONNECT has left. Its keys are those of the session of its peer and context. `rxHeld` lists effects with the
PSN of their packet. -/
structure Conn where
  opened : Bool
  pendingOpen : Bool
  peer : Nat
  ctx : Nat
  theirs : Nat
  theirGen : BitVec 3
  asked : Bool
  dgen : BitVec 3
  txPsn : Nat
  txMsg : Nat
  rxNext : Nat
  rxSeen : List Nat
  rxHeld : List (Nat × RxEffect)
  unacked : List Packet
  ackDue : Nat
  authFails : Nat
  lastBeat : Nat
deriving DecidableEq, Repr

/-- A DATA-class frame that waits for a connection or for its window (R440, R441): context, node, the
frame and what it belongs to. -/
structure WaitSend where
  ctx : Nat
  node : Nat
  frame : Frame
  tag : PktTag
deriving DecidableEq, Repr

/-- A closed connection context. -/
def Conn.reset : Conn :=
  { opened := false, pendingOpen := false, peer := 0, ctx := 0, theirs := 0, theirGen := 0, asked := false, dgen := 0, txPsn := 0
    txMsg := 0, rxNext := 0, rxSeen := [], rxHeld := [], unacked := [], ackDue := 0, authFails := 0
    lastBeat := 0 }

/-- A fabric port beside its registers (R435, R445, R448). `pausedBeat` says that it has been paused since the beat
began. `clean` counts the beats since it last left the spray set; a port that never left it has stayed clean. `txq` are
the bytes handed to it in this beat (log 19). -/
structure Port where
  link : Bool
  lock : BitVec 4
  spray : Bool
  paused : Bool
  pausedBeat : Bool
  leave : Option PortCause
  clean : Nat
  rxbuf : Nat
  xoff : Bool
  txq : Nat
deriving DecidableEq, Repr

/-- A port at reset: link down. -/
def Port.reset : Port :=
  { link := false, lock := 0, spray := false, paused := false, pausedBeat := false, leave := none
    clean := 131072, rxbuf := 0, xoff := false, txq := 0 }

/-- One COLL of a step (R451, R571): the position it stands for, its instruction, buffer and completion
object. -/
structure CollCall where
  pos : Nat
  site : Site
  idx : Nat
  buf : Nat
  so : Option Nat
deriving DecidableEq, Repr

/-- Bytes of an item that have landed: the item, the position they come from, the offset. -/
structure CollPart where
  item : Nat
  pos : Nat
  result : Bool
  offset : Nat
  bytes : List Byte
deriving DecidableEq, Repr

/-- A step of a plan in progress (R451, R452, R570). `values` are the operands of its tree that this device
holds, by item; `sent` the items sent on, by item, offset and node; `seen` the result bytes landed, by item
and offset; `landed` of the `expect` result bytes; `waiting` says a gather has no frames yet (R369). -/
structure CollOp where
  id : Nat
  plan : Nat
  step : Nat
  calls : List CollCall
  parts : List CollPart
  values : List (Nat × List Byte)
  sent : List (Nat × Nat × Nat)
  seen : List (Nat × Nat)
  landed : Nat
  expect : Nat
  waiting : Bool
  complete : Bool
deriving DecidableEq, Repr

/-! ### Larkspur services, NVMe/TCP -/

/-- What an outstanding NVMe/TCP operation serves (R376, R496, R538, R539). -/
inductive NvmeUse where
  | ingest (job slot dest : Nat)
  | ckptStore
  | imageLoad
  | stateLoad
deriving DecidableEq, Repr

/-- A target of NVMe/TCP (R375, R496): IPv6 address, TCP port, namespace. -/
structure NvmeTarget where
  addr : BitVec 128
  tcp : BitVec 16
  nsid : BitVec 32
deriving DecidableEq, Repr

/-- How far an NVMe/TCP connection is set up (R460): ICReq sent; then the Connect, Property Get and Identify commands. -/
inductive TcpPhase where
  | icReq | connect | property | identify | ready
deriving DecidableEq, Repr

/-- An NVMe/TCP connection: target, the one port that it is bound to, and how far it is (R460). -/
structure TcpConn where
  addr : BitVec 128
  tcp : BitVec 16
  port : Nat
  phase : TcpPhase
deriving DecidableEq, Repr

/-- An NVMe/TCP read or write in progress (R460, R377): `got` are the bytes of a read that have come, `payload` is what a
write sends; `conn` is the connection that its command went out on, and `port` the port it is tried on. -/
structure NvmeOp where
  id : Nat
  use : NvmeUse
  target : NvmeTarget
  conn : Option Nat
  lba : Nat
  bytes : Nat
  got : List Byte
  payload : List Byte
  tries : Nat
  port : Nat
deriving DecidableEq, Repr

/-- An INGEST in progress (R376): records still to come, its DONE object. -/
structure IngestJob where
  id : Nat
  site : Site
  idx : Nat
  left : Nat
  done : Nat
deriving DecidableEq, Repr

/-- A checkpoint in progress (R493, R496): the ranges it copies and, for the shared store, its target, first block,
block size and the writes still to be done; `started` is false while the supply guard holds it (R499). -/
structure CkptJob where
  site : Site
  done : Nat
  what : Nat
  tag : W64
  stamp : W32
  areas : List (Nat × Nat)
  target : NvmeTarget
  lba : Nat
  block : Nat
  left : Nat
  started : Bool
deriving DecidableEq, Repr

/-- A checkpoint generation in flash (R493, R495): the context, its STAMP and TAG, which sets, the ranges it
holds, the flash key it is written under (R513) and its bytes by virtual address. -/
structure FlashGen where
  ctx : Nat
  stamp : W32
  tag : W64
  own : Bool
  heldCopies : Bool
  areas : List (Nat × Nat)
  key : W64
  cells : Tab Byte
deriving DecidableEq, Repr

/-! ### Management -/

/-- `SVC_STATE` (R543). -/
inductive SvcSt where
  | standby | rails | bist | ready | joining | running | selfFenced | unusable
deriving DecidableEq, Repr

/-- A fence record copy in NOR flash (R531). -/
structure FenceRec where
  valid : Bool
  seq : Nat
  fenced : BitVec 96
  groups : BitVec 12
  marginal : BitVec 96
  cause : Tab Byte
  retired : List Nat
deriving DecidableEq, Repr

/-- A copy with no valid MAGIC, VERSION and CRC. -/
def FenceRec.blank : FenceRec :=
  { valid := false, seq := 0, fenced := 0, groups := 0, marginal := 0, cause := [], retired := [] }

/-- The mailbox command that runs (R535). -/
inductive MboxJob where
  | summary
  | test (stress : Bool)
  | fenceEdit
  | imageLoad (ctx dest len : Nat) (image : Bool)
  | jobStart (ctx order : Nat)
  | spareJoin (ctx order : Nat)
  | mapping (c : MapChange)
deriving DecidableEq, Repr

/-- STATE of `SVC_MBOX_STATUS` (R543). -/
inductive MboxSt where
  | idle | busy | done | refused
deriving DecidableEq, Repr

/-- The mailbox (R535, R536). -/
structure Mbox where
  st : MboxSt
  tag : Byte
  code : Byte
  result : W16
  len : Nat
  job : Option MboxJob
  resp : Tab Byte
deriving DecidableEq, Repr

/-- The state of self-test (R528 to R530): slices passed, failed once, failed finally, timed out. -/
structure Bist where
  passed : List Nat
  once : List Nat
  failed : List Nat
  tooLong : List Nat
deriving DecidableEq, Repr

/-- The program-error record of SUMMARY (R542). -/
structure ProgErr where
  detail : W32
  core : Byte
  beat : W64
deriving DecidableEq, Repr

/-- A supply event of SUMMARY's log (R542). -/
structure SupplyEvt where
  beat : BitVec 48
  kind : Byte
  lowest : W16
  length : W32
deriving DecidableEq, Repr

/-- The module's pins and power path (R549, R555, R526); `forced` says that an opened latch waits for the main rails to
go down (R558); `stby` that standby power is in tolerance. -/
structure Pins where
  latchClosed : Bool
  button : Bool
  seated : Bool
  pathOn : Bool
  rails : Bool
  perst : Bool
  pcieTrained : Bool
  stage2 : Bool
  coreFenceSeen : Bool
  okSteady : Bool
  forced : Bool
  stby : Bool
deriving DecidableEq, Repr

/-- The management sequencer, NOR flash and event ring (R526 to R544). `writeTo` are the writes of the fence record
that run, with a mark for those that FENCE_EDIT asked for; `recBad` says that neither copy was valid and none has been
edited since (R534); `formed` are the peers whose formation message agreed, `spares` those that join a running job;
`hubBad` lists hubs whose position straps disagree with their fuses (R23). -/
structure Svc where
  st : SvcSt
  mbox : Mbox
  bist : Bist
  recA : FenceRec
  recB : FenceRec
  writeTo : List (FenceRec × Bool)
  recBad : Bool
  ring : List (EvtRec × Bool)
  feed : BitVec 4
  hubBad : List Nat
  progErr : Option ProgErr
  supply : List SupplyEvt
  blobs : Tab (Option (BitVec 384 × BitVec 256 × W64))
  formed : List Nat
  spares : List Nat
  storeGen : Option (W32 × W32 × W64)
deriving DecidableEq, Repr

/-- A fence notice held, with the node it came from (R476). -/
structure HeldNotice where
  notice : FenceNotice
  sender : Nat
deriving DecidableEq, Repr

/-- The fault and fence controller beside its registers (R465 to R492). `quorum` lists the quorums held: node,
beat [31:0], kind that completed it; `due` the fences of the coming boundary: node, kind; `layerBytes` the state
bytes by layer of the step in progress (R490). -/
structure FltUnit where
  fenced : BitVec 96
  map : FaultMap
  notices : List HeldNotice
  quorum : List (Nat × Nat × Nat)
  due : List (Nat × Nat)
  proposed : List Nat
  lastFence : Option Nat
  selfCause : Option Nat
  fencedSelf : Bool
  guard : Bool
  guardEnd : Bool
  removal : Nat
  stop : Bool
  discardSent : List Nat
  dbgSent : List Nat
  layerBytes : Tab Nat
  retire : List Nat
  exposeDue : List Nat
deriving DecidableEq, Repr

/-- The step controller and loss scaling beside its registers (R378 to R390). `watch` notes, for each layer
with a gradient read in this step, 1 while every element was ±0, else 2 (R355); `seed` is `UE_SEED` as the step entry
took it (R358). -/
structure StepUnit where
  active : Bool
  seed : W64
  firstBeat : Nat
  beats : Nat
  contrib : W16
  cut : Option W16
  reduced : Option W16
  poolLowSent : Bool
  ctxWaitSent : Bool
  watch : Tab Nat
deriving DecidableEq, Repr

/-- Contexts on the device, the switch, debug (R503 to R523). `shown` is the context whose values the
per-context registers, sync objects and partner map hold (R504); `halted` lists contexts halted by the debug block. -/
structure SecUnit where
  ctxs : Tab Ctx
  run : Option (Fin 16)
  shown : Option Nat
  switchTo : Option (Fin 16 × Nat)
  deferred : Bool
  switching : Option (Fin 16 × Nat)
  sessions : List Session
  halted : List Nat
  haltPend : List (Nat × Bool)
  dbgBusy : Bool
deriving DecidableEq, Repr

/-- A free value the device draws once per use is `Config` applied to this counter. -/
abbrev FreeCounter := Nat

/-- The whole device. `pending` is the queue of commands, first in first out; `sent` the frames it has
handed to its ports, newest first; `collNext` the next step of each plan, `circNext` the next circulation
item to deliver, `collHeld` collective frames that came before their COLL; `tcp` the NVMe/TCP connections by number, `router`
the router that its advertisements named; `freeCounter` counts the free values drawn (the last two and the
queue are the model's own). -/
structure State where
  regs : Tab W64
  strands : Tab Strand
  cores : Tab CoreSt
  groups : Tab GroupSt
  so : Tab SyncObj
  mem : Tab Byte
  frames : Tab FrameSt
  flash : Tab Byte
  gens : List FlashGen
  bt : BeatUnit
  flt : FltUnit
  step : StepUnit
  sec : SecUnit
  svc : Svc
  pins : Pins
  pages : PageUnit
  prefetches : List Prefetch
  gathers : List GatherWait
  conns : Tab Conn
  waitSends : List WaitSend
  ports : Tab Port
  colls : List CollOp
  collNext : Tab Nat
  circNext : Tab Nat
  collHeld : List (Nat × CollItem)
  nextOp : Nat
  nvme : List NvmeOp
  tcp : Tab (Option TcpConn)
  neighbours : List (BitVec 128 × BitVec 48)
  router : Option (BitVec 128)
  ingests : List IngestJob
  ckptFlash : List CkptJob
  ckptStore : List CkptJob
  mapChanges : List MapChange
  modeInForce : BitVec 2
  modePend : Bool
  capInForce : Nat
  rate64 : Nat
  throttle : Tab Nat
  hotBeats : Tab Nat
  sent : List Frame
  freeCounter : FreeCounter
  pending : List Instr
deriving DecidableEq, Repr

/-- The beat unit at reset (R56, R70). -/
def BeatUnit.reset : BeatUnit :=
  { st := .detached, sel := 2, count := 0, peers := [], lockRun := 0, acquireBeats := 0
    offHighRun := 0, usable := false, measured := false, heardAny := false, refNode := none, hops := 7
    stretches := [], stretched := false, inGuard := false, ownReq := false, ownExempt := false, runStretch := 0
    slackMin := none, heart := 0, correction := 0, offBeat := 0, offLast := 0, assign := 0 }

/-- The fault controller at reset. -/
def FltUnit.reset : FltUnit :=
  { fenced := 0, map := FaultMap.reset, notices := [], quorum := [], due := [], proposed := [], lastFence := none
    selfCause := none, fencedSelf := false, guard := false, guardEnd := false, removal := 0
    stop := false, discardSent := [], dbgSent := []
    layerBytes := [], retire := [], exposeDue := [] }

/-- The step controller at reset. -/
def StepUnit.reset : StepUnit :=
  { active := false, seed := 0, firstBeat := 0, beats := 0, contrib := 0, cut := none, reduced := none
    poolLowSent := false, ctxWaitSent := false, watch := [] }

/-- Contexts at reset: all FREE. -/
def SecUnit.reset : SecUnit :=
  { ctxs := [], run := none, shown := none, switchTo := none, deferred := false, switching := none, sessions := []
    halted := [], haltPend := [], dbgBusy := false }

/-- The mailbox at reset. -/
def Mbox.reset : Mbox :=
  { st := .idle, tag := 0, code := 0, result := 0, len := 0, job := none, resp := [] }

/-- The management sequencer at standby power-up. -/
def Svc.reset : Svc :=
  { st := .standby, mbox := Mbox.reset, bist := { passed := [], once := [], failed := [], tooLong := [] }
    recA := FenceRec.blank, recB := FenceRec.blank, writeTo := [], recBad := false, ring := [], feed := 0
    hubBad := [], progErr := none, supply := [], blobs := [], formed := [], spares := [], storeGen := none }

/-- The module before power. -/
def Pins.reset : Pins :=
  { latchClosed := false, button := false, seated := false, pathOn := false, rails := false
    perst := true, pcieTrained := false, stage2 := false, coreFenceSeen := false, okSteady := false, forced := false, stby := false }

/-- The page unit at reset. -/
def PageUnit.reset : PageUnit :=
  { frees := [], after := [], moves := [], resolutions := [], cache := [], nextTag := 0 }

/-- The device right after reset: every register at the value its table gives (an unlisted register
reads its reset word), every memory byte 0, nothing in progress. -/
def State.reset : State :=
  { regs := [], strands := [], cores := [], groups := [], so := [], mem := [], frames := []
    flash := [], gens := [], bt := BeatUnit.reset, flt := FltUnit.reset, step := StepUnit.reset
    sec := SecUnit.reset, svc := Svc.reset, pins := Pins.reset, pages := PageUnit.reset
    prefetches := [], gathers := [], conns := [], waitSends := [], ports := [], colls := [], collNext := [], circNext := []
    collHeld := [], nextOp := 0
    nvme := [], tcp := [], neighbours := [], router := none, ingests := [], ckptFlash := [], ckptStore := []
    mapChanges := [], modeInForce := 0, modePend := false, capInForce := 1500, rate64 := 64, throttle := []
    hotBeats := [], sent := [], freeCounter := 0, pending := [] }

end Sys2Proof.Machine
end

