-- ==== Sys2Proof/Machine/Ops.lean ====
section
/-!
DEFINITION. Machine/Ops.lean: the named operations over registers, units, memory and events that every
command uses.
-/

namespace Sys2Proof.Machine

/-! ### Registers (R12 to R16)

`regs` holds at each offset the difference (exclusive or) between the word and its reset word, so that
an unlisted register reads its reset word. -/

/-- The stored word of a register. -/
def State.word (s : State) (off : Nat) : W64 := Tab.get 0 s.regs off ^^^ resetWord off

/-- Store a register's word. -/
def State.setWord (s : State) (off : Nat) (w : W64) : State :=
  { s with regs := Tab.set 0 s.regs off (w ^^^ resetWord off) }

/-- A word with a field replaced. -/
def Fld.ins (f : Fld) (w : W64) (v : Nat) : W64 :=
  BitVec.ofNat 64 (w.toNat - f.ext w.toNat * 2 ^ f.lo + v % 2 ^ f.w * 2 ^ f.lo)

/-- The value of a field, of the instance with outer index `i` and inner index `j`. -/
def State.get (s : State) (f : Fld) (i : Nat := 0) (j : Nat := 0) : Nat :=
  f.ext (s.word (f.off i j)).toNat

/-- Set a field. -/
def State.put (s : State) (f : Fld) (v : Nat) (i : Nat := 0) (j : Nat := 0) : State :=
  s.setWord (f.off i j) (f.ins (s.word (f.off i j)) v)

/-- Add to a counter, which wraps at its width. -/
def State.bump (s : State) (f : Fld) (i : Nat := 0) (j : Nat := 0) (n : Nat := 1) : State :=
  s.put f (s.get f i j + n) i j

/-- Whether a one-bit field is 1. -/
def State.flag (s : State) (f : Fld) (i : Nat := 0) (j : Nat := 0) : Bool := s.get f i j == 1

/-! ### Units -/

/-- The number of a strand: 4 × core + strand. -/
def siteKey (a : Site) : Nat := 4 * a.core.val + a.strand.val

/-- The group of a core (R31). -/
def groupOf (core : Nat) : Nat := core / 8

/-- The requests of 512 B that a wide access of some ranges makes: the lines they touch (R399, log 65). -/
def wideRequests (rs : List (Nat × Nat)) : Nat :=
  (rs.map (fun r => if r.2 = 0 then 0 else (r.1 + r.2 + 511) / 512 - r.1 / 512)).sum

/-- The grant counter of a request class at a group port (R404, R432). -/
def arbCounter : Nat → Fld
  | 0 => Reg.GRP_ARB0_COUNT
  | 1 => Reg.GRP_ARB1_COUNT
  | _ => Reg.GRP_ARB2_COUNT

/-- Traffic of a group port: its bytes, and a grant for each request of its class (R404, R432). -/
def State.portTraffic (s : State) (g cls : Nat) (write : Bool) (bytes requests : Nat) : State :=
  (s.bump (if write then Reg.GRP_PORT_WR_COUNT else Reg.GRP_PORT_RD_COUNT) g 0 bytes).bump (arbCounter cls) g 0 requests

/-- A strand. -/
def State.strand (s : State) (a : Site) : Strand := Tab.get Strand.reset s.strands (siteKey a)
/-- Replace a strand. -/
def State.setStrand (s : State) (a : Site) (t : Strand) : State :=
  { s with strands := Tab.set Strand.reset s.strands (siteKey a) t }
/-- A core. -/
def State.core (s : State) (c : Nat) : CoreSt := Tab.get CoreSt.reset s.cores c
/-- Replace a core. -/
def State.setCore (s : State) (c : Nat) (t : CoreSt) : State :=
  { s with cores := Tab.set CoreSt.reset s.cores c t }
/-- A group. -/
def State.group (s : State) (g : Nat) : GroupSt := Tab.get GroupSt.reset s.groups g
/-- Replace a group. -/
def State.setGroup (s : State) (g : Nat) (t : GroupSt) : State :=
  { s with groups := Tab.set GroupSt.reset s.groups g t }
/-- A sync object. -/
def State.obj (s : State) (i : Nat) : SyncObj := Tab.get SyncObj.reset s.so i
/-- Replace a sync object. -/
def State.setObj (s : State) (i : Nat) (o : SyncObj) : State :=
  { s with so := Tab.set SyncObj.reset s.so i o }
/-- A context. -/
def State.ctx (s : State) (c : Nat) : Ctx := Tab.get Ctx.reset s.sec.ctxs c
/-- Replace a context. -/
def State.setCtx (s : State) (c : Nat) (x : Ctx) : State :=
  { s with sec := { s.sec with ctxs := Tab.set Ctx.reset s.sec.ctxs c x } }
/-- A connection context. -/
def State.conn (s : State) (i : Nat) : Conn := Tab.get Conn.reset s.conns i
/-- Replace a connection context. -/
def State.setConn (s : State) (i : Nat) (c : Conn) : State :=
  { s with conns := Tab.set Conn.reset s.conns i c }
/-- A port. -/
def State.port (s : State) (p : Nat) : Port := Tab.get Port.reset s.ports p
/-- Replace a port. -/
def State.setPort (s : State) (p : Nat) (q : Port) : State :=
  { s with ports := Tab.set Port.reset s.ports p q }
/-- The state of a physical frame. -/
def State.frame (s : State) (f : Nat) : FrameSt := Tab.get FrameSt.free s.frames f
/-- Set the state of a physical frame. -/
def State.setFrame (s : State) (f : Nat) (x : FrameSt) : State :=
  { s with frames := Tab.set FrameSt.free s.frames f x }
/-- The marker peer of a port (16 is the twin bridge). -/
def State.peer (s : State) (p : Nat) : Option Peer := Tab.get none s.bt.peers p
/-- Set the marker peer of a port. -/
def State.setPeer (s : State) (p : Nat) (x : Option Peer) : State :=
  { s with bt := { s.bt with peers := Tab.set none s.bt.peers p x } }

/-- The first number from `k` up that satisfies `p`, among `fuel` of them. -/
def findFrom (p : Nat → Bool) : Nat → Nat → Option Nat
  | 0, _ => none
  | fuel + 1, k => if p k then some k else findFrom p fuel (k + 1)

/-- All strand sites, in ascending order. -/
def allSites : List Site :=
  (List.finRange 96).flatMap (fun c => (List.finRange 4).map (fun n => ⟨c, n⟩))

/-- This device's node ID (`FAB_NODE.NODE`). -/
def State.node (s : State) : Nat := s.get Reg.FAB_NODE_NODE

/-- The running context (R503). -/
def State.running (s : State) : Option Nat := s.sec.run.map Fin.val

/-- The current beat (`BT_COUNT`). -/
def State.beat (s : State) : Nat := s.bt.count.toNat

/-- `UE_STEP`. -/
def State.ueStep (s : State) : Nat := s.get Reg.UE_STEP_STEP

/-- The current draw of a free value, and the state that has used it up. -/
def State.draw (s : State) : Nat := s.freeCounter
/-- Use up a draw. -/
def State.drawn (s : State) : State := { s with freeCounter := s.freeCounter + 1 }

/-- `n` free bytes of one draw (log 2). -/
def freeBytes (draw n : Nat) : List Byte := (List.range n).map (Config.freeByte draw)

/-! ### Events (R18, R543) -/

/-- Put a record into the event ring: the 1,024 newest are kept, and a record that leaves unread
advances `SVC_EVT_LOST` (R543). The ring is held newest first. -/
def State.record (s : State) (r : EvtRec) : State :=
  let ring := (r, false) :: s.svc.ring
  let lost := match ring.drop 1024 with
    | (_, false) :: _ => 1
    | _ => 0
  (({ s with svc := { s.svc with ring := ring.take 1024 } }).bump Reg.SVC_EVT_COUNT_COUNT).bump
    Reg.SVC_EVT_LOST_COUNT 0 0 lost

/-- Raise an event (R18): this device's node, the core (0xFF when not tied to one), the running
context and the current beat. -/
def State.event (s : State) (code : Nat) (detail : Nat) (core : Nat := 0xFF) : State :=
  s.record
    { code := BitVec.ofNat 16 code, node := BitVec.ofNat 15 s.node, core := BitVec.ofNat 8 core
      ctx := s.running.map (BitVec.ofNat 4), beat := BitVec.ofNat 48 s.beat
      detail := BitVec.ofNat 32 detail }

/-- Raise an event about a context that need not be the running one: it names that context (R18). -/
def State.eventFor (s : State) (c code detail : Nat) : State :=
  s.record
    { code := BitVec.ofNat 16 code, node := BitVec.ofNat 15 s.node, core := 0xFF, ctx := some (BitVec.ofNat 4 c)
      beat := BitVec.ofNat 48 s.beat, detail := BitVec.ofNat 32 detail }

/-! ### Fences asked for, program errors (R113, R480) -/

/-- Ask for a self-fence with a cause (R480): the first cause asked for stands. -/
def State.selfFence (s : State) (cause : Nat) : State :=
  match s.flt.selfCause with
  | some _ => s
  | none => if s.flt.fencedSelf then s else { s with flt := { s.flt with selfCause := some cause } }

/-- Stop every strand of the running context that has not halted (R113, R480). -/
def State.stopStrands (s : State) : State :=
  { s with strands := s.strands.mapv Strand.reset (fun t =>
      if t.enabled && t.st != .idle then { t with st := .stopped, soWait := none, fence := none } else t) }

/-- Record PROGRAM_ERROR for SUMMARY (R113, R542). -/
def State.setProgErr (s : State) (detail core : Nat) : State :=
  let e : ProgErr :=
    { detail := BitVec.ofNat 32 detail, core := BitVec.ofNat 8 core, beat := s.bt.count }
  { s with svc := { s.svc with progErr := some e } }

/-- STRAND_ERROR (R112, R113): the strand stops, DETAIL names the cause, the strand and the
instruction; the context stops, PROGRAM_ERROR is recorded and the device fences itself. -/
def State.strandErrorAt (s : State) (a : Site) (cause idx : Nat) : State :=
  let detail := cause + a.strand.val * 2 ^ 8 + idx % 2 ^ 22 * 2 ^ 10
  let s := s.event 0x0230 detail a.core.val
  let s := s.setStrand a { s.strand a with st := .stopped, soWait := none, fence := none }
  let s := s.stopStrands
  let s := s.setProgErr detail a.core.val
  s.selfFence 5

/-- STRAND_ERROR at the strand's current instruction. -/
def State.strandError (s : State) (a : Site) (cause : Nat) : State :=
  s.strandErrorAt a cause (s.strand a).pc.toNat

/-- Another program error of a strand or engine (R113): recorded and fenced as STRAND_ERROR, without
an event of its own; `cause` is the code of R480 that names it. -/
def State.programErrorAs (s : State) (detail core cause : Nat) : State :=
  let s := s.stopStrands
  let s := s.setProgErr detail core
  s.selfFence cause

/-- A program error with cause 5 (R113, R480). -/
def State.programError (s : State) (detail core : Nat) : State := s.programErrorAs detail core 5

/-! ### Sync objects (R99 to R107) -/

/-- Add an amount to COUNT, which saturates (R102). -/
def State.soAdd (s : State) (i n : Nat) : State :=
  let o := s.obj i
  if o.count.toNat + n < 2 ^ 32 then s.setObj i { o with count := BitVec.ofNat 32 (o.count.toNat + n) }
  else (s.setObj i { o with count := 0xFFFFFFFF }).event 0x0231 i

/-! ### Members of the job (R105, R477) -/

/-- Nodes of the job, fenced ones among them. -/
def State.inJob (s : State) (n : Nat) : Bool :=
  s.flt.map.members.contains n || s.flt.map.failed.any (fun f => f.node == n)

/-- A node whose device fence has committed in this job. -/
def State.isFenced (s : State) (n : Nat) : Bool := s.flt.map.failed.any (fun f => f.node == n)

/-! ### Memory (R391 to R398) -/

/-- Bytes of a frame (R393). -/
def frameBytes : Nat := 2 ^ 21
/-- HBM frames of the device (R391). -/
def hbmFrames : Nat := 2 ^ 18
/-- The first LPDDR frame: 0x0100_0000_0000 over 2 MiB (R391). -/
def lpBase : Nat := 2 ^ 19
/-- LPDDR frames of the device (R391). -/
def lpFrames : Nat := 2 ^ 19

/-- Whether a physical frame lies in HBM. -/
def isHbm (f : Nat) : Bool := decide (f < hbmFrames)

/-- `UE_STEP` of a context: the register while it runs, else its saved value. -/
def State.stepOf (s : State) (c : Nat) : Nat :=
  if s.sec.shown = some c then s.ueStep
  else
    let off := Reg.UE_STEP_STEP.off 0 0
    Reg.UE_STEP_STEP.ext (Tab.get 0 (s.ctx c).saved.regs off ^^^ resetWord off).toNat

/-- The view range C that holds a virtual frame. -/
def State.viewOf (s : State) (c vf : Nat) : Option ViewPair :=
  (s.ctx c).views.find? (fun v => decide (v.c ≤ vf ∧ vf < v.c + v.n))

/-- The virtual frame that is accessed: in a view range C the frame of G(UE_STEP mod 2) (R397). -/
def State.viewFrame (s : State) (c vf : Nat) : Nat :=
  match s.viewOf c vf with
  | some v => (if s.stepOf c % 2 = 0 then v.g0 else v.g1) + (vf - v.c)
  | none => vf

/-- The mapping of a virtual frame of a context: frames of a view range C are those of
G(UE_STEP mod 2), read-only (R397). -/
def State.mapping (s : State) (c vf : Nat) : Option Mapping :=
  let m := Tab.get none (s.ctx c).maps (s.viewFrame c vf)
  if (s.viewOf c vf).isSome then m.map (fun m => { m with ro := true }) else m

/-- The physical address of a context virtual address; none when the frame is unmapped or in flash. -/
def State.translate (s : State) (c va : Nat) : Option Nat :=
  match s.mapping c (va / frameBytes) with
  | none => none
  | some m => if m.tier = .flash then none else some (m.frame * frameBytes + va % frameBytes)

/-- One byte of physical memory. -/
def State.pbyte (s : State) (pa : Nat) : Byte := Tab.get 0 s.mem pa

/-- One byte of a context's virtual space; an unmapped byte reads 0 (every demand access is checked
first, R396). -/
def State.vbyte (s : State) (c va : Nat) : Byte :=
  match s.translate c va with
  | some pa => s.pbyte pa
  | none => 0

/-- `n` bytes of a context's virtual space. -/
def State.vread (s : State) (c va n : Nat) : List Byte :=
  (List.range n).map (fun k => s.vbyte c (va + k))

/-- A little-endian field of `n` bytes in memory (R10). -/
def State.vfield (s : State) (c va n : Nat) : Nat := ofBytes (s.vread c va n)

/-- Set one byte of a context's virtual space; a byte of an unmapped frame is not written. -/
def State.setVbyte (s : State) (c va : Nat) (b : Byte) : State :=
  match s.translate c va with
  | some pa => { s with mem := Tab.set 0 s.mem pa b }
  | none => s

/-- Set bytes from `va` up. -/
def State.vwrite (s : State) (c va : Nat) : List Byte → State
  | [] => s
  | b :: bs => (s.setVbyte c va b).vwrite c (va + 1) bs

/-- The hub of a physical address (R27). -/
def hubOf (pa : Nat) : Nat :=
  if pa < 2 ^ 40 then pa / 2 ^ 13 % 4 else pa / 2 ^ 14 % 4

/-- The virtual frames that a byte range touches. -/
def framesOf (va n : Nat) : List Nat :=
  if n = 0 then [] else
    (List.range ((va + n - 1) / frameBytes - va / frameBytes + 1)).map (va / frameBytes + ·)

/-- The hub that holds the watch entry of a physical 64 KiB granule (R418, log 17). -/
def granuleHub (pa : Nat) : Nat := pa / 65536 % 4

/-- An access gives the frames it touches, those of G under a view range, the current beat as AGE (R397, R420). -/
def State.touch (s : State) (c va n : Nat) : State :=
  let x := s.ctx c
  let vfs := (framesOf va n).map (s.viewFrame c)
  let maps := vfs.foldl (fun (m : Tab (Option Mapping)) vf =>
    match Tab.get none m vf with
    | some e => Tab.set none m vf (some { e with age := s.beat })
    | none => m) x.maps
  s.setCtx c { x with maps := maps }

/-- Mark STALE what watched prefetches derived from the written range (R418, R419): a prefetch's entry
`k` stands for the k-th 64 KiB granule of its source. -/
def State.markStale (s : State) (c va n : Nat) : State :=
  if n = 0 then s else
  let hit (p : Prefetch) (g : Nat) : Bool :=
    match s.translate c ((p.src / 65536 + g) * 65536) with
    | none => false
    | some pa => (List.range ((va + n - 1) / 65536 - va / 65536 + 1)).any (fun k =>
        match s.translate c ((va / 65536 + k) * 65536) with
        | some pb => pa / 65536 == pb / 65536
        | none => false)
  let marks (p : Prefetch) : List Nat :=
    if p.watch then
      (List.range ((p.src + p.len + p.ra - 1) / 65536 - p.src / 65536 + 1)).filter
        (fun g => hit p g && !p.stale.contains g)
    else []
  let s' := { s with prefetches := s.prefetches.map (fun p => { p with stale := p.stale ++ marks p }) }
  (s.prefetches.flatMap (fun p => (marks p).map (fun g => (p.src / 65536 + g) * 65536))).foldl
    (fun t va => t.bump Reg.MT_PF_STALE_COUNT (granuleHub ((s.translate c va).getD 0))) s'

/-- A write of a strand, an engine, an incoming frame or a service: bytes, ages and STALE marks. -/
def State.store (s : State) (c va : Nat) (bs : List Byte) : State :=
  ((s.vwrite c va bs).touch c va bs.length).markStale c va bs.length

/-! ### Tile stores and group stores -/

/-- Bytes of a 512 B tile-store unit (R121). -/
def unitBytes : Nat := 512
/-- Units of a tile store: 3 MiB (R121). -/
def tileUnits : Nat := 6144

/-- Bytes of a core's tile store from byte address `at_` up. -/
def State.tread (s : State) (core at_ n : Nat) : List Byte := Tab.range 0 (s.core core).tile at_ n

/-- A stationary tile notices a write of `n` bytes from `at_` into its source (R468). -/
def StatTile.notice (t : StatTile) (at_ n : Nat) : StatTile :=
  if t.src.any (fun r => decide (r.1 * unitBytes < at_ + n ∧ at_ < (r.1 + r.2) * unitBytes))
  then { t with written := true } else t

/-- Write bytes into a core's tile store. The accumulator marks of the units written are cleared (R197),
and the stationary tiles of the array and of the products in flight notice a write into their source. -/
def State.twrite (s : State) (core at_ : Nat) (bs : List Byte) : State :=
  let c := s.core core
  let stat := c.stat.map (fun t => t.notice at_ bs.length)
  let prods := c.prods.map (fun p => { p with tile := p.tile.notice at_ bs.length })
  let units := if bs.length = 0 then 0 else (at_ + bs.length - 1) / unitBytes - at_ / unitBytes + 1
  let marks := (List.range units).foldl (fun t k => Tab.set none t (at_ / unitBytes + k) none) c.marks
  s.setCore core { c with tile := Tab.setRange 0 c.tile at_ bs, stat := stat, prods := prods, marks := marks }

/-- The accumulator mark of a unit (R197): the anchor of the accumulators it holds, or none. -/
def State.mark (s : State) (core u : Nat) : Option Int := Tab.get none (s.core core).marks u

/-- Set the marks of `n` units from `u` up. -/
def State.setMarks (s : State) (core u n : Nat) (m : Option Int) : State :=
  let c := s.core core
  s.setCore core { c with marks := (List.range n).foldl (fun t k => Tab.set none t (u + k) m) c.marks }

/-! ### Issue (R75, R118, R143) -/

/-- The condition of PRED and PNEG (R117). Predicate p0 reads 1 (R73). -/
def Strand.pred (t : Strand) (n : Nat) : Bool := n == 0 || t.preds.getLsbD n

/-- Set a predicate; a write to p0 is discarded (R73). -/
def Strand.setPred (t : Strand) (n : Nat) (v : Bool) : Strand :=
  if n = 0 then t
  else { t with preds := if v then t.preds ||| BitVec.ofNat 8 (2 ^ n)
                         else t.preds &&& ~~~ BitVec.ofNat 8 (2 ^ n) }

/-- Whether the instruction's condition holds (R117). -/
def Strand.cond (t : Strand) (p : Pred) : Bool := t.pred p.pred.toNat != p.pneg

/-- Scalar register. -/
def Strand.s (t : Strand) (n : Nat) : W64 := Tab.get 0 t.sreg n
/-- Address register. -/
def Strand.a (t : Strand) (n : Nat) : W64 := Tab.get 0 t.areg n
/-- Loop counter. -/
def Strand.lcv (t : Strand) (n : Nat) : Nat := (Tab.get 0 t.lc n : W32).toNat

/-- The iteration index of a counter (R122): COUNT − lcN of the enclosing loop that uses it. -/
def Strand.iter (t : Strand) (n : Nat) : Nat :=
  match t.loops.find? (fun f => f.lc == n) with
  | some f => f.count - t.lcv n
  | none => 0

/-- Control reaches instruction `pc`: at the end of a loop body the counter is decremented and the body
repeated, or the loop is left (R82, R122). Loops are held innermost first. -/
def loopBack (lc : Tab W32) (pc : Nat) : List LoopFrame → Tab W32 × Nat × List LoopFrame
  | [] => (lc, pc, [])
  | f :: fs =>
    if pc = f.last then
      let n : W32 := Tab.get 0 lc f.lc
      if 1 < n.toNat then (Tab.set 0 lc f.lc (n - 1), f.first, f :: fs) else loopBack lc pc fs
    else (lc, pc, f :: fs)

/-- The strand goes on at instruction `pc`. -/
def Strand.goto (t : Strand) (pc : Nat) : Strand :=
  let r := loopBack t.lc pc t.loops
  { t with lc := r.1, pc := BitVec.ofNat 32 r.2.1, loops := r.2.2 }

/-- The strand has done its instruction and goes on at the next one. -/
def State.advance (s : State) (a : Site) : State :=
  let t := s.strand a
  s.setStrand a (t.goto (t.pc.toNat + 1))

/-- A strand that can issue: it runs, and no read or page write of its own is held. -/
def Strand.ready (t : Strand) : Bool := t.st == .run && t.held.isNone && t.kvWait.isNone

/-- A strand whose product failed its check stays stopped until the relief replay ends (R173, R468). -/
def State.frozenAt (s : State) (core strand : Nat) : Bool :=
  (s.core core).relief.any (fun r => r.2.strand == strand)

/-- The same of a strand by its site. -/
def State.frozen (s : State) (a : Site) : Bool := s.frozenAt a.core.val a.strand.val

/-- A strand that its core can issue from. -/
def State.ready (s : State) (a : Site) : Bool := (s.strand a).ready && !s.frozen a

/-- The core's next ready strand after the one that has parked, ascending and wrapping (R75). -/
def State.nextStrand (s : State) (c : Fin 96) (cur : Fin 4) : Option (Fin 4) :=
  (([1, 2, 3, 0] : List (Fin 4)).map (cur + ·)).find? (fun n => s.ready ⟨c, n⟩)

/-- A core whose strand has parked switches to its next ready strand; with none it waits for the first that becomes
ready (R75). -/
def State.switchCore (s : State) (c : Fin 96) : State :=
  let k := s.core c.val
  match s.nextStrand c k.cur with
  | some n => s.setCore c.val { k with cur := n, left := false }
  | none => s.setCore c.val { k with left := true }

/-- The strand parks or stops: the core issues from its next ready strand (R75). -/
def State.switchFrom (s : State) (a : Site) : State :=
  if (s.core a.core.val).cur = a.strand then s.switchCore a.core else s

/-- A strand has become ready: a core that had none to switch to now switches (R75). -/
def State.woken (s : State) (c : Fin 96) : State := if (s.core c.val).left then s.switchCore c else s

/-- A strand that has parked or stopped: its core may switch to another (R75). A strand that waits for a
remote page or a free frame stalls without parking, and keeps the core. -/
def State.parked (s : State) (a : Site) : Bool := (s.strand a).st != .run || s.frozen a

/-- Whether the strand is the one its core issues from: the core's current strand, or the next ready
strand once the current one has parked or stopped (R75); a debug halt holds the context's strands (R523). In the guard
only a strand that has overrun runs on (R49, R60). -/
def State.canIssue (s : State) (a : Site) : Bool :=
  let k := s.core a.core.val
  s.ready a && !s.sec.halted.contains (s.running.getD 16)
  && s.running.isSome && (!s.bt.inGuard || (s.strand a).overrun)
  && (if k.left || s.parked ⟨a.core, k.cur⟩ then s.nextStrand a.core k.cur == some a.strand else k.cur == a.strand)

/-- A strand issues an instruction: the core now issues from it. -/
def State.issueFrom (s : State) (a : Site) : State :=
  let c := s.core a.core.val
  if c.cur = a.strand ∧ c.left = false then s else s.setCore a.core.val { c with cur := a.strand, left := false }

/-- The frame of every strand instruction: nothing when the strand cannot issue (log 5); only the PC
moves on when the condition is false (R118); else the instruction's own effect. -/
def State.issue (s : State) (a : Site) (p : Pred) (body : State → State) : State :=
  if s.canIssue a then
    let s := s.issueFrom a
    if (s.strand a).cond p then body s else s.advance a
  else s

/-- The condition of an instruction without one (R119). -/
def noPred : Pred := ⟨0, false⟩

/-- The first cause that applies, in the order R112 judges them: ascending, ALIGN before ADDR. -/
def firstCause (l : List (Bool × Nat)) : Option Nat :=
  (([0x01, 0x02, 0x03, 0x04, 0x05, 0x07, 0x06] ++ (List.range 7).map (· + 8)).find?
    (fun c => l.any (fun x => x.1 && x.2 == c)))

/-- Run the body, or stop the strand with the first cause that applies. -/
def State.guarded (s : State) (a : Site) (l : List (Bool × Nat)) (body : State → State) : State :=
  match firstCause l with
  | some c => s.strandError a c
  | none => body s

/-- Bytes of flash that generations and pool frames may fill: 30 TB (R426). -/
def flashBytes : Nat := 30 * 10 ^ 12

end Sys2Proof.Machine
end

