-- ==== Sys2Proof/Machine/Sha.lean ====
section
/-!
DEFINITION. Machine/Sha.lean: the two standard check functions the spec names: SHA-384 (R84, R519) and
CRC-32C (R531). The round constants of SHA-384 are computed from their definition: fractional parts of
the cube roots and square roots of primes.
-/

namespace Sys2Proof.Machine

/-- The largest r below 2 ^ `fuel` (added to `acc`) whose power `e` is at most `n`. -/
def rootBits (e n : Nat) : Nat → Nat → Nat
  | 0, acc => acc
  | fuel + 1, acc =>
    let c := acc + 2 ^ fuel
    rootBits e n fuel (if c ^ e ≤ n then c else acc)

/-- The integer square root. -/
def isqrt (n : Nat) : Nat := rootBits 2 n (Nat.log2 n / 2 + 1) 0

/-- The first 80 primes. -/
def primes80 : List Nat :=
  ((List.range 410).filter (fun n => decide (2 ≤ n) &&
    (List.range 20).all (fun k => decide (k + 2 ≥ n) || decide (n % (k + 2) ≠ 0)))).take 80

/-- Round constants of SHA-384. -/
def shaK : List W64 := primes80.map (fun p => BitVec.ofNat 64 (rootBits 3 (p * 2 ^ 192) 70 0))

/-- Initial state of SHA-384: primes 9 to 16. -/
def shaInit : List W64 :=
  ((primes80.drop 8).take 8).map (fun p => BitVec.ofNat 64 (rootBits 2 (p * 2 ^ 128) 70 0))

/-- Rotate right. -/
def ror (x : W64) (n : Nat) : W64 := (x >>> n) ||| (x <<< (64 - n))

/-- Extend a 16-word block to 80 words; the list is held newest first. -/
def shaSchedule : Nat → List W64 → List W64
  | 0, w => w
  | n + 1, w =>
    let a := w.getD 1 0
    let b := w.getD 14 0
    let s1 := ror a 19 ^^^ ror a 61 ^^^ (a >>> 6)
    let s0 := ror b 1 ^^^ ror b 8 ^^^ (b >>> 7)
    shaSchedule n ((w.getD 15 0 + s0 + w.getD 6 0 + s1) :: w)

/-- One round. -/
def shaRound (v : List W64) (kw : W64 × W64) : List W64 :=
  match v with
  | [a, b, c, d, e, f, g, h] =>
    let t1 := h + (ror e 14 ^^^ ror e 18 ^^^ ror e 41) + ((e &&& f) ^^^ (~~~e &&& g)) + kw.1 + kw.2
    let t2 := (ror a 28 ^^^ ror a 34 ^^^ ror a 39) + ((a &&& b) ^^^ (a &&& c) ^^^ (b &&& c))
    [t1 + t2, a, b, c, d + t1, e, f, g]
  | v => v

/-- Big-endian value of a byte list. -/
def ofBytesBe (bs : List Byte) : Nat := ofBytes bs.reverse

/-- One 128-byte block. -/
def shaBlock (v : List W64) (blk : List Byte) : List W64 :=
  let ws := (List.range 16).map (fun k => BitVec.ofNat 64 (ofBytesBe ((blk.drop (8 * k)).take 8)))
  let w := (shaSchedule 64 ws.reverse).reverse
  List.zipWith (· + ·) v ((shaK.zip w).foldl shaRound v)

/-- All blocks of a padded message. -/
def shaBlocks : Nat → List W64 → List Byte → List W64
  | 0, v, _ => v
  | n + 1, v, m => shaBlocks n (shaBlock v (m.take 128)) (m.drop 128)

/-- SHA-384 of a message. -/
def sha384 (m : List Byte) : BitVec 384 :=
  let n := m.length
  let zeros := (239 - n % 128) % 128
  let p := m ++ [0x80] ++ List.replicate zeros 0 ++ (toBytes 16 (8 * n)).reverse
  let v := shaBlocks (p.length / 128) shaInit p
  BitVec.ofNat 384 ((v.take 6).foldl (fun a w => a * 2 ^ 64 + w.toNat) 0)

/-- The 48 bytes of a digest, in the order SHA-384 gives them. -/
def digestBytes (d : BitVec 384) : List Byte := (toBytes 48 d.toNat).reverse

/-- One byte of CRC-32C: reflected polynomial 0x82F63B78. -/
def crcByte (c : BitVec 32) (b : Byte) : BitVec 32 :=
  (List.range 8).foldl
    (fun c _ => if c.getLsbD 0 then (c >>> 1) ^^^ 0x82F63B78 else c >>> 1) (c ^^^ b.setWidth 32)

/-- CRC-32C of a byte list. -/
def crc32c (m : List Byte) : BitVec 32 := ~~~ (m.foldl crcByte 0xFFFFFFFF)

end Sys2Proof.Machine
end

