-- ==== Sys2Proof/Machine/Image.lean ====
section
/-!
DEFINITION. Machine/Image.lean: reading a base image (R84 to R97, R271, R364, R365, R450, R452) and the
plans as the fault history re-derives them (R454, R484).
-/

namespace Sys2Proof.Machine

/-- A little-endian field of a byte list. -/
def fld (b : List Byte) (off n : Nat) : Nat := ofBytes ((b.drop off).take n)

/-- Bits `lo` to `lo + w - 1` of a value. -/
def bits (v lo w : Nat) : Nat := v / 2 ^ lo % 2 ^ w

/-- Section `i` of an image: its offset and length (R84). -/
def secRange (img : List Byte) (i : Nat) : Nat × Nat :=
  (fld img (64 + 16 * i) 8, fld img (72 + 16 * i) 8)

/-- The bytes of section `i` (R85). -/
def section_ (img : List Byte) (i : Nat) : List Byte :=
  (img.drop (secRange img i).1).take (secRange img i).2

/-- A program entry (R86). -/
structure ProgEntry where
  core : Nat
  strand : Nat
  enable : Bool
  entry : Nat
  length : Nat
  init : Option Nat
deriving DecidableEq, Repr

/-- Read a program entry at an offset. -/
def progEntry (b : List Byte) (off : Nat) : ProgEntry :=
  { core := bits (fld b off 1) 0 7, strand := bits (fld b (off + 1) 1) 0 2
    enable := bits (fld b (off + 1) 1) 7 1 == 1, entry := fld b (off + 4) 4
    length := fld b (off + 8) 4
    init := if fld b (off + 12) 4 = 0xFFFFFFFF then none else some (fld b (off + 12) 4) }

/-- `n` program entries from an offset. -/
def progEntries (b : List Byte) (off n : Nat) : List ProgEntry :=
  (List.range n).map (fun k => progEntry b (off + 16 * k))

/-- An overlay record: its header bytes, and its entries (R91, R93, R97). -/
structure Overlay where
  off : Nat
  head : List Byte
  entries : List ProgEntry
deriving DecidableEq, Repr

/-- The overlay records of a section: a 16-byte header whose field at `cntOff` of `cntLen` bytes gives
the number of entries that follow; of a record that its section cuts off, the entries that begin in it. -/
def overlays (b : List Byte) (cntOff cntLen : Nat) : Nat → Nat → List Overlay
  | 0, _ => []
  | fuel + 1, off =>
    if b.length ≤ off then []
    else
      let head := (b.drop off).take 16
      let n := min (fld head cntOff cntLen) ((b.length - off) / 16)
      { off := off, head := head, entries := progEntries b (off + 16) n }
        :: overlays b cntOff cntLen fuel (off + 16 + 16 * n)

/-- MODE_OVL records (R91). -/
def modeOvls (img : List Byte) : List Overlay :=
  let b := section_ img 5
  overlays b 8 4 (b.length / 16 + 1) 0
/-- FENCE_OVL records (R93). -/
def fenceOvls (img : List Byte) : List Overlay :=
  let b := section_ img 6
  overlays b 4 2 (b.length / 16 + 1) 0
/-- SURVIVOR records (R97). -/
def survivorOvls (img : List Byte) : List Overlay :=
  let b := section_ img 7
  overlays b 4 2 (b.length / 16 + 1) 0

/-- The INIT offsets that the overlays name. -/
def ovlInits (img : List Byte) : List Nat :=
  (modeOvls img ++ fenceOvls img ++ survivorOvls img).flatMap
    (fun o => o.entries.filterMap (·.init))

/-- The bytes of STRAND that hold program entries: up to the lowest INIT offset that any entry of the
image names, else all (R87). An entry counts while it lies below the lowest offset found so far. -/
def strandEntryBytes (img : List Byte) : Nat :=
  let b := section_ img 1
  let all := progEntries b 0 (b.length / 16)
  let start := (ovlInits img).foldl min b.length
  ((List.range all.length).foldl (fun lim k =>
      if 16 * k + 16 ≤ lim then
        match (all.getD k (progEntry [] 0)).init with
        | some i => min lim i
        | none => lim
      else lim) start)

/-- The base program entries (R86, R87). -/
def basePrograms (img : List Byte) : List ProgEntry :=
  progEntries (section_ img 1) 0 (strandEntryBytes img / 16)

/-- GROUPS, PERIOD, OVR_FAULT and STEP_BEATS of the header (R84). -/
def imgGroups (img : List Byte) : Nat := fld img 6 1
/-- PERIOD. -/
def imgPeriod (img : List Byte) : Nat := bits (fld img 7 1) 0 2
/-- OVR_FAULT. -/
def imgOvrFault (img : List Byte) : Bool := bits (fld img 7 1) 2 1 == 1

/-- STEP_BEATS of a mode (R84, R91). -/
def imgStepBeats (img : List Byte) (mode : Nat) : Nat :=
  match (modeOvls img).find? (fun o => mode != 0 && fld o.head 0 1 == mode) with
  | some o => fld o.head 4 4
  | none => fld img 8 4

/-- DIGEST of the header as bytes (R84). -/
def imgDigestField (img : List Byte) : List Byte := (img.drop 16).take 48

/-- SHA-384 of the image with the DIGEST field as zero (R84). -/
def imgDigest (img : List Byte) : List Byte :=
  digestBytes (sha384 (img.take 16 ++ List.replicate 48 0 ++ img.drop 64))

/-- A sync-table record (R88). -/
structure SyncRec where
  index : Nat
  hold : Bool
  rhold : Bool
  core : Nat
  count : Nat
  thresh : Nat
  node : Nat
deriving DecidableEq, Repr

/-- The records of SYNC (R88). -/
def syncRecs (img : List Byte) : List SyncRec :=
  let b := section_ img 2
  (List.range (b.length / 16)).map (fun k =>
    let o := 16 * k
    { index := bits (fld b o 2) 0 13, hold := bits (fld b (o + 2) 1) 0 1 == 1
      rhold := bits (fld b (o + 2) 1) 1 1 == 1, core := fld b (o + 3) 1, count := fld b (o + 4) 4
      thresh := fld b (o + 8) 4, node := bits (fld b (o + 12) 2) 0 15 })

/-- The scalar and address registers an init block sets (R87). -/
def initRegs (img : List Byte) (off : Nat) : List (Nat × W64) × List (Nat × W64) :=
  let b := section_ img 1
  let sm := (List.range 32).filter (fun n => bits (fld b off 4) n 1 == 1)
  let am := (List.range 16).filter (fun n => bits (fld b (off + 4) 2) n 1 == 1)
  let vals (regs : List Nat) (o : Nat) : List (Nat × W64) :=
    (regs.zip (List.range regs.length)).map (fun e => (e.1, BitVec.ofNat 64 (fld b (o + 8 * e.2) 8)))
  (vals sm (off + 8), vals am (off + 8 + 8 * sm.length))

/-! ### ROOTS (R271) -/

/-- The ROOTS header. -/
structure Roots where
  layers : Nat
  heads : Nat
  fmt : Nat
  hbmFrames : Nat
  hbmBase : Nat
  lpFrames : Nat
  lpBase : Nat
  ftab : Nat
  stab : Nat
  ring : Nat
  ringN : Nat
  doorbell : Nat
  rcFrames : Nat
  hdim : Nat
deriving DecidableEq, Repr

/-- The ROOTS header of an image; none when the section is absent. -/
def imgRoots (img : List Byte) : Option Roots :=
  let b := section_ img 3
  if b.length = 0 then none
  else some
    { layers := fld b 0 2, heads := fld b 2 1, fmt := fld b 3 1, hbmFrames := fld b 4 4
      hbmBase := fld b 8 8, lpFrames := fld b 16 4, lpBase := fld b 20 8, ftab := fld b 28 8
      stab := fld b 36 8, ring := fld b 44 8, ringN := fld b 52 2, doorbell := bits (fld b 54 2) 0 13
      rcFrames := fld b 56 4, hdim := bits (fld b 60 1) 0 4 }

/-- View entry `v` of ROOTS: slot, layer, head; none when VALID is 0. -/
def viewEntry (img : List Byte) (v : Nat) : Option (Nat × Nat × Nat) :=
  let w := fld (section_ img 3) (64 + 4 * v) 4
  if bits w 31 1 = 1 then some (bits w 0 8, bits w 8 10, bits w 18 6) else none

/-! ### PLANS (R450) -/

/-- A PLANS record. -/
structure PlanRec where
  off : Nat
  kind : Nat
  flags : Nat
  part : Nat
  head : List Byte
  body : List Byte
deriving DecidableEq, Repr

/-- The records of PLANS from an offset (R450). -/
def planRecs (b : List Byte) : Nat → Nat → List PlanRec
  | 0, _ => []
  | fuel + 1, off =>
    if b.length ≤ off then []
    else
      let n := fld b (off + 4) 4
      { off := off, kind := fld b off 2, flags := fld b (off + 2) 1, part := fld b (off + 3) 1
        head := (b.drop off).take 16, body := (b.drop (off + 16)).take n }
        :: planRecs b fuel ((off + 16 + n + 15) / 16 * 16)

/-- All plans of an image, numbered from 0. -/
def imgPlans (img : List Byte) : List PlanRec :=
  let b := section_ img 4
  planRecs b (b.length / 16 + 1) 0

/-- Members N of a plan body and the offset of its member table (R450, R452, R291). -/
def PlanRec.table (r : PlanRec) : Nat × Nat :=
  if r.kind = 4 then (fld r.body 0 2, 48)
  else if r.kind = 3 then (fld r.body 24 2, 32)
  else if r.kind = 5 then (0, 0)
  else (fld r.body 0 2, 32)

/-- The member table of a plan as the image holds it. -/
def PlanRec.members0 (r : PlanRec) : List Nat :=
  (List.range r.table.1).map (fun k => bits (fld r.body (r.table.2 + 2 * k) 2) 0 15)

/-- An entry of a member table after the fences of the job (R454, R484): in CIRC tables a failed node
is replaced by its LEFT, elsewhere by the holder of its primary set. -/
def replaceNode (circ : Bool) (n : Nat) (f : FailedNode) : Nat :=
  if n = f.node then (if circ then f.left else f.holder).getD n else n

/-- The member table of a plan in the fault history of the job. -/
def PlanRec.members (r : PlanRec) (fm : FaultMap) : List Nat :=
  r.members0.map (fun n => fm.failed.foldl (replaceNode (r.kind == 4)) n)

/-- The nodes that all plans of an image name (R539). -/
def imgNodes (img : List Byte) : List Nat :=
  ((imgPlans img).flatMap PlanRec.members0).eraseDups.stableSort (· ≤ ·)

/-- The gather pool's record (R364): VBASE, ESIZE, NENT, FRAMES, ETAB. -/
structure PoolRec where
  vbase : Nat
  esize : Nat
  nent : Nat
  frames : Nat
  etab : Nat
deriving DecidableEq, Repr

/-- The POOL record of an image. -/
def imgPool (img : List Byte) : Option PoolRec :=
  ((imgPlans img).find? (fun r => r.kind == 5)).map (fun r =>
    { vbase := fld r.body 0 8, esize := fld r.body 8 8, nent := fld r.body 16 2
      frames := fld r.body 20 4, etab := fld r.body 24 8 })

/-- The image of the running context. -/
def State.image (s : State) : Option (List Byte) :=
  match s.running with
  | some c => (s.ctx c).image
  | none => none

/-- The bytes of the running context's image; empty when there is none. -/
def State.img (s : State) : List Byte := s.image.getD []

/-- The gather-pool entry whose window holds a virtual address (R364, R365). -/
def State.poolEntryAt (s : State) (va : Nat) : Option (PoolRec × Nat) :=
  match imgPool s.img with
  | some p =>
    if p.vbase ≤ va ∧ va < p.vbase + p.esize * p.nent ∧ 0 < p.esize
    then some (p, (va - p.vbase) / p.esize) else none
  | none => none

/-- STATE of a gather-pool entry (R366). -/
def State.poolState (s : State) (p : PoolRec) (e : Nat) : Nat :=
  match s.running with
  | some c => bits (s.vfield c (p.etab + 32 * e) 8) 0 3
  | none => 0

/-! ### Demand accesses (R396) -/

/-- Whether a demand access to one frame is allowed: mapped in the running context, not RO when it
writes, not in a gather-pool window that is not READY (R396, R368). -/
def State.frameOk (s : State) (c vf : Nat) (write : Bool) : Bool :=
  match s.mapping c vf with
  | none => false
  | some m =>
    !(write && m.ro) &&
      (match s.poolEntryAt (vf * frameBytes) with
       | some (p, e) => s.poolState p e == 2
       | none => true)

/-- Whether a demand access to a byte range is allowed, judged frame by frame (R396). -/
def State.accessOk (s : State) (c va n : Nat) (write : Bool) : Bool :=
  (framesOf va n).all (fun vf => s.frameOk c vf write)

/-- Whether some frame of the range is being moved by the pool: a demand write waits (R423). -/
def State.moveHolds (s : State) (c va n : Nat) : Bool :=
  (framesOf va n).any (fun vf => (s.mapping c vf).any (fun m => m.moving.isSome))

/-- A view address has bits [47:45] = 0b111 (R276). -/
def isView (va : Nat) : Bool := bits va 45 3 == 7

end Sys2Proof.Machine
end

