-- ==== Sys2Proof/Machine/Flags.lean ====
section
/-!
DEFINITION. Machine/Flags.lean: the flags of a core and the verdict contribution of the device
(R208 to R210, R379), and what the checks of the hardware report (R467 to R474).
-/

namespace Sys2Proof.Machine

/-- Set a bit of this device's verdict contribution. After the cut it counts for the next step
(R379, R383). -/
def State.contribute (s : State) (bit : Nat) : State :=
  { s with step := { s.step with contrib := s.step.contrib ||| BitVec.ofNat 16 (2 ^ bit) } }

/-- The step flag of a core (R208). -/
def State.stepFlag (s : State) (core : Nat) : State :=
  (s.put Reg.CORE_NUM_FLAGS_STEP_FLAG 1 core).contribute 0

/-- NONFIN (R190, R208 to R210): the flag, the step flag, the count, and NUM_NONFINITE at the core's
first occurrence in the step. `src`: 0 scan, 1 product, 2 conversion. -/
def State.nonfin (s : State) (core strand src idx : Nat) : State :=
  let s := ((s.put Reg.CORE_NUM_FLAGS_NONFIN 1 core).bump Reg.CORE_NUM_NONFIN_COUNT core).stepFlag core
  if (s.core core).nonfinSent then s
  else
    let s := s.event 0x0301 (strand + src * 4 + idx % 2 ^ 28 * 16) core
    s.setCore core { s.core core with nonfinSent := true }

/-- SAT (R193, R194, R208). -/
def State.saturated (s : State) (core : Nat) : State :=
  (s.put Reg.CORE_NUM_FLAGS_SAT 1 core).stepFlag core

/-! ### Core faults (R467 to R473) -/

/-- The cores of `core`'s group after it, ascending with wrap. -/
def groupMates (core : Nat) : List Nat := (List.range 7).map (fun k => core / 8 * 8 + (core % 8 + k + 1) % 8)

/-- The relief partner of a core: the next core of its group that is not fenced (R467). -/
def State.reliefOf (s : State) (core : Nat) : Option Nat :=
  (groupMates core).find? (fun c => !s.flt.fenced.getLsbD c)

/-- `FLT_CFG.REPEAT`; 0 acts as 1 (R501). -/
def State.repeatSteps (s : State) : Nat := max 1 (s.get Reg.FLT_CFG_REPEAT)

/-- Whether a failure at this step is a second one within REPEAT committed steps (R470). -/
def State.again (s : State) (last : Option Nat) : Bool :=
  match last with
  | some k => decide (s.ueStep - k < s.repeatSteps)
  | none => false

/-- A core fence is decided (R470): CORE_FENCE is raised and FENCE contributed. -/
def State.decideFence (s : State) (core cause : Nat) : State :=
  if (s.core core).fenceDecided.isSome || s.flt.fenced.getLsbD core then s
  else
    let s := s.setCore core { s.core core with fenceDecided := some cause }
    (s.event 0x0901 (core + cause * 2 ^ 8) core).contribute 3

/-- A core fails in its array (0), a residue check (1) or its tile store (3): the second failure of a
kind within REPEAT committed steps decides a fence (R470). -/
def State.coreFail (s : State) (core cause : Nat) : State :=
  let c := s.core core
  let last := if cause = 0 then c.failArray else if cause = 1 then c.failResidue else c.failSram
  let decided := s.again last
  let now := some s.ueStep
  let c := if cause = 0 then { c with failArray := now }
    else if cause = 1 then { c with failResidue := now } else { c with failSram := now }
  let s := s.setCore core c
  if decided then s.decideFence core cause else s

/-- A residue failure of a vector operation (R471). -/
def State.residueFail (s : State) (core strand : Nat) : State :=
  (((s.contribute 1).bump Reg.FLT_RESIDUE_COUNT).event 0x0903 (core + strand * 2 ^ 7) core).coreFail core 1

/-- A group whose group store failed twice is fenced as a whole (R474, R36): the fence of its cores is
decided together. -/
def State.groupStoreFail (s : State) (g : Nat) : State :=
  let decided := s.again (s.group g).storeFail
  let s := s.setGroup g { s.group g with storeFail := some s.ueStep }
  if decided then (List.range 8).foldl (fun t k => t.decideFence (8 * g + k) 3) s else s

/-- A core fence decided, or a device-fence notice seen, and not yet committed (R379 bit 3). -/
def State.fencePending (s : State) : Bool :=
  (List.range 96).any (fun c => (s.core c).fenceDecided.isSome)
    || s.flt.notices.any (fun n => !s.isFenced n.notice.node.toNat)

/-! ### Memory errors (R474) -/

/-- The place code of ECC_UNCORRECTED (R502); a frame names HBM or LPDDR by its number. -/
def eccCode (p : EccPlace) (unit : Nat) : Nat :=
  match p with
  | .tileStore => 0
  | .groupStore => 1
  | .hbm => 2
  | .lpddr => 3
  | .workingCopy => if isHbm unit then 2 else 3
  | .stateInForce => 4
  | .heldCopy => 5

/-- One memory error: corrected errors are counted; the others are handled by their place. `named` is the
core its event names. -/
def State.eccError (s : State) (core : Nat) (e : EccReport) (named : Nat := core) : State :=
  if e.corrected then
    let s := s.bump Reg.FLT_ECC_CORR_COUNT
    match e.place with
    | .groupStore => s.bump Reg.GRP_STORE_ECC_COUNT (groupOf core)
    | _ => s
  else
    let s := (s.bump Reg.FLT_ECC_UNC_COUNT).event 0x0905 (eccCode e.place e.unit + e.unit % 2 ^ 24 * 2 ^ 8) named
    match e.place with
    | .tileStore => (s.contribute 1).coreFail core 3
    | .groupStore => (s.contribute 1).groupStoreFail (groupOf core)
    | .hbm => { (s.contribute 1) with flt := { s.flt with retire := s.flt.retire ++ [e.unit] } }
    | .lpddr => { (s.contribute 1) with flt := { s.flt with retire := s.flt.retire ++ [e.unit] } }
    | .workingCopy => { (s.contribute 1) with flt := { s.flt with map := { s.flt.map with derive := true } } }
    | .stateInForce => s.selfFence 10
    | .heldCopy => { s with flt := { s.flt with exposeDue := s.flt.exposeDue ++ [e.unit] } }

/-- Everything the checks report while one instruction runs. `vec` says a residue check covers it. -/
def State.report (s : State) (a : Site) (hw : HwReport) (vec : Bool := false) : State :=
  let s := hw.ecc.foldl (fun t e => t.eccError a.core.val e) s
  if vec && hw.residue then s.residueFail a.core.val a.strand.val else s

end Sys2Proof.Machine
end

