-- ==== Sys2Proof/WellFormed.lean ====
section
/-!
DEFINITION. WellFormed.lean: the limits the loader checks on one instruction (R89, R119, R144), and the
tile-store regions each instruction names (R121). An instruction that breaks a limit cannot execute
(R112, R120). Events, register accesses and pin events have no such limits.
-/

namespace Sys2Proof

/-- How an instruction uses a region. -/
inductive Use where
  | read | write | both
deriving DecidableEq, Repr

/-- A tile-store region: its operand, its size in 512 B units, its use, whether it is an MX operand that
must keep out of the scale slots (R154), and the tile size in units it must be aligned to (R144). -/
structure Region where
  op : Tsop
  units : Nat
  use : Use
  mx : Bool := false
  tile : Nat := 1
deriving DecidableEq, Repr

/-- Bytes of a row of 128 elements (R151, R211). -/
def rowSize (fmt : Nat) : Nat :=
  match fmt with
  | 0 => 256
  | 1 => 256
  | 4 => 96
  | 5 => 96
  | 6 => 64
  | 8 => 512
  | _ => 128

/-- 512 B units that hold `n` bytes. -/
def unitsOf (n : Nat) : Nat := (n + 511) / 512

/-- Units of a dense tile (R144, R151). -/
def tileOf (fmt : Nat) : Nat := rowSize fmt / 4

/-- Units of a stationary tile as stored: whole, half or a quarter (R144, R158). -/
def statTile (fmt sparse : Nat) : Nat :=
  if sparse = 1 then tileOf fmt / 2 else if sparse = 2 then tileOf fmt / 4 else tileOf fmt

/-- MX formats (R178). -/
def mxFmt (fmt : Nat) : Bool := decide (2 ≤ fmt ∧ fmt ≤ 7)

/-- A tile-store operand of zeros. -/
def Tsop.zero : Tsop := ⟨0, 0, 0⟩

/-- The streamed plane of an MMULW pass (R167). -/
def passPlane (mw pass : Nat) : Nat :=
  match mw, pass with
  | 0, 1 => 1
  | 1, 1 => 1
  | 1, 2 => 2
  | 1, 4 => 1
  | 2, 0 => 2
  | 2, 2 => 1
  | 3, 1 => 1
  | 3, 3 => 1
  | _, _ => 0

/-- The passes of a split (R133). -/
def passLimit (mw : Nat) : Nat :=
  match mw with
  | 0 => 3
  | 1 => 6
  | 2 => 3
  | _ => 4

/-- Units of the accumulator region of a product (R133, R166). -/
def MatF.accUnits (f : MatF) (mw : Bool) : Nat :=
  if mw && decide (2 ≤ f.mw.toNat) then 4 * f.rows.toNat else 2 * f.rows.toNat

/-- The regions of a product: streamed operand, accumulators, record. For MMULW the streamed operand is
the plane of its pass, from TSA + plane × ⌈ROWS/2⌉ units (R166). -/
def MatF.regions (f : MatF) (mw : Bool) : List Region :=
  let rows := f.rows.toNat
  let size := unitsOf (rows * rowSize f.fmtt.toNat)
  let plane := if mw then passPlane f.mw.toNat f.pass.toNat * ((rows + 1) / 2) else 0
  [ { op := f.tsa, units := plane + size, use := .read, mx := mxFmt f.fmtt.toNat
      tile := tileOf f.fmtt.toNat },
    { op := f.tsc, units := f.accUnits mw, use := .both },
    { op := f.tsx, units := 1, use := .both } ]

/-- Which operands a vector instruction has (R137). -/
structure VecShape where
  usesA : Bool
  usesB : Bool
  usesC : Bool
  rowB : Bool := false
  rowC : Bool := false
  rowD : Bool := false
deriving DecidableEq, Repr

/-- The regions of a vector instruction with sources read as rows of FMT (R211, R212). -/
def VecF.regions (f : VecF) (v : VecShape) (mxOut : Bool) : List Region :=
  let rows := 2 * f.vl.toNat
  let el := unitsOf (rows * rowSize f.fmt.toNat)
  let rv := unitsOf (4 * rows)
  let mx := mxFmt f.fmt.toNat
  (if v.usesA then [{ op := f.tsa, units := el, use := .read, mx := mx }] else []) ++
  (if v.usesB then [{ op := f.tsb, units := if v.rowB then rv else el, use := .read
                      mx := mx && !v.rowB }] else []) ++
  (if v.usesC then [{ op := f.tsc, units := if v.rowC then rv else el
                      use := if v.rowC then .both else .read, mx := mx && !v.rowC }] else []) ++
  [{ op := f.tsd, units := if v.rowD then rv else unitsOf (rows * rowSize f.ofmt.toNat), use := .write
     mx := mxFmt f.ofmt.toNat && !v.rowD }] ++
  (if mxOut then [{ op := f.tsc, units := rv, use := .write }] else [])

/-- Operands of each vector instruction by function. -/
def shapeAB : VecShape := ⟨true, true, false, false, false, false⟩
/-- One source. -/
def shapeA : VecShape := ⟨true, false, false, false, false, false⟩
/-- Two sources and an addend (VFMA). -/
def shapeABC : VecShape := ⟨true, true, true, false, false, false⟩
/-- VRED: one source, a row vector as result (R219). -/
def shapeRed : VecShape := ⟨true, false, false, false, false, true⟩
/-- VEXP: FUNC 1 takes m as a row vector (R212). -/
def shapeExp (func : Nat) : VecShape := ⟨true, func == 1, false, true, false, false⟩
/-- VSCAN: FUNC 0 reads b; LINREC reads a, b and the state row vector (R222). -/
def shapeScan (func : Nat) : VecShape := ⟨func == 1, true, func == 1, false, true, false⟩

/-- The page units and tile of a page format of ABLK (R138, R144, R232). -/
def pageTile (fmt : Nat) : Nat := if fmt = 0 then 64 else 32

/-- The tile-store regions an instruction names. -/
def Instr.regions : Instr → List Region
  | .pset _ _ _ src _ _ _ _ op _ => if src = 2 then [{ op := op, units := 1, use := .read }] else []
  | .ldt _ _ op _ len _ _ => [{ op := op, units := len.toNat, use := .write }]
  | .stt _ _ op _ len _ _ => [{ op := op, units := len.toNat, use := .read }]
  | .xfer _ _ op _ _ len _ _ => [{ op := op, units := len.toNat, use := .read }]
  | .gth _ _ op _ len _ op2 _ =>
    [{ op := op, units := unitsOf (32 * len.toNat), use := .write },
     { op := op2, units := unitsOf (4 * len.toNat), use := .read }]
  | .sct _ _ op _ len _ op2 _ =>
    [{ op := op, units := unitsOf (32 * len.toNat), use := .read },
     { op := op2, units := unitsOf (4 * len.toNat), use := .read }]
  | .mload _ _ tsa tsc fmt sp _ =>
    { op := tsa, units := statTile fmt.toNat sp.toNat, use := .read, mx := mxFmt fmt.toNat
      tile := statTile fmt.toNat sp.toNat } ::
    (if sp = 0 then [] else [{ op := tsc, units := if sp = 1 then 4 else 2, use := .read }])
  | .mmul _ _ f _ => f.regions false
  | .mmuls _ _ f _ => f.regions false
  | .mmulw _ _ f _ => f.regions true
  | .mscale _ _ tsa tsx rows fmtt _ _ _ =>
    [{ op := tsa, units := unitsOf (rows.toNat * rowSize fmtt.toNat), use := .read
       mx := mxFmt fmtt.toNat },
     { op := tsx, units := 1, use := .both }]
  | .vadd _ _ f _ => f.regions shapeAB false
  | .vmul _ _ f _ => f.regions shapeAB false
  | .vfma _ _ f _ => f.regions shapeABC false
  | .vmax _ _ f _ => f.regions shapeAB false
  | .vred _ _ f _ => f.regions shapeRed false
  | .vscan _ _ f _ => f.regions (shapeScan f.func.toNat) false
  | .vexp _ _ f _ => f.regions (shapeExp f.func.toNat) false
  | .vact _ _ f _ => f.regions shapeA false
  | .vder _ _ f _ => f.regions shapeAB false
  | .vcvt _ _ f _ => f.regions shapeA (mxFmt f.ofmt.toNat)
  | .ablk _ _ tsq tskv tsst fmt _ _ _ _ _ bwd _ _ =>
    let t := pageTile fmt.toNat
    [{ op := tsq, units := if bwd then 2 * t else t, use := .read, tile := t },
     { op := tskv, units := if bwd then 2 * t + 514 else 2 * t, use := if bwd then .both else .read, tile := t },
     { op := tsst, units := 130, use := .both }]
  | .asel _ _ tsq tssum tslist _ _ _ _ _ _ _ _ nsum1 _ =>
    [{ op := tsq, units := 64, use := .read },
     { op := tssum, units := unitsOf (256 * (nsum1.toNat + 1)), use := .read },
     { op := tslist, units := 8, use := .both }]
  | .kvapp _ _ tsacc tsx _ _ _ _ _ _ _ rows1 _ _ =>
    [{ op := tsacc, units := 2 * (rows1.toNat + 1), use := .read },
     { op := tsx, units := 1, use := .read }]
  | .rtopk _ _ tsl tsd e1 _ ntok _ _ =>
    [{ op := tsl, units := unitsOf (4 * (e1.toNat + 1) * ntok.toNat), use := .read },
     { op := tsd, units := unitsOf (64 * ntok.toNat), use := .write }]
  | .disp _ _ tssel _ _ _ _ ntok _ => [{ op := tssel, units := unitsOf (64 * ntok.toNat), use := .both }]
  | .cmb _ _ tsd tssel _ ntok _ ofmt _ =>
    [{ op := tsd, units := unitsOf (rowSize ofmt.toNat * ntok.toNat), use := .write },
     { op := tssel, units := unitsOf (64 * ntok.toNat), use := .read }]
  | _ => []

/-- A tile-store operand within the limits of its fields: BASE up to 6,143, STEP not 15 (R121, R144). -/
def Tsop.wf (o : Tsop) : Bool := decide (o.base.toNat < 6144) && decide (o.step.toNat ≠ 15)

/-- A region the loader accepts: its operand is within its limits; without a loop term it lies in the tile
store, out of the scale slots for an MX operand, and on its tile (R121, R144, R154). -/
def Region.wf (r : Region) : Bool :=
  r.op.wf &&
  (decide (r.op.step.toNat ≠ 0) ||
    (decide (r.op.base.toNat + r.units ≤ 6144) &&
     (!r.mx || decide (r.op.base.toNat + r.units ≤ 5760)))) &&
  decide (r.op.base.toNat % r.tile = 0)

/-- No instruction has PRED 0 with PNEG 1 (R119). -/
def Pred.wf (p : Pred) : Bool := !(p.pred == 0 && p.pneg)

/-- A length field that must be from 1 to its limit (R144). -/
def inRange (n limit : Nat) : Bool := decide (1 ≤ n ∧ n ≤ limit)

/-- Traffic partitions are 0 to 5 (R130). -/
def partOk (p : BitVec 3) : Bool := decide (p.toNat ≤ 5)

/-- SCALE of ABLK: a positive normal finite BF16 value, or −∞ (R243). -/
def scaleOk (s : BitVec 16) : Bool := s == 0xFF80 || decide (0x0080 ≤ s.toNat ∧ s.toNat < 0x7F80)

/-- Output codes of instructions other than VCVT (R137). -/
def ofmtOk (o : BitVec 4) : Bool := o == 0 || o == 1 || o == 8

/-- The limits of a product (R133, R144). DESIGN CHOICE (log 78): ANCH 2 and 3 are rejected whatever ACCUM is; R133
reserves them with ACCUM = 0, and R134 ignores ANCH with ACCUM = 1. -/
def MatF.wf (f : MatF) : Bool :=
  inRange f.rows.toNat 4096 && decide (f.fmts.toNat ≤ 7) && decide (f.fmtt.toNat ≤ 7)
  && decide (f.anch.toNat ≤ 1) && decide (f.mw.toNat ≤ 3)

/-- Two operands move alike: neither has a loop term, or both have the same one (R121). -/
def sameTerm (a b : Tsop) : Bool := a.step == b.step && (a.step == 0 || a.lc == b.lc)

/-- Two regions overlap partly in a way that the code shows (R216): whatever the loop counters hold, they start apart and
share units. -/
def partialOverlap (a b : Region) : Bool :=
  sameTerm a.op b.op && decide (a.op.base ≠ b.op.base)
  && decide (a.op.base.toNat < b.op.base.toNat + b.units)
  && decide (b.op.base.toNat < a.op.base.toNat + a.units)

/-- The limits of a vector instruction (R137, R144, R216). -/
def VecF.wf (f : VecF) (v : VecShape) (funcs : Nat) (mxOut : Bool) : Bool :=
  inRange f.vl.toNat 4096 && decide (f.fmt.toNat ≤ 8) && decide (f.func.toNat < funcs)
  && (v.usesA || f.tsa == Tsop.zero) && (v.usesB || f.tsb == Tsop.zero)
  && (v.usesC || mxOut || f.tsc == Tsop.zero)
  && (let rs := f.regions v mxOut
      rs.all (fun d => d.use != .write || rs.all (fun r => r.use == .write || !partialOverlap d r)))

/-- The limits of an instruction that is not VCVT: RND 0, OFMT 0, 1 or 8 (R137). -/
def VecF.wf32 (f : VecF) (v : VecShape) (funcs : Nat) : Bool :=
  f.wf v funcs false && f.rnd == 0 && ofmtOk f.ofmt

/-- The fields of an instruction are within the limits of its format (R119, R127 to R144). DESIGN CHOICE (log 78): NTOK
of DISP and CMB is limited to 4,096 as that of RTOPK is, in whose row alone R140 states the limit. -/
def Instr.fieldsOk : Instr → Bool
  | .loop _ _ _ _ _ body => decide (1 ≤ body.toNat)
  | .pset _ p _ src cmp sel _ _ tsop _ =>
    p.wf && tsop.wf && decide (src.toNat ≤ 4) && (if src = 3 then decide (cmp.toNat ≤ 3) else decide (cmp.toNat ≤ 5))
    && (match src.toNat with
        | 0 => decide (sel.toNat < 4)
        | 1 => decide (sel.toNat < 32)
        | 3 => decide (sel.toNat < 8)
        | _ => true)
  | .skip _ p n => p.wf && decide (1 ≤ n.toNat)
  | .sowait _ p _ _ _ _ _ => p.wf
  | .soinc _ p _ _ _ amount => p.wf && decide (1 ≤ amount.toNat)
  | .soset _ p _ _ _ _ _ _ hcore _ _ => p.wf && decide (hcore.toNat ≤ 95)
  | .fence _ p _ => p.wf
  | .ldt _ p _ _ len part _ => p.wf && inRange len.toNat 6144 && partOk part
  | .stt _ p _ _ len part _ => p.wf && inRange len.toNat 6144 && partOk part
  | .gth _ p _ _ len part _ _ => p.wf && inRange len.toNat 4096 && partOk part
  | .sct _ p _ _ len part _ _ => p.wf && inRange len.toNat 4096 && partOk part
  | .pfh _ p _ dl part _ _ _ fallback =>
    p.wf && decide (1 ≤ dl.toNat) && partOk part && decide (fallback.toNat ≤ 2)
  | .xfer _ p _ _ _ len part _ => p.wf && inRange len.toNat 6144 && partOk part
  | .coll _ p _ _ _ _ _ => p.wf
  | .mload _ p _ tsc fmts sparse _ => p.wf && tsc.wf && decide (fmts.toNat ≤ 7) && decide (sparse.toNat ≤ 2)
  | .mmul _ p f _ => p.wf && f.wf
  | .mmuls _ p f _ => p.wf && f.wf
  | .mmulw _ p f _ =>
    p.wf && f.wf && f.fmts == 0 && f.fmtt == 0
    && decide (f.pass.toNat < passLimit f.mw.toNat)
  | .mscale _ p _ _ rows fmtt _ _ _ => p.wf && inRange rows.toNat 4096 && decide (fmtt.toNat ≤ 7)
  | .vadd _ p f _ => p.wf && f.wf32 shapeAB 1
  | .vmul _ p f _ => p.wf && f.wf32 shapeAB 1
  | .vfma _ p f _ => p.wf && f.wf32 shapeABC 1
  | .vmax _ p f _ => p.wf && f.wf32 shapeAB 2
  | .vred _ p f _ => p.wf && f.wf32 shapeRed 4
  | .vscan _ p f _ => p.wf && f.wf32 (shapeScan f.func.toNat) 2
  | .vexp _ p f _ => p.wf && f.wf32 (shapeExp f.func.toNat) 2
  | .vact _ p f _ => p.wf && f.wf32 shapeA 10
  | .vder _ p f _ => p.wf && f.wf32 shapeAB 7
  | .vcvt _ p f _ =>
    p.wf && f.wf shapeA 1 (mxFmt f.ofmt.toNat) && decide (f.rnd.toNat ≤ 1) && decide (f.ofmt.toNat ≤ 8)
  | .ablk _ p _ _ _ fmt bmask _ _ scale hdim _ _ _ =>
    p.wf && (fmt == 0 || fmt == 2) && decide (bmask.toNat ≤ 1) && inRange hdim.toNat 8 && scaleOk scale
  | .asel _ p _ _ _ _ _ _ topk win _ _ _ _ _ => p.wf && inRange topk.toNat 256 && decide (win.toNat ≤ 64)
  | .kvapp _ p _ _ _ _ _ _ _ _ _ _ fmt _ => p.wf && (fmt == 0 || fmt == 2)
  | .rtopk _ p _ _ _ _ ntok norm _ => p.wf && decide (ntok.toNat ≤ 4096) && decide (norm.toNat ≤ 2)
  | .disp _ p _ _ _ _ _ ntok _ => p.wf && decide (ntok.toNat ≤ 4096)
  | .cmb _ p _ _ _ ntok _ ofmt _ => p.wf && decide (ntok.toNat ≤ 4096) && ofmtOk ofmt
  | .upd _ p _ _ _ _ => p.wf
  | .precon _ p _ _ kind => p.wf && decide (kind.toNat ≤ 1)
  | .ingest _ p _ _ => p.wf
  | .ckptFlash _ p _ _ _ => p.wf
  | .ckptStore _ p _ _ _ => p.wf
  | .postEvent _ p _ x => p.wf && decide (x.code ≠ 1 ∧ x.code ≠ 2 ∧ x.code ≠ 3)
  | _ => true

/-- An instruction the loader accepts; every other command is well formed. -/
def Instr.wf (i : Instr) : Bool := i.fieldsOk && i.regions.all Region.wf

end Sys2Proof
end

