-- ==== Sys2Proof/Machine/Operands.lean ====
section
/-!
DEFINITION. Machine/Operands.lean: the operand forms of an instruction at run time (R121 to R124), the
run-time causes of its regions (R112, R144, R145, R154) and the conflicts of its regions with the
strand's products in flight (R143).
-/

namespace Sys2Proof.Machine

/-- The first unit of a tile-store operand: BASE and the loop term (R121, R122). -/
def Tsop.unit (t : Strand) (o : Tsop) : Nat :=
  o.base.toNat + (if o.step = 0 then 0 else t.iter o.lc.toNat * 2 ^ (o.step.toNat - 1))

/-- The byte address of a tile-store operand in its core's tile store. -/
def Tsop.addr (t : Strand) (o : Tsop) : Nat := Tsop.unit t o * unitBytes

/-- The address of a memory operand: a[AREG] + DISP × 512 + loop term, modulo 2^48 (R123, log 16). -/
def Mop.addr (t : Strand) (m : Mop) : Nat :=
  let loop : Nat := if m.sh = 0 then 0 else t.iter m.lc.toNat * 2 ^ (m.sh.toNat + 5)
  (((t.a m.areg.toNat).toNat + loop : Int) + m.disp.toInt * 512).emod (2 ^ 48) |>.toNat

/-- An address register with bits [63:48] not zero raises ADDR (R112). -/
def Mop.bad (t : Strand) (m : Mop) : Bool := decide (2 ^ 48 ≤ (t.a m.areg.toNat).toNat)

/-- The node of a node operand (R124). -/
def NodeOp.node (t : Strand) : NodeOp → Nat
  | .id n => n.toNat
  | .reg r => (t.s r.toNat).toNat % 2 ^ 15

/-- A register that gives a node must be zero above bit 14 (R124); a breach raises OPERAND. -/
def NodeOp.bad (t : Strand) : NodeOp → Bool
  | .id _ => false
  | .reg r => decide (2 ^ 15 ≤ (t.s r.toNat).toNat)

/-- The run-time causes of the regions of an instruction: ALIGN for a tile off its size, TSO_RANGE
beyond 3 MiB, OPERAND for an MX operand whose loop term reaches the scale slots (R112, R145, R154). -/
def regionCauses (t : Strand) (rs : List Region) : List (Bool × Nat) :=
  rs.flatMap (fun r =>
    let u := Tsop.unit t r.op
    [(decide (u % r.tile ≠ 0), 0x07), (decide (tileUnits < u + r.units), 0x09),
     (r.mx && decide (5760 < u + r.units), 0x0A)])

/-- Whether two unit ranges overlap. -/
def overlaps (a n b m : Nat) : Bool := decide (a < b + m ∧ b < a + n)

/-- The regions that a product in flight still writes: its accumulators and its record (R143). -/
def Product.pending (p : Product) : List (Nat × Nat) :=
  [(p.tsc, if p.kind = .multi ∧ 2 ≤ p.mw then 4 * p.rows else 2 * p.rows), (p.tsx, 1)]

/-- The selection entries that a DISP of the strand still reads and rewrites (R143, R308). -/
def State.ranked (s : State) (a : Site) : List (Nat × Nat) :=
  (((s.group (groupOf a.core.val)).disps).filter (fun d => d.site == a && d.ranking)).map
    (fun d => (d.sel, unitsOf (64 * d.ntok)))

/-- Whether a region of the instruction waits for a product or a DISP of its own strand (R143), or for the
product of any strand whose check failed (R173). -/
def State.conflict (s : State) (a : Site) (rs : List Region) : Bool :=
  let t := s.strand a
  let c := s.core a.core.val
  let prods := c.prods.filter (fun p => p.strand == a.strand.val) ++ c.relief.map (·.2)
  (prods.flatMap Product.pending ++ s.ranked a).any (fun q =>
    rs.any (fun r => overlaps (Tsop.unit t r.op) r.units q.1 q.2))

/-- An instruction over given regions: it waits while a region is pending (R143), stops on the first
cause that applies (R112), else takes effect. -/
def State.onRegions (s : State) (a : Site) (p : Pred) (rs : List Region)
    (causes : Strand → List (Bool × Nat)) (body : State → State) : State :=
  s.issue a p (fun s =>
    if s.conflict a rs then s
    else s.guarded a (regionCauses (s.strand a) rs ++ causes (s.strand a)) body)

/-- An instruction over the regions that its encoding names. -/
def State.onTile (s : State) (a : Site) (p : Pred) (i : Instr) (causes : Strand → List (Bool × Nat))
    (body : State → State) : State := s.onRegions a p i.regions causes body

/-- A strand instruction executes when the loader accepts it (R112, R120). -/
def loaded (i : Instr) (s : State) : Host.Outcome State Fault Refusal :=
  if i.wf then .next s else .refused .rejectedAtLoad

end Sys2Proof.Machine
end

