-- ==== Sys2Proof/Machine/Matrix.lean ====
section
/-!
DEFINITION. Machine/Matrix.lean: the matrix array (R133 to R136, R146 to R173) and its scale path (R185 to
R190). A product takes its operands when it issues and is summed when its last row reaches the adder.
-/

namespace Sys2Proof.Machine

/-! ### Operands in the tile store (R151 to R153) -/

/-- The code of element `c` of a stored row. -/
def codeAt (fmt : Nat) (row : List Byte) (c : Nat) : Nat :=
  match fmt with
  | 0 => fld row (2 * c) 2
  | 1 => fld row (2 * c) 2
  | 4 => bits (fld row (3 * (c / 4)) 3) (6 * (c % 4)) 6
  | 5 => bits (fld row (3 * (c / 4)) 3) (6 * (c % 4)) 6
  | 6 => bits (fld row (c / 2) 1) (4 * (c % 2)) 4
  | 8 => fld row (4 * c) 4
  | _ => fld row c 1

/-- The 128 values of a stored row under its four block scales. -/
def rowVals (fmt : Nat) (row scales : List Byte) : List Fv :=
  (List.range 128).map (fun c =>
    if isMx fmt then mxElem fmt (fld scales (c / 32) 1) (codeAt fmt row c) else decodeElem fmt (codeAt fmt row c))

/-- `n` rows of values from the bytes of a region and of its scale plane. -/
def regionVals (fmt n : Nat) (bs scales : List Byte) : List (List Fv) :=
  (List.range n).map (fun r =>
    rowVals fmt ((bs.drop (rowSize fmt * r)).take (rowSize fmt)) ((scales.drop (4 * r)).take 4))

/-- Byte address of the scale slot of row 0 of a region at a unit (R153). -/
def slotAddr (unit : Nat) : Nat := 2949120 + 32 * unit

/-- The scales of `n` rows of a region at a unit; none for formats without blocks. -/
def State.scales (s : State) (core fmt unit n : Nat) : List Byte :=
  if isMx fmt then s.tread core (slotAddr unit) (4 * n) else []

/-- The rows and columns of a matrix exchanged, for a matrix of 128 columns. -/
def transpose128 (m : List (List Fv)) : List (List Fv) :=
  (List.range 128).map (fun c => m.map (fun r => r.getD c (.num false 0 0)))

/-- The streamed rows of a stored region: with TA the columns of each stored tile (R155, R156). -/
def streamRows (ta : Bool) (m : List (List Fv)) : List (List Fv) :=
  if ta then (List.range (m.length / 128)).flatMap (fun t => transpose128 ((m.drop (128 * t)).take 128))
  else m

/-! ### Stationary tiles (R146, R158, R159) -/

/-- The position within its group of the kept element of compressed row `r`, column `n` (R159). -/
def metaPos (sparse : Nat) (md : List Byte) (r n : Nat) : Nat :=
  if sparse = 1 then
    let g := r / 2
    bits (fld md (16 * n + g / 2) 1) (4 * (g % 2) + 2 * (r % 2)) 2
  else bits (fld md (8 * n + r / 4) 1) (2 * (r % 4)) 2

/-- 2:4 metadata is invalid when a first position is not below the second (R160). -/
def metaBad (sparse : Nat) (md : List Byte) : Bool :=
  sparse == 1 && (List.range 128).any (fun n => (List.range 32).any (fun g =>
    decide (metaPos 1 md (2 * g + 1) n ≤ metaPos 1 md (2 * g) n)))

/-- Rows of a stationary tile as stored. -/
def statRows (sparse : Nat) : Nat := if sparse = 1 then 64 else if sparse = 2 then 32 else 128

/-- The cells of a stationary tile by stored row k and column n: none where a sparse tile keeps no
element. -/
def StatTile.cells (t : StatTile) : List (List (Option Fv)) :=
  let vals := regionVals t.fmt (statRows t.sparse) t.bytes t.scales
  if t.sparse = 0 then vals.map (fun r => r.map some)
  else
    let per := if t.sparse = 1 then 2 else 1
    (List.range 128).map (fun k => (List.range 128).map (fun n =>
      ((List.range per).map (fun j => per * (k / 4) + j)).findSome? (fun r =>
        if metaPos t.sparse t.metaData r n = k % 4 then (vals.getD r []).getD n (.num false 0 0) else none)))

/-- Column n of the tile as products apply it: with TS the stored row n (R155). -/
def StatTile.columns (t : StatTile) (ts : Bool) : List (List (Option Fv)) :=
  let m := t.cells
  if ts then m else (List.range 128).map (fun n => m.map (fun r => r.getD n none))

/-- The terms that one streamed row adds to the accumulator of one column (R182, R183). -/
def dotTerms (a : Int) (x : List Fv) (w : List (Option Fv)) : List (Option Int) :=
  (x.zip w).filterMap (fun e => e.2.map (fun v => prodTerm a e.1 v))

/-- The core whose array runs a core's array instructions: its relief partner's once its fence is decided (R470). -/
def State.arrayOf (s : State) (core : Nat) : Nat :=
  if (s.core core).fenceDecided.isSome then (s.reliefOf core).getD core else core

/-- Products that an array holds, running and queued: those of its core, and those it runs for a core of its group whose
fence is decided (R143, R470). -/
def State.arrayQueue (s : State) (array : Nat) : Nat :=
  ((List.range 8).map (fun k => (s.core (array / 8 * 8 + k)).prods.countP (fun p => p.array == array))).sum

/-- MLOAD (R146, R149, R158 to R161). -/
def execMload (a : Site) (p : Pred) (tsa tsc : Tsop) (fmts : BitVec 4) (sparse : BitVec 2)
    (hw : HwReport) (s : State) : Host.Outcome State Fault Refusal :=
  let i := Instr.mload a p tsa tsc fmts sparse hw
  loaded i (s.onTile a p i (fun _ => []) (fun s =>
    let t := s.strand a
    let core := a.core.val
    let ua := Tsop.unit t tsa
    let um := Tsop.unit t tsc
    let fmt := fmts.toNat
    let sp := sparse.toNat
    let rows := statRows sp
    let mdUnits := if sp = 0 then 0 else if sp = 1 then 4 else 2
    let md := s.tread core (um * unitBytes) (unitBytes * mdUnits)
    let slot := slotAddr ua / unitBytes
    let slots := if isMx fmt then [(slot, (slotAddr ua + 4 * rows - 1) / unitBytes - slot + 1)] else []
    let tile : StatTile :=
      { owner := a.strand.val, fmt := fmt, sparse := sp, bytes := s.tread core (ua * unitBytes) (rows * rowSize fmt)
        scales := s.scales core fmt ua rows, metaData := md
        src := [(ua, statTile fmt sp)] ++ slots ++ (if sp = 0 then [] else [(um, mdUnits)])
        written := false }
    if 2 ≤ s.arrayQueue (s.arrayOf core) then s
    else if metaBad sp md then (s.setCore core { s.core core with stat := none }).strandError a 0x0A
    else
      let s := s.setCore core { s.core core with stat := some tile }
      ((s.bump Reg.CORE_ARR_LOAD_COUNT (s.arrayOf core) 0 128).report a hw).advance a))

/-! ### Product records (R134, R155, R185, R190) -/

/-- The words of a product record at a unit. -/
def State.recWord (s : State) (core unit k : Nat) : Nat :=
  ofBytes (s.tread core (unit * unitBytes + 4 * k) 4)

/-- Write word `k` of a product record. -/
def State.setRecWord (s : State) (core unit k v : Nat) : State :=
  s.twrite core (unit * unitBytes + 4 * k) (toBytes 4 v)

/-- A signed field of ten bits. -/
def sint10 (v : Nat) : Int := (BitVec.ofNat 10 v).toInt

/-- Ten bits of a signed value. -/
def enc10 (v : Int) : Nat := (BitVec.ofInt 10 v).toNat

/-- Replace bits [lo + w − 1 : lo] of a word. -/
def insBits (v lo w x : Nat) : Nat := v - bits v lo w * 2 ^ lo + x % 2 ^ w * 2 ^ lo

/-- Word 0 with the bits that the device writes as 0 cleared (R190). -/
def recClean (w : Nat) : Nat := insBits (insBits (insBits w 12 4 0) 26 2 0) 30 1 0

/-- The record's words 2 and 3 break R174, or TA needs whole tiles (R156). -/
def State.recordBad (s : State) (core unit rows : Nat) : Bool :=
  let w2 := s.recWord core unit 2
  decide (4 ≤ w2) || s.recWord core unit 3 != 0 || (bits w2 0 1 == 1 && decide (rows % 128 ≠ 0))

/-! ### Issue of a product -/

/-- The causes of a product: OPERAND (R135, R162, R174). -/
def State.productCauses (s : State) (a : Site) (kind : ProdKind) (f : MatF) (t : Strand) :
    List (Bool × Nat) :=
  let core := a.core.val
  let ux := Tsop.unit t f.tsx
  let w0 := s.recWord core ux 0
  let ts := bits (s.recWord core ux 2) 1 1 == 1
  let stat := (s.core core).stat
  let bad := match stat with
    | none => true
    | some st =>
      decide (st.owner ≠ a.strand.val) || decide (st.fmt ≠ f.fmts.toNat) ||
        (match kind with
         | .dense => decide (st.sparse ≠ 0)
         | .sparse => decide (st.sparse = 0) || ts
         | .multi => false)
  let exact := !f.accum && f.anch == 0 && bits w0 31 1 == 0
  [(bad || exact || s.recordBad core ux f.rows.toNat, 0x0A)]

/-- A product takes its operands into the array's queue (R143, R147); with a product running and one
queued it waits. -/
def State.startProduct (s : State) (a : Site) (kind : ProdKind) (f : MatF) (hw : HwReport) : State :=
  let core := a.core.val
  let c := s.core core
  let t := s.strand a
  if 2 ≤ s.arrayQueue (s.arrayOf core) then s
  else
    match c.stat with
    | none => s
    | some tile =>
      let ux := Tsop.unit t f.tsx
      let w0 := s.recWord core ux 0
      let w2 := s.recWord core ux 2
      let rows := f.rows.toNat
      let plane := if kind = .multi then passPlane f.mw.toNat f.pass.toNat * ((rows + 1) / 2) else 0
      let ua := Tsop.unit t f.tsa + plane
      let hinted := !f.accum && f.anch == 1
      let h := sint10 (t.s f.sreg.toNat).toNat
      let prod : Product :=
        { array := s.arrayOf core, kind := kind, strand := a.strand.val, idx := t.pc.toNat, tsa := ua, tsc := Tsop.unit t f.tsc
          tsx := ux
          rows := rows, fmtt := f.fmtt.toNat, accum := f.accum, hint := if hinted then some h else none
          zt := f.zt, pass := f.pass.toNat, mw := f.mw.toNat, ta := bits w2 0 1 == 1, ts := bits w2 1 1 == 1
          bitmap := BitVec.ofNat 32 (s.recWord core ux 1), anchor := if hinted then h else sint10 w0
          tile := tile, stream := s.tread core (ua * unitBytes) (rows * rowSize f.fmtt.toNat)
          streamScales := s.scales core f.fmtt.toNat ua rows }
      let s := s.setCore core { c with prods := c.prods ++ [prod] }
      (s.report a hw).advance a

/-- MMUL (R133, R135, R147). -/
def execMmul (a : Site) (p : Pred) (f : MatF) (hw : HwReport) (s : State) :
    Host.Outcome State Fault Refusal :=
  let i := Instr.mmul a p f hw
  loaded i (s.onTile a p i (s.productCauses a .dense f) (fun s => s.startProduct a .dense f hw))

/-- MMULS (R135, R161, R162). -/
def execMmuls (a : Site) (p : Pred) (f : MatF) (hw : HwReport) (s : State) :
    Host.Outcome State Fault Refusal :=
  let i := Instr.mmuls a p f hw
  loaded i (s.onTile a p i (s.productCauses a .sparse f) (fun s => s.startProduct a .sparse f hw))

/-- MMULW (R133, R166 to R168). -/
def execMmulw (a : Site) (p : Pred) (f : MatF) (hw : HwReport) (s : State) :
    Host.Outcome State Fault Refusal :=
  let i := Instr.mmulw a p f hw
  loaded i (s.onTile a p i (s.productCauses a .multi f) (fun s => s.startProduct a .multi f hw))

/-! ### Summation (R181 to R184, R191 to R193) -/

/-- The signs with which a pass adds its products to the accumulator (or real part) and to the imaginary
part (R167): 1, −1 or 0. -/
def passSigns (kind : ProdKind) (mw pass : Nat) : Int × Int :=
  if kind = .multi then
    match mw, pass with
    | 2, 0 => (1, 1)
    | 2, 1 => (0, 1)
    | 2, _ => (-1, 0)
    | 3, 0 => (1, 0)
    | 3, 1 => (0, 1)
    | 3, 2 => (0, 1)
    | 3, _ => (-1, 0)
    | _, _ => (1, 0)
  else (1, 0)

/-- Rows of 128 accumulators that a product writes. -/
def Product.accRows (p : Product) : Nat := if p.kind = .multi ∧ 2 ≤ p.mw then 2 * p.rows else p.rows

/-- Whether ZT skips streamed row `m` (R164). -/
def Product.skips (p : Product) (m : Nat) : Bool := p.zt && p.bitmap.getLsbD (m / 128)

/-- The streamed rows of a product (R155). -/
def Product.streamed (p : Product) : List (List Fv) :=
  streamRows p.ta (regionVals p.fmtt p.rows p.stream p.streamScales)

/-- What faulty cells add to an accumulator. -/
def cellError (cells : List (Nat × Nat × Int)) (m n : Nat) : Int :=
  ((cells.filter (fun e => e.1 == m && e.2.1 == n)).map (·.2.2)).sum

/-- What a product adds to each accumulator at an anchor, row by row: the terms summed, none where a
factor was not finite (R182, R183), with what faulty cells add; a row that ZT skips passes through no cell (R172). -/
def Product.sums (p : Product) (cells : List (Nat × Nat × Int)) (a : Int) : List (List (Option Int)) :=
  let cols := p.tile.columns p.ts
  ((List.range p.rows).zip p.streamed).map (fun e =>
    if p.skips e.1 then List.replicate 128 (some 0)
    else ((List.range 128).zip cols).map (fun w =>
      (accSum 0 (dotTerms a e.2 w.2)).map (fun v => if cells.isEmpty then v else v + cellError cells e.1 w.1)))

/-- An accumulator after a signed addition; none is the NaN marker. -/
def addSigned (old : W64) (sign : Int) (v : Option Int) : Option Int :=
  if sign = 0 then (if old = nanMarker then none else some old.toInt)
  else accSum old [v.map (sign * ·)]

/-- The exact new accumulators of a product over the old ones (R167, R182). -/
def Product.apply (p : Product) (cells : List (Nat × Nat × Int)) (a : Int) (old : List (List W64)) :
    List (List (Option Int)) :=
  let sums := p.sums cells a
  let sg := passSigns p.kind p.mw p.pass
  let part (sign : Int) (rows : List (List W64)) : List (List (Option Int)) :=
    (rows.zip sums).map (fun e => (e.1.zip e.2).map (fun x => addSigned x.1 sign x.2))
  part sg.1 (old.take p.rows) ++ (if p.accRows = p.rows then [] else part sg.2 (old.drop p.rows))

/-- One attempt after another with the anchor raised by 16 while an ACCUM = 0 product overflows, at most
three replays and not beyond +511 (R192, R193): the number of replays, the anchor, the exact values. -/
def Product.attempts (p : Product) (cells : List (Nat × Nat × Int)) (old : List (List W64)) :
    Nat → Nat → Int → Nat × Int × List (List (Option Int))
  | 0, n, a => (n, a, p.apply cells a old)
  | fuel + 1, n, a =>
    let r := p.apply cells a old
    if !p.accum && r.any (fun row => row.any accOver) && decide (a + 16 ≤ 511)
    then p.attempts cells old fuel (n + 1) (a + 16) else (n, a, r)

/-- The accumulators of a region. -/
def State.accRead (s : State) (core unit rows : Nat) : List (List W64) :=
  let bs := s.tread core (unit * unitBytes) (1024 * rows)
  (List.range rows).map (fun m => (List.range 128).map (fun n =>
    BitVec.ofNat 64 (fld bs (1024 * m + 8 * n) 8)))

/-- The bytes of accumulators. -/
def accBytes (rows : List (List W64)) : List Byte :=
  rows.flatMap (fun r => r.flatMap (fun w => toBytes 8 w.toNat))

/-- Write accumulators and mark their units with the anchor (R197). -/
def State.accWrite (s : State) (core unit : Nat) (a : Int) (rows : List (List W64)) : State :=
  (s.twrite core (unit * unitBytes) (accBytes rows)).setMarks core unit (2 * rows.length) (some a)

/-- Streaming cycles of `n` rows (R136). -/
def streamCycles (kind : ProdKind) (fmts fmtt n : Nat) : Nat :=
  let speed (f : Nat) : Nat := if f ≤ 1 then 4 else if 4 ≤ f ∧ f ≤ 6 then 1 else 2
  let q := max (speed fmts) (speed fmtt)
  match kind with
  | .dense => (q * n + 1) / 2
  | .sparse => (q * n + 3) / 4
  | .multi => 2 * n

/-- The rows a product streams, and the row tiles it skips (R164). -/
def Product.live (p : Product) : Nat × Nat :=
  (((List.range p.rows).filter (fun m => !p.skips m)).length,
   ((List.range ((p.rows + 127) / 128)).filter (fun j => p.skips (128 * j))).length)

/-- The counters of array `arr` for `n` attempts of a product (R175). -/
def State.countProduct (s : State) (arr : Nat) (p : Product) (n : Nat) : State :=
  let l := p.live
  let rows := (List.range p.rows).filter (fun m => !p.skips m)
  let gated := (rows.map (fun m => (((p.streamScales.drop (4 * m)).take 4).filter (· == 0)).length)).sum
  ((((s.bump Reg.CORE_ARR_STREAM_COUNT arr 0 (n * (streamCycles p.kind p.tile.fmt p.fmtt l.1 + l.2))).bump
    Reg.CORE_ARR_ROWS_COUNT arr 0 (n * l.1)).bump Reg.CORE_ARR_ZTSKIP_COUNT arr 0 (n * l.2)).bump
    Reg.CORE_ARR_ZBGATE_COUNT arr 0 (n * gated)).bump Reg.CORE_ARR_CHECKS_COUNT arr

/-- The record after a product: hint and replays, NONFIN and SAT (R134, R190, R192). -/
def productRecord (w0 : Nat) (replays : Nat) (a : Int) (raised nonfin sat : Bool) : Nat :=
  let w := if raised then insBits w0 0 10 (enc10 a) else w0
  let w := insBits w 28 2 (bits w 28 2 + replays)
  let w := if nonfin then insBits w 10 1 1 else w
  recClean (if sat then insBits w 11 1 1 else w)

/-- An overflow is exhausted (R193, R210): SAT, its count and ANCHOR_EXHAUSTED with the final anchor. -/
def State.exhausted (s : State) (core strand : Nat) (accum : Bool) (a : Int) (idx : Nat) : State :=
  ((s.saturated core).bump Reg.CORE_NUM_EXHAUST_COUNT core).event 0x0302
    (strand + (if accum then 4 else 0) + enc10 a * 8 + idx % 2 ^ 19 * 2 ^ 13) core

/-- The flags and events of a summed product (R190, R192 to R194, R208 to R210). -/
def State.productFlags (s : State) (core : Nat) (p : Product) (replays : Nat) (a : Int)
    (nonfin sat : Bool) : State :=
  let s := if replays = 0 then s
    else (s.put Reg.CORE_NUM_FLAGS_REPLAY 1 core).bump Reg.CORE_NUM_REPLAYS_COUNT core 0 replays
  let s := if sat then s.exhausted core p.strand p.accum a p.idx else s
  if nonfin then s.nonfin core p.strand 1 p.idx else s

/-- The accumulators that a product starts from: those of its region, or zeros with ACCUM = 0. -/
def State.accOld (s : State) (core : Nat) (p : Product) : List (List W64) :=
  if p.accum then s.accRead core p.tsc p.accRows else List.replicate p.accRows (List.replicate 128 0)

/-- No fault. -/
def ArrFault.none : ArrFault := ⟨[], [], [], []⟩

/-- The accumulator words that a product writes, those of rows that passed the accumulator path as a fault left them. -/
def Product.words (p : Product) (f : ArrFault) (vals : List (List (Option Int))) : List (List W64) :=
  (f.wrong.filter (fun e => !p.skips (e.1 % p.rows))).foldl (fun (ws : List (List W64)) e =>
    ws.modify e.1 (fun r => r.set e.2.1 e.2.2)) (vals.map (fun r => r.map accWord))

/-- A product is summed into its region and its record written (R147, R191 to R193), under a fault. -/
def State.sumProduct (s : State) (core : Nat) (p : Product) (f : ArrFault) : State :=
  let (replays, a, vals) := p.attempts f.cells (s.accOld core p) 3 0 p.anchor
  let sat := vals.any (fun r => r.any accOver)
  let nonfin := (p.sums f.cells a).any (fun r => r.any Option.isNone)
  let s := s.accWrite core p.tsc a (p.words f vals)
  let raised := p.hint.isSome || replays != 0
  let s := s.setRecWord core p.tsx 0 (productRecord (s.recWord core p.tsx 0) replays a raised nonfin sat)
  (s.countProduct p.array p (replays + 1)).productFlags core p replays a nonfin sat

/-! ### The checksum lanes (R170 to R172) -/

/-- The prime of the residues, 2^61 − 1. -/
def checkPrime : Int := 2 ^ 61 - 1

/-- The residue of 2^e: 2 has order 61 modulo the prime. -/
def pow2Res (e : Int) : Int := 2 ^ (e % 61).toNat

/-- The residue of an operand value; a value that is not finite has none, and its row or column is exempt. -/
def Fv.residue : Fv → Int
  | .num s m e => (if s then -(m : Int) else m) * pow2Res e % checkPrime
  | _ => 0

/-- The residue that a cell drops below the anchor: of the exact product less the integer it adds (R182). -/
def dropped (a : Int) (x w : Fv) : Int := x.residue * w.residue - pow2Res a * (prodTerm a x w).getD 0

/-- The checksum column c[k] (R170): the sum of stationary row k, of columns held by column. -/
def checkColumn (cols : List (List (Option Fv))) (k : Nat) : Int :=
  (cols.map (fun w => ((w.getD k none).map Fv.residue).getD 0)).sum

/-- The checksum row s[k] (R170): the sum of the streamed rows. -/
def checkRow (xs : List (List Fv)) (k : Nat) : Int := (xs.map (fun x => (x.getD k (.num false 0 0)).residue)).sum

/-- The remainder chain of one row and one column. -/
def chain (a : Int) (x : List Fv) (w : List (Option Fv)) : Int :=
  ((x.zip w).filterMap (fun e => e.2.map (fun v => dropped a e.1 v))).sum

/-- The identity of a streamed row (R171): what it misses modulo the prime. -/
def rowMiss (a : Int) (x : List Fv) (cols : List (List (Option Fv))) (delta : List (Option Int)) : Int :=
  (pow2Res a * (delta.map (·.getD 0)).sum
    - (((List.range x.length).zip x).map (fun e => e.2.residue * checkColumn cols e.1)).sum
    + (cols.map (chain a x)).sum) % checkPrime

/-- The identity of a column (R171). -/
def colMiss (a : Int) (xs : List (List Fv)) (w : List (Option Fv)) (delta : List (Option Int)) : Int :=
  (pow2Res a * (delta.map (·.getD 0)).sum
    - (((List.range w.length).zip w).map (fun e => checkRow xs e.1 * (e.2.map Fv.residue).getD 0)).sum
    + (xs.map (fun x => chain a x w)).sum) % checkPrime

/-- The accumulator residues (R171): what the new accumulators of a row or column miss of the old ones and what was added
with a sign. -/
def accMiss (sign : Int) (old new : List W64) (delta : List (Option Int)) : Int :=
  ((new.map BitVec.toInt).sum - (old.map BitVec.toInt).sum - sign * (delta.map (·.getD 0)).sum) % checkPrime

/-- A saturated or non-finite accumulator (R172). -/
def accExempt (w : W64) : Bool := w == nanMarker || w.toInt == accMax || w.toInt == -accMax

/-- Column `n` of rows. -/
def columnOf {α : Type} (d : α) (m : List (List α)) (n : Nat) : List α := m.map (fun r => r.getD n d)

/-- The rows and the columns whose checks fail (R171, R172): no row that ZT skips, none that holds a non-finite value or a
saturated accumulator. Only the final pass is checked. -/
def Product.failing (p : Product) (old : List (List W64)) (f : ArrFault) : List Nat × List Nat :=
  let (_, a, vals) := p.attempts f.cells old 3 0 p.anchor
  let new := p.words f vals
  let delta := p.sums f.cells a
  let xs := p.streamed
  let cols := p.tile.columns p.ts
  let sg := passSigns p.kind p.mw p.pass
  let parts : List (Int × Nat) := if p.accRows = p.rows then [(sg.1, 0)] else [(sg.1, 0), (sg.2, p.rows)]
  let live := (List.range p.rows).filter (fun m => !p.skips m)
  let accs (m : Nat) : List W64 := parts.flatMap (fun q => old.getD (q.2 + m) [] ++ new.getD (q.2 + m) [])
  let rows := live.filter (fun m =>
    let x := xs.getD m []
    let d := delta.getD m []
    !(x.any (fun v => !v.isFin) || (accs m).any accExempt)
      && ((rowMiss a x cols d + ((f.laneRows.filter (fun e => e.1 == m)).map (fun e => (e.2 : Int))).sum) % checkPrime != 0
        || parts.any (fun q => accMiss q.1 (old.getD (q.2 + m) []) (new.getD (q.2 + m) []) d != 0)))
  let lines (w : List (List W64)) (q : Nat) : List (List W64) := live.map (fun m => w.getD (q + m) [])
  let xl := live.map (fun m => xs.getD m [])
  let dl := live.map (fun m => delta.getD m [])
  let colsBad := (List.range 128).filter (fun n =>
    let w := cols.getD n []
    let d := columnOf none dl n
    !(w.any (fun v => v.any (fun y => !y.isFin)) || live.any (fun m => parts.any (fun q =>
        accExempt ((old.getD (q.2 + m) []).getD n 0) || accExempt ((new.getD (q.2 + m) []).getD n 0))))
      && ((colMiss a xl w d + ((f.laneCols.filter (fun e => e.1 == n)).map (fun e => (e.2 : Int))).sum) % checkPrime != 0
        || parts.any (fun q => accMiss q.1 (columnOf 0 (lines old q.2) n) (columnOf 0 (lines new q.2) n) d != 0)))
  (rows, colsBad)

/-- Which of several failing rows or columns the log names: a free value (log 70). -/
def locate (draw w : Nat) (l : List Nat) : Option (BitVec w) :=
  (l[(Config.freeWord draw).toNat % l.length]?).map (BitVec.ofNat w)

/-- The outcome of a product's check: none when every identity holds. -/
def State.checkProduct (s : State) (core : Nat) (p : Product) : Option ArrFault → Option ChkFail
  | none => none
  | some f =>
    let r := p.failing (s.accOld core p) f
    if r.1.isEmpty && r.2.isEmpty then none
    else some { row := locate s.draw 12 r.1, col := locate (s.draw + 1) 7 r.2, wrong := f.wrong }

/-! ### Checks and relief (R170 to R173, R467 to R469) -/

/-- The relief partner as ARRAY_RELIEF names it: 0x7F when the group has none. -/
def State.partnerOf (s : State) (core : Nat) : Nat := (s.reliefOf core).getD 0x7F

/-- ARRAY_RELIEF (R502). -/
def State.reliefEvent (s : State) (core partner : Nat) (passed noReplay : Bool) : State :=
  s.event 0x0902 (core + partner * 2 ^ 7 + (if passed then 2 ^ 14 else 0) + (if noReplay then 2 ^ 15 else 0)) core

/-- A failure that is not relieved (R469): CHECKFAIL. -/
def State.notRelieved (s : State) (core partner : Nat) (noReplay : Bool) : State :=
  ((s.contribute 1).bump Reg.FLT_RELIEF_NO_COUNT).reliefEvent core partner false noReplay

/-- The check log and ARRAY_CHECK of a product that strand `strand` issued at index `idx`, and the count of the array that
ran it (R173, R175, R176). -/
def State.logCheck (s : State) (core arr strand idx : Nat) (e : ChkFail) : State :=
  let row := (e.row.map BitVec.toNat).getD 0
  let col := (e.col.map BitVec.toNat).getD 0
  let rv := if e.row.isSome then 1 else 0
  let cv := if e.col.isSome then 1 else 0
  let s := s.setWord (Reg.CORE_ARR_CHKLOG_VALID.off core 0) (BitVec.ofNat 64
    (1 + strand * 2 + row * 8 + rv * 2 ^ 15 + col * 2 ^ 16 + cv * 2 ^ 23 + idx % 2 ^ 32 * 2 ^ 32))
  (s.bump Reg.CORE_ARR_CHKFAIL_COUNT arr).event 0x0210
    (row + col * 2 ^ 12 + rv * 2 ^ 19 + cv * 2 ^ 20 + strand * 2 ^ 21) core

/-- A relief replay can repeat the product (R468): no write has reached its stationary source since the MLOAD, of its own
neither. -/
def Product.relievable (p : Product) : Bool :=
  !p.accum && (p.kind != .multi || p.pass == 0) && !p.tile.written
    && !p.pending.any (fun q => p.tile.src.any (fun r => overlaps q.1 q.2 r.1 r.2))

/-- The strand of a product on a core. -/
def Product.site (core : Fin 96) (p : Product) : Site := ⟨core, Fin.ofNat 4 p.strand⟩

/-- The fault that a product runs under. -/
def faultOf (flt : Option ArrFault) : ArrFault := flt.getD ArrFault.none

/-- A product's last row has reached the adder and its check has ended (R147, R171 to R173). -/
def execProductComplete (core : Fin 96) (flt : Option ArrFault) (s : State) :
    Host.Outcome State Fault Refusal :=
  let n := core.val
  .next (match (s.core n).prods with
    | [] => s
    | p :: rest =>
      let s := s.setCore n { s.core n with prods := rest }
      match s.checkProduct n p flt with
      | none => s.sumProduct n p (faultOf flt)
      | some e =>
        let ran := p.array
        let s := ((s.drawn.drawn.sumProduct n p (faultOf flt)).logCheck n ran p.strand p.idx e).coreFail ran 0
        if p.relievable && (s.reliefOf ran).isSome then
          let s := s.setCore n { s.core n with relief := (s.core n).relief ++ [(s.partnerOf ran, p)] }
          (s.bump Reg.GRP_RELIEF_COUNT (groupOf n)).switchFrom (p.site core)
        else s.notRelieved n (s.partnerOf ran) (!p.relievable))

/-- The relief partner ends its repetition of a failed product (R467 to R469): it has loaded the tile and run the product
into the same region, and its own check decides. The record keeps what the first run wrote (log 70). DESIGN CHOICE
(log 80): the partner's own stationary tile is what it was once the repetition ends; R149 and R468 do not say. -/
def execReliefReplayDone (core : Fin 96) (flt : Option ArrFault) (s : State) : Host.Outcome State Fault Refusal :=
  let n := core.val
  .next (match (s.core n).relief with
    | [] => s
    | (q, p) :: rest =>
      let e := s.checkProduct n p flt
      let s := s.setCore n { s.core n with relief := rest }
      let (replays, anchor, vals) := p.attempts (faultOf flt).cells (s.accOld n p) 3 0 p.anchor
      let s := s.accWrite n p.tsc anchor (p.words (faultOf flt) vals)
      let s := (s.bump Reg.CORE_ARR_LOAD_COUNT q 0 128).countProduct q p (replays + 1)
      let s := match e with
        | none => (s.bump Reg.FLT_RELIEF_OK_COUNT).reliefEvent n q true false
        | some _ => ((s.bump Reg.CORE_ARR_CHKFAIL_COUNT q).coreFail q 0).notRelieved n q false
      s.woken core)

/-! ### MSCALE (R163, R185 to R187) -/

/-- The bound of one scanned code (R186): a block scale, or an element of BF16 or FP16; none when it is
zero or not finite. -/
def scanBound (fmt v : Nat) : Option Int :=
  if isMx fmt then (if v = 0 ∨ v = 255 then none else some ((v : Int) - 127 + eFmt fmt))
  else
    let f := fmtOf fmt
    let e := bits v f.mb f.eb
    let frac := bits v 0 f.mb
    if e = 2 ^ f.eb - 1 then none
    else if e = 0 then (if frac = 0 then none else some (1 - (f.bias : Int)))
    else some ((e : Int) - f.bias + 1)

/-- A scanned code is not finite (R186). -/
def scanNonfin (fmt v : Nat) : Bool :=
  if isMx fmt then v == 255 else bits v (fmtOf fmt).mb (fmtOf fmt).eb == 2 ^ (fmtOf fmt).eb - 1

/-- A scanned code marks its row tile as not zero (R163). -/
def scanNonzero (fmt v : Nat) : Bool :=
  if isMx fmt then v != 0 else v % 2 ^ ((fmtOf fmt).w - 1) != 0

/-- The codes that a scan reads, by stored row (R186). -/
def State.scanRows (s : State) (core fmt unit rows : Nat) : List (List Nat) :=
  if isMx fmt then
    let sc := s.tread core (slotAddr unit) (4 * rows)
    (List.range rows).map (fun r => ((sc.drop (4 * r)).take 4).map BitVec.toNat)
  else
    let bs := s.tread core (unit * unitBytes) (rows * rowSize fmt)
    (List.range rows).map (fun r => (List.range 128).map (fun c => fld bs (256 * r + 2 * c) 2))

/-- The larger of two maxima, either of which may be empty. -/
def maxOpt (a b : Option Int) : Option Int :=
  match a, b with
  | some x, some y => some (max x y)
  | some x, none => some x
  | none, y => y

/-- The zero-tile bitmap of scanned rows (R163). DESIGN CHOICE (log 79): bits beyond the last tile, which R163 ignores, are
written as 0. -/
def zeroTiles (fmt : Nat) (rows : List (List Nat)) : Nat :=
  ((List.range ((rows.length + 127) / 128)).map (fun j =>
    if ((rows.drop (128 * j)).take 128).any (fun r => r.any (scanNonzero fmt)) then 0 else 2 ^ j)).sum

/-- Word 0 of the record after a scan (R185, R187). -/
def scaleWord (w0 : Nat) (cur prev : Option Int) (klog : Nat) (nonfin : Bool) : Nat :=
  let w := match cur, prev with
    | some x, some y =>
      insBits (insBits (insBits w0 16 10 (enc10 (x + y))) 0 10 (enc10 (max (x + y + klog - 62) (-512)))) 31 1 1
    | _, _ => insBits (insBits (insBits w0 16 10 (enc10 (-512))) 0 10 (enc10 (-512))) 31 1 0
  recClean (if nonfin then insBits w 10 1 1 else w)

/-- MSCALE (R133, R134, R163, R174, R185 to R187). -/
def execMscale (a : Site) (p : Pred) (tsa tsx : Tsop) (rows : BitVec 13) (fmtt : BitVec 4) (accum : Bool)
    (klog : BitVec 5) (hw : HwReport) (s : State) : Host.Outcome State Fault Refusal :=
  let i := Instr.mscale a p tsa tsx rows fmtt accum klog hw
  let core := a.core.val
  loaded i (s.onTile a p i
    (fun t => [(s.recordBad core (Tsop.unit t tsx) rows.toNat, 0x0A)])
    (fun s =>
      let t := s.strand a
      let ux := Tsop.unit t tsx
      let fmt := fmtt.toNat
      let scan := s.scanRows core fmt (Tsop.unit t tsa) rows.toNat
      let top := (scan.flatMap (fun r => r.filterMap (scanBound fmt))).max?
      let nonfin := scan.any (fun r => r.any (scanNonfin fmt))
      let cur := if accum then maxOpt t.cur top else top
      let prev := if accum then t.prev else if t.lastTsx = some ux then t.cur else none
      let zeros := zeroTiles fmt scan
      let map1 := if accum then Nat.land (s.recWord core ux 1) zeros else zeros
      let s := s.setStrand a { t with cur := cur, prev := prev, lastTsx := some ux }
      let s := s.setRecWord core ux 0 (scaleWord (s.recWord core ux 0) cur prev klog.toNat nonfin)
      let s := s.setRecWord core ux 1 map1
      let s := if nonfin then s.nonfin core a.strand.val 0 t.pc.toNat else s
      (s.report a hw).advance a))

end Sys2Proof.Machine
end

