-- ==== Sys2Proof/Machine/Transc.lean ====
section
/-!
DEFINITION. Machine/Transc.lean: the Class L functions (R203, R221, R224 to R226). The exact result of
each is enclosed between two numbers of about 150 correct bits; the device's bit pattern is a free value
among those that keep the bound of R203 (log 11).
-/

namespace Sys2Proof.Machine

/-- An enclosure: the numbers from lo × 2^e to hi × 2^e. -/
structure Iv where
  lo : Int
  hi : Int
  e : Int
deriving DecidableEq, Repr

/-- A dyadic number. -/
def Iv.pt (m : Int) (e : Int) : Iv := ⟨m, m, e⟩

/-- Outward rounding to about 320 bits. -/
def Iv.trim (x : Iv) : Iv :=
  let n := Nat.log2 (max x.lo.natAbs x.hi.natAbs + 1)
  if n ≤ 320 then x
  else
    let k := n - 320
    ⟨x.lo.fdiv (2 ^ k), -((-x.hi).fdiv (2 ^ k)), x.e + k⟩

/-- Sum. -/
def Iv.add (x y : Iv) : Iv :=
  let q := min x.e y.e
  let a : Int := 2 ^ (x.e - q).toNat
  let b : Int := 2 ^ (y.e - q).toNat
  Iv.trim ⟨x.lo * a + y.lo * b, x.hi * a + y.hi * b, q⟩

/-- Negation. -/
def Iv.neg (x : Iv) : Iv := ⟨-x.hi, -x.lo, x.e⟩

/-- Product. -/
def Iv.mul (x y : Iv) : Iv :=
  let p := [x.lo * y.lo, x.lo * y.hi, x.hi * y.lo, x.hi * y.hi]
  Iv.trim ⟨p.foldl min (x.lo * y.lo), p.foldl max (x.lo * y.lo), x.e + y.e⟩

/-- Reciprocal of a positive enclosure. -/
def Iv.inv (x : Iv) : Iv :=
  let s := Nat.log2 x.hi.natAbs + 300
  let n : Int := 2 ^ s
  ⟨n.fdiv x.hi, n.fdiv x.lo + 1, -(x.e + s)⟩

/-- Multiply by a power of two. -/
def Iv.shift (x : Iv) (k : Int) : Iv := { x with e := x.e + k }

/-- Fixed-point precision of the series below. -/
def prec : Nat := 320

/-- ln 2 × 2^320: Σ 1 / (k 2^k), within 400 units. -/
def ln2Fix : Nat := (List.range 330).foldl (fun a k => a + 2 ^ prec / ((k + 1) * 2 ^ (k + 1))) 0

/-- arctan (1/n) × 2^320, within 100 units. -/
def arctanInv (n : Nat) : Int :=
  (List.range 80).foldl (fun a k =>
    let t : Int := (2 ^ prec / (n ^ (2 * k + 1) * (2 * k + 1)) : Nat)
    if k % 2 = 0 then a + t else a - t) 0

/-- π × 2^320 by Machin's formula. -/
def piFix : Int := 4 * (4 * arctanInv 5 - arctanInv 239)

/-- √(2/π). -/
def sqrt2OverPi : Iv :=
  let q : Nat := 2 ^ (3 * prec + 1) / piFix.natAbs
  let r := isqrt q
  ⟨(r : Int) - 2 ^ 20, (r : Int) + 2 ^ 20, -(prec : Int)⟩

/-- e^r × 2^320 for r = x × 2^−320 in [0, ln 2], within 2^20 units: 80 terms of Taylor's series. -/
def expFix (x : Nat) : Nat :=
  ((List.range 80).foldl (fun (acc : Nat × Nat) k =>
    let t := acc.2 * x / 2 ^ prec / (k + 1)
    (acc.1 + t, t)) (2 ^ prec, 2 ^ prec)).1

/-- e^(−x) for a dyadic x = m × 2^e ≥ 0. -/
def expNegPt (m : Nat) (e : Int) : Iv :=
  if m ≠ 0 ∧ 10 < flog2 m 1 e then ⟨0, 1, -700⟩
  else
    let x := m * 2 ^ (e + prec).toNat / 2 ^ (-(e + prec)).toNat
    let k := x / ln2Fix
    let t : Int := expFix (x - k * ln2Fix)
    let big : Int := 2 ^ (2 * prec)
    let err : Int := 2 ^ 24
    ⟨big.fdiv (t + err), big.fdiv (t - err) + 1, -(prec : Int) - k⟩

/-- e^(−x) for an enclosure x ≥ 0. -/
def expNeg (x : Iv) : Iv :=
  let a := expNegPt x.hi.natAbs x.e
  let b := expNegPt x.lo.natAbs x.e
  let q := min a.e b.e
  ⟨a.lo * 2 ^ (a.e - q).toNat, b.hi * 2 ^ (b.e - q).toNat, q⟩

/-- e^x for an enclosure of one sign. -/
def expIv (x : Iv) : Iv :=
  if x.lo < 0 then expNeg (x.neg) else (expNeg x).inv

/-- ln (m × 2^e), m > 0: exponent × ln 2 + 2 artanh ((y − 1)/(y + 1)). -/
def lnPt (m : Nat) (e : Int) : Iv :=
  let n := Nat.log2 m
  let p : Nat := 2 ^ n
  let t : Nat := (m - p) * 2 ^ prec / (m + p)
  let t2 := t * t / 2 ^ prec
  let s := ((List.range 110).foldl (fun (acc : Nat × Nat) k =>
    (acc.1 + acc.2 / (2 * k + 1), acc.2 * t2 / 2 ^ prec)) (0, t)).1
  let v : Int := (e + n) * ln2Fix + 2 * s
  if m = p ∧ e + n = 0 then ⟨0, 0, 0⟩ else ⟨v - 2 ^ 24, v + 2 ^ 24, -(prec : Int)⟩

/-- The logistic function 1 / (1 + e^(−x)) of an enclosure of one sign. -/
def sigmoidIv (x : Iv) : Iv :=
  let one := Iv.pt 1 0
  if x.lo < 0 then
    let t := expNeg x.neg
    t.mul (one.add t).inv
  else (one.add (expNeg x)).inv

/-- Φ(x) − 1/2 over x, for |x| ≤ 8, x = m × 2^e, by its series; times √(2π). -/
def phiSeries (m : Nat) (e : Int) : Int :=
  let x := m * 2 ^ (e + prec).toNat / 2 ^ (-(e + prec)).toNat
  let x2 := x * x / 2 ^ prec
  ((List.range 220).foldl (fun (acc : Int × Nat) n =>
    let t : Int := (acc.2 / (2 * n + 1) : Nat)
    (if n % 2 = 0 then acc.1 + t else acc.1 - t, acc.2 * x2 / 2 ^ prec / (2 * (n + 1)))) (0, x)).1

/-- 1 / √(2π) = √(2/π) / 2. -/
def invSqrt2Pi : Iv := sqrt2OverPi.shift (-1)

/-- The standard normal density φ(x). -/
def densIv (m : Nat) (e : Int) : Iv := invSqrt2Pi.mul (expNegPt (m * m) (2 * e - 1))

/-- The enclosure of two enclosures. -/
def Iv.hull (x y : Iv) : Iv :=
  let q := min x.e y.e
  let a : Int := 2 ^ (x.e - q).toNat
  let b : Int := 2 ^ (y.e - q).toNat
  ⟨min (x.lo * a) (y.lo * b), max (x.hi * a) (y.hi * b), q⟩

/-- The upper tail 1 − Φ(x) for x ≥ 8: φ(x)/x times 1 − 1/x² + 1·3/x⁴ − …, which lies between any two successive
partial sums. -/
def tailIv (m : Nat) (e : Int) : Iv :=
  let r := (Iv.pt m e).inv
  let r2 := r.mul r
  let one := Iv.pt 1 0
  let t := (List.range 16).foldl (fun (acc : Iv × Iv) n =>
    let t := (acc.2.mul r2).mul (Iv.pt (2 * n + 1) 0)
    (acc.1.add (if n % 2 = 0 then t.neg else t), t)) (one, one)
  ((densIv m e).mul r).mul ((t.1.add t.2.neg).hull t.1)

/-- The standard normal distribution Φ(x) of a dyadic x. -/
def phiIv (neg : Bool) (m : Nat) (e : Int) : Iv :=
  let half := Iv.pt 1 (-1)
  if m ≠ 0 ∧ 3 ≤ flog2 m 1 e then (if neg then tailIv m e else (Iv.pt 1 0).add (tailIv m e).neg)
  else
    let s := phiSeries m e
    let t := invSqrt2Pi.mul ⟨s - 2 ^ 80, s + 2 ^ 80, -(prec : Int)⟩
    half.add (if neg then t.neg else t)

/-! ### The free value within a bound (R203) -/

/-- |a − b| × 2^q for dyadic numbers. -/
def distTo (a : Int) (e : Int) (b : Int) (f : Int) (q : Int) : Nat :=
  (a * 2 ^ (e - q).toNat - b * 2 ^ (f - q).toNat).natAbs

/-- Whether FP32 value `r` keeps the bound of `n` ulp, or of 2^absE absolute where given, from every
number of the enclosure. -/
def within (n : Nat) (absE : Option Int) (x : Iv) (r : Fv) : Bool :=
  match r with
  | .num s m e =>
    let v : Int := if s then -m else m
    let q := min (min x.e e) ((absE.getD 0) - 10)
    let d := max (distTo x.lo x.e v e q) (distTo x.hi x.e v e q)
    decide (d ≤ n * 2 ^ (e - q).toNat) ||
      (match absE with
       | some k => decide (d ≤ 2 ^ (k - q).toNat)
       | none => false)
  | _ => false

/-- The correctly rounded result of an enclosure: its middle, with sign `neg` for a zero. -/
def Iv.mid (x : Iv) (neg : Bool) : Fv :=
  let v := x.lo + x.hi
  (Fv.num (if v = 0 then neg else decide (v < 0)) v.natAbs (x.e - 1)).r32

/-- A Class L result: the device's own pattern where it keeps the bound, and without an absolute bound the
sign of the correctly rounded result, else that result. -/
def classL (fn n : Nat) (absE : Option Int) (a b : Fv) (x : Iv) : Fv :=
  let c := x.mid (decide (x.lo < 0))
  let r := ofF32 (Config.classL fn a.bits32 b.bits32).toNat
  if c.isFin && r.isFin && (absE.isSome || r.neg == c.neg) && within n absE x r then r else c

/-- A finite value as an enclosure. -/
def Fv.iv (x : Fv) : Iv :=
  match x with
  | .num s m e => Iv.pt (if s then -m else m) e
  | _ => Iv.pt 0 0

/-- +0. -/
def fzero : Fv := .num false 0 0
/-- 1. -/
def fone : Fv := .num false 1 0

/-- e^d for an exact difference d (R221, R226); `a`, `b` name the operands. -/
def expF (a b d : Fv) : Fv :=
  match d with
  | .nan => .nan
  | .inf s => if s then fzero else .inf false
  | .num s m e =>
    if m = 0 then fone
    else if !s && decide (6 < flog2 m 1 e) then .inf false
    else classL 0 1 none a b (expIv (Iv.pt (if s then -m else m) e))

/-- VEXP FUNC 1: e^(a − m); +0 for every a when m is −∞ (R221). -/
def expSub (a m : Fv) : Fv :=
  if a.isNan || m.isNan then .nan
  else if m = .inf true then fzero
  else expF a m (a.add m.negate)

/-- ln a (R226). -/
def lnF (a : Fv) : Fv :=
  match a with
  | .nan => .nan
  | .inf s => if s then .nan else .inf false
  | .num s m e =>
    if m = 0 then .inf true else if s then .nan
    else if lnPt m e = ⟨0, 0, 0⟩ then fzero else classL 7 1 none a fzero (lnPt m e)

/-- 1/a (R226). -/
def recipF (a : Fv) : Fv :=
  match a with
  | .nan => .nan
  | .inf s => .num s 0 0
  | .num s m e =>
    if m = 0 then .inf s
    else
      let x := (Iv.pt m e).inv
      classL 8 1 none a fzero (if s then x.neg else x)

/-- 1/√a (R226). -/
def rsqrtF (a : Fv) : Fv :=
  match a with
  | .nan => .nan
  | .inf s => if s then .nan else fzero
  | .num s m e =>
    if m = 0 then .inf s else if s then .nan
    else
      let odd := e % 2 != 0
      let m' := (if odd then 2 * m else m) * 2 ^ 400
      let e' : Int := (if odd then e - 1 else e) / 2 - 200
      let r : Int := isqrt m'
      classL 9 1 none a fzero (Iv.inv ⟨r, r + 1, e'⟩)

/-- σ(x) (R224, R226). -/
def sigmoidF (a : Fv) : Fv :=
  match a with
  | .nan => .nan
  | .inf s => if s then fzero else fone
  | .num _ _ _ => classL 2 2 none a fzero (sigmoidIv a.iv)

/-- tanh x: below 2^−24 between x − x³/3 and x. -/
def tanhF (a : Fv) : Fv :=
  match a with
  | .nan => .nan
  | .inf s => .num s 1 0
  | .num s m e =>
    if m = 0 then a
    else
      let x := Iv.pt m e
      let t : Iv :=
        if flog2 m 1 e < -24 then
          let cube := (x.mul x).mul x
          let q := min x.e cube.e
          ⟨x.lo * 2 ^ (x.e - q).toNat - cube.hi * 2 ^ (cube.e - q).toNat, x.hi * 2 ^ (x.e - q).toNat, q⟩
        else
          let y := expNeg (x.shift 1)
          ((Iv.pt 1 0).add y.neg).mul ((Iv.pt 1 0).add y).inv
      classL 3 2 none a fzero (if s then t.neg else t)

/-- 0.044715 and 0.134145 as enclosures. -/
def milli (n : Nat) : Iv :=
  let v : Int := (n * 2 ^ prec / 1000000 : Nat)
  ⟨v, v + 1, -(prec : Int)⟩

/-- 2u of GELU_TANH: 2 √(2/π) (x + 0.044715 x³). -/
def geluU (x : Iv) : Iv :=
  ((sqrt2OverPi.mul (x.add ((milli 44715).mul ((x.mul x).mul x))))).shift 1

/-- GELU and SILU (R224, R226): FUNC 4 to 6. -/
def gluF (fn : Nat) (a : Fv) : Fv :=
  match a with
  | .nan => .nan
  | .inf s => if s then .num true 0 0 else .inf false
  | .num s m e =>
    if m = 0 then a
    else
      let x := a.iv
      let (n, w) := match fn with
        | 4 => (4, phiIv s m e)
        | 5 => (4, sigmoidIv (geluU x))
        | _ => (2, sigmoidIv x)
      classL fn n (some (-30)) a fzero (x.mul w)

/-- VACT (R224): FUNC 0 to 9. -/
def actF (fn : Nat) (a : Fv) : Fv :=
  match fn with
  | 0 => if a.isNan then .nan else fmax a fzero
  | 1 =>
    if a.isNan then .nan else if fzero.lt a then a else fmul (ofF32 0x3C23D70A) a
  | 2 => sigmoidF a
  | 3 => tanhF a
  | 7 => lnF a
  | 8 => recipF a
  | 9 => rsqrtF a
  | f => gluF f a

/-- The derivative factor of VDER FUNC 2 to 6 as an enclosure (R224). -/
def derIv (fn : Nat) (s : Bool) (m : Nat) (e : Int) : Iv :=
  let x := Iv.pt (if s then -m else m) e
  let one := Iv.pt 1 0
  match fn with
  | 2 => x.mul (one.add x.neg)
  | 3 => one.add (x.mul x).neg
  | 4 => (phiIv s m e).add (x.mul (densIv m e))
  | 5 =>
    let g := if m = 0 then Iv.pt 1 (-1) else sigmoidIv (geluU x)
    let slope := sqrt2OverPi.mul (one.add ((milli 134145).mul (x.mul x)))
    g.add ((x.mul ((g.mul (one.add g.neg)).mul slope)).shift 1)
  | _ =>
    let g := if m = 0 then Iv.pt 1 (-1) else sigmoidIv x
    g.mul (one.add (x.mul (one.add g.neg)))

/-- dx = dy × f′ (R224 to R226). A NaN is not above 0 in FUNC 0 and 1. The limits of R226 hold at an infinite TSA with
finite dy; with an infinite dy the spec states no result, and it is a free value (log 11). -/
def derF (fn : Nat) (y dy : Fv) : Fv :=
    match fn with
    | 0 => fmul dy (if !y.isNan && fzero.lt y then fone else fzero)
    | 1 => fmul dy (if !y.isNan && fzero.lt y then fone else ofF32 0x3C23D70A)
    | f =>
      if y.isNan || dy.isNan then .nan
      else if dy.isInf then ofF32 (Config.classL (f + 16) y.bits32 dy.bits32).toNat
      else
        match y with
        | .nan => .nan
        | .inf s => if f ≤ 3 || s then fmul dy fzero else dy
        | .num s m e =>
          if dy.isZero then fmul dy (if (derIv f s m e).lo < 0 then fone.negate else fone)
          else classL (f + 16) 4 (some (-28)) y dy ((derIv f s m e).mul dy.iv)

end Sys2Proof.Machine
end

