-- ==== Sys2Proof/Machine/Vector.lean ====
section
/-!
DEFINITION. Machine/Vector.lean: the vector unit (R137, R198 to R201, R211 to R230, R471).
-/

namespace Sys2Proof.Machine

/-! ### Sources (R211 to R214) -/

/-- A source with FMT 8 whose first unit is an accumulator unit is read in accumulator layout (R214). -/
def State.accLayout (s : State) (core fmt unit : Nat) : Bool := fmt == 8 && (s.mark core unit).isSome

/-- Units of an element source of `rows` rows. -/
def State.sourceUnits (s : State) (core fmt unit rows : Nat) : Nat :=
  if s.accLayout core fmt unit then 2 * rows else unitsOf (rows * rowSize fmt)

/-- A source read with FMT 8 mixes accumulator units and unmarked units (R214, R229). -/
def State.mixed (s : State) (core fmt unit rows : Nat) : Bool :=
  fmt == 8 && (List.range (s.sourceUnits core fmt unit rows)).any (fun k =>
    (s.mark core (unit + k)).isSome != (s.mark core unit).isSome)

/-- The exact values of `rows` rows of an element source: accumulators at the anchor of their unit, MX and
narrow elements widened to FP32 (R197, R213, R214). -/
def State.sourceExact (s : State) (core fmt unit rows : Nat) : List (List Fv) :=
  if s.accLayout core fmt unit then
    let acc := s.accRead core unit rows
    ((List.range rows).zip acc).map (fun e => ((List.range 128).zip e.2).map (fun x =>
      accValue ((s.mark core (unit + 2 * e.1 + x.1 / 64)).getD 0) x.2))
  else
    (regionVals fmt rows (s.tread core (unit * unitBytes) (rows * rowSize fmt)) (s.scales core fmt unit rows)).map
      (fun r => r.map Fv.r32)

/-- The values as every instruction but VCVT sees them: rounded to FP32 (R198). -/
def State.source (s : State) (core fmt unit rows : Nat) : List (List Fv) :=
  (s.sourceExact core fmt unit rows).map (fun r => r.map Fv.r32)

/-- The values as every instruction but VCVT sees them, each with whether the operand is infinite: an accumulator whose
value lies beyond FP32 is read as ±Inf and is finite (R199, R227). -/
def State.operands (s : State) (core fmt unit rows : Nat) : List (List (Fv × Bool)) :=
  (s.sourceExact core fmt unit rows).map (fun r => r.map (fun x => (x.r32, x.isInf)))

/-- A row vector of FP32 entries (R212). -/
def State.rowVector (s : State) (core unit rows : Nat) : List Fv :=
  let bs := s.tread core (unit * unitBytes) (4 * rows)
  (List.range rows).map (fun r => ofF32 (fld bs (4 * r) 4))

/-- The regions of a vector instruction, with its sources in accumulator layout at their size. -/
def State.vecRegions (s : State) (a : Site) (f : VecF) (v : VecShape) (mxOut : Bool) : List Region :=
  let t := s.strand a
  let core := a.core.val
  let rows := 2 * f.vl.toNat
  let fix (r : Region) (op : Tsop) : Region :=
    if r.use = .read ∧ r.op = op ∧ s.accLayout core f.fmt.toNat (Tsop.unit t op)
    then { r with units := s.sourceUnits core f.fmt.toNat (Tsop.unit t op) rows } else r
  (f.regions v mxOut).map (fun r =>
    let r := if v.usesA then fix r f.tsa else r
    let r := if v.usesB && !v.rowB then fix r f.tsb else r
    if v.usesC && !v.rowC then fix r f.tsc else r)

/-- The OPERAND causes of a vector instruction (R216, R229): a partial overlap of a destination and a
source, a LINREC state that overlaps another region, and a source of mixed units. -/
def State.vecCauses (s : State) (a : Site) (f : VecF) (v : VecShape) (mxOut : Bool) (t : Strand) :
    List (Bool × Nat) :=
  let core := a.core.val
  let rows := 2 * f.vl.toNat
  let rs := s.vecRegions a f v mxOut
  let at_ (r : Region) : Nat := Tsop.unit t r.op
  let hit (x y : Region) : Bool := overlaps (at_ x) x.units (at_ y) y.units
  let partly := rs.any (fun d => d.use == .write &&
    rs.any (fun r => r.use != .write && hit d r && at_ d != at_ r))
  let state := v.rowC && rs.any (fun d => d.use == .both && rs.any (fun r => r.use != .both && hit d r))
  let srcs := (if v.usesA then [f.tsa] else []) ++ (if v.usesB && !v.rowB then [f.tsb] else [])
    ++ (if v.usesC && !v.rowC then [f.tsc] else [])
  [(partly || state || srcs.any (fun o => s.mixed core f.fmt.toNat (Tsop.unit t o) rows), 0x0A)]

/-! ### Results (R199, R200, R211, R212, R215, R227) -/

/-- A row of codes as bytes (R151). -/
def packRow (fmt : Nat) (codes : List Nat) : List Byte :=
  match fmt with
  | 0 => codes.flatMap (toBytes 2)
  | 1 => codes.flatMap (toBytes 2)
  | 4 => (List.range 32).flatMap (fun g => toBytes 3 ((List.range 4).map (fun j => codes.getD (4 * g + j) 0 * 2 ^ (6 * j))).sum)
  | 5 => (List.range 32).flatMap (fun g => toBytes 3 ((List.range 4).map (fun j => codes.getD (4 * g + j) 0 * 2 ^ (6 * j))).sum)
  | 6 => (List.range 64).flatMap (fun g => toBytes 1 (codes.getD (2 * g) 0 + codes.getD (2 * g + 1) 0 * 16))
  | 8 => codes.flatMap (toBytes 4)
  | _ => codes.flatMap (toBytes 1)

/-- A computed element: its FP32 value, and whether an operand that produced it was infinite. -/
abbrev VecElem := Fv × Bool

/-- The code that a computed element is written as, in OFMT 0, 1 or 8 (R215). -/
def outCode (ofmt : Nat) (x : Fv) : Nat := (fmtOf ofmt).enc .rne x

/-- The element meets the condition of R227: a NaN is written, or an infinity that no operand had. -/
def flagged (ofmt : Nat) (e : VecElem) : Bool :=
  let w := (fmtOf ofmt).decode (outCode ofmt e.1)
  w.isNan || (w.isInf && !e.2)

/-- An entry of a row vector (R212). -/
def rowEntry (ofmt : Nat) (x : Fv) : List Byte :=
  if ofmt = 8 then toBytes 4 (outCode 8 x) else [0, 0] ++ toBytes 2 (outCode ofmt x)

/-- Replace the bytes that a faulty unit left wrong (R471). -/
def spoil (bs : List Byte) (wrong : List (Nat × Byte)) : List Byte :=
  wrong.foldl (fun l e => l.set e.1 e.2) bs

/-- The flags and counters of a vector instruction (R227, R230). -/
def State.vecDone (s : State) (a : Site) (f : VecF) (hw : HwReport) (rate extra : Nat)
    (func scan : Bool) (bad : Nat) : State :=
  let core := a.core.val
  let vl := f.vl.toNat
  let s := (s.bump Reg.CORE_VEC_BUSY_COUNT core 0 (rate * vl + extra)).bump Reg.CORE_VEC_VECTORS_COUNT core 0 vl
  let s := if func then s.bump Reg.CORE_VEC_FUNC_COUNT core 0 vl else s
  let s := if scan then s.bump Reg.CORE_VEC_SCAN_COUNT core 0 vl else s
  let s := if bad = 0 then s
    else (s.bump Reg.CORE_VEC_NONFIN_COUNT core 0 bad).nonfin core a.strand.val 2 (s.strand a).pc.toNat
  (s.report a hw true).advance a

/-- Write computed rows to TSD (R211, R215). -/
def State.vecRows (s : State) (a : Site) (f : VecF) (hw : HwReport) (rate : Nat) (func scan : Bool)
    (rows : List (List VecElem)) : State :=
  let o := f.ofmt.toNat
  let bs := rows.flatMap (fun r => packRow o (r.map (fun e => outCode o e.1)))
  let bad := (rows.map (fun r => r.countP (flagged o))).sum
  (s.twrite a.core.val (Tsop.addr (s.strand a) f.tsd) (spoil bs hw.wrong)).vecDone a f hw rate 0 func scan bad

/-- The frame of a vector instruction of a given shape. -/
def State.vec (s : State) (a : Site) (p : Pred) (f : VecF) (v : VecShape) (mxOut : Bool)
    (body : State → State) : State :=
  s.onRegions a p (s.vecRegions a f v mxOut) (s.vecCauses a f v mxOut) body

/-- An element-wise instruction over rows of two sources. -/
def State.elementwise (s : State) (a : Site) (f : VecF) (hw : HwReport) (rate : Nat) (func : Bool)
    (op : Fv → Fv → Fv) : State :=
  let t := s.strand a
  let core := a.core.val
  let rows := 2 * f.vl.toNat
  let x := s.operands core f.fmt.toNat (Tsop.unit t f.tsa) rows
  let y := s.operands core f.fmt.toNat (Tsop.unit t f.tsb) rows
  s.vecRows a f hw rate func false ((x.zip y).map (fun r => (r.1.zip r.2).map (fun e =>
    (op e.1.1 e.2.1, e.1.2 || e.2.2))))

/-- A function of the elements of one source. -/
def State.mapwise (s : State) (a : Site) (f : VecF) (hw : HwReport) (rate : Nat) (func : Bool)
    (op : Fv → Fv) : State :=
  let x := s.operands a.core.val f.fmt.toNat (Tsop.unit (s.strand a) f.tsa) (2 * f.vl.toNat)
  s.vecRows a f hw rate func false (x.map (fun r => r.map (fun e => (op e.1, e.2))))

/-- VADD (R218). -/
def execVadd (a : Site) (p : Pred) (f : VecF) (hw : HwReport) (s : State) :
    Host.Outcome State Fault Refusal :=
  loaded (.vadd a p f hw) (s.vec a p f shapeAB false (fun s => s.elementwise a f hw 1 false fadd))

/-- VMUL (R218). -/
def execVmul (a : Site) (p : Pred) (f : VecF) (hw : HwReport) (s : State) :
    Host.Outcome State Fault Refusal :=
  loaded (.vmul a p f hw) (s.vec a p f shapeAB false (fun s => s.elementwise a f hw 1 false fmul))

/-- VMAX (R218): FUNC 0 the larger, FUNC 1 the smaller operand. -/
def execVmax (a : Site) (p : Pred) (f : VecF) (hw : HwReport) (s : State) :
    Host.Outcome State Fault Refusal :=
  loaded (.vmax a p f hw) (s.vec a p f shapeAB false (fun s =>
    s.elementwise a f hw 1 false (if f.func = 0 then fmax else fmin)))

/-- VDER (R224 to R226). -/
def execVder (a : Site) (p : Pred) (f : VecF) (hw : HwReport) (s : State) :
    Host.Outcome State Fault Refusal :=
  loaded (.vder a p f hw) (s.vec a p f shapeAB false (fun s =>
    s.elementwise a f hw 2 (decide (2 ≤ f.func.toNat)) (derF f.func.toNat)))

/-- VFMA (R218): one rounding of a × b + c. -/
def execVfma (a : Site) (p : Pred) (f : VecF) (hw : HwReport) (s : State) :
    Host.Outcome State Fault Refusal :=
  loaded (.vfma a p f hw) (s.vec a p f shapeABC false (fun s =>
    let t := s.strand a
    let src (o : Tsop) : List (List VecElem) :=
      s.operands a.core.val f.fmt.toNat (Tsop.unit t o) (2 * f.vl.toNat)
    s.vecRows a f hw 1 false false ((((src f.tsa).zip (src f.tsb)).zip (src f.tsc)).map (fun r =>
      ((r.1.1.zip r.1.2).zip r.2).map (fun e =>
        (ffma e.1.1.1 e.1.2.1 e.2.1, e.1.1.2 || e.1.2.2 || e.2.2))))))

/-- VACT (R224 to R226). -/
def execVact (a : Site) (p : Pred) (f : VecF) (hw : HwReport) (s : State) :
    Host.Outcome State Fault Refusal :=
  let long := decide (2 ≤ f.func.toNat)
  loaded (.vact a p f hw) (s.vec a p f shapeA false (fun s =>
    s.mapwise a f hw (if long then 2 else 1) long (actF f.func.toNat)))

/-- VEXP (R221, R226): FUNC 0 e^a; FUNC 1 e^(a − m) with the m of each row. -/
def execVexp (a : Site) (p : Pred) (f : VecF) (hw : HwReport) (s : State) :
    Host.Outcome State Fault Refusal :=
  loaded (.vexp a p f hw) (s.vec a p f (shapeExp f.func.toNat) false (fun s =>
    if f.func = 0 then s.mapwise a f hw 2 true (fun x => expF x fzero x)
    else
      let t := s.strand a
      let rows := 2 * f.vl.toNat
      let x := s.operands a.core.val f.fmt.toNat (Tsop.unit t f.tsa) rows
      let m := s.rowVector a.core.val (Tsop.unit t f.tsb) rows
      s.vecRows a f hw 2 true false ((x.zip m).map (fun r => r.1.map (fun e =>
        (expSub e.1 r.2, e.2 || r.2.isInf))))))

/-- The reduction of one row (R204, R219): SUM, MAX, MIN, SUMSQ. -/
def reduceRow (func : Nat) (r : List Fv) : Fv :=
  match func with
  | 0 => treeFold fadd 8 r
  | 1 => treeFold fmax 8 r
  | 2 => treeFold fmin 8 r
  | _ => treeFold fadd 8 (r.map (fun x => fmul x x))

/-- VRED (R219): one value per row, as a row vector in OFMT. -/
def execVred (a : Site) (p : Pred) (f : VecF) (hw : HwReport) (s : State) :
    Host.Outcome State Fault Refusal :=
  loaded (.vred a p f hw) (s.vec a p f shapeRed false (fun s =>
    let t := s.strand a
    let x := s.operands a.core.val f.fmt.toNat (Tsop.unit t f.tsa) (2 * f.vl.toNat)
    let out : List VecElem := x.map (fun r => (reduceRow f.func.toNat (r.map Prod.fst), r.any Prod.snd))
    let bs := out.flatMap (fun e => rowEntry f.ofmt.toNat e.1)
    (s.twrite a.core.val (Tsop.addr t f.tsd) (spoil bs hw.wrong)).vecDone a f hw 1 0 false false
      (out.countP (flagged f.ofmt.toNat))))

/-- One level of the scan pattern at distance `d` (R223). -/
def scanLevel (d : Nat) (ab : List (Fv × Fv)) : List (Fv × Fv) :=
  let past := List.replicate d none ++ ab.map some
  (ab.zip past).map (fun e =>
    match e.2 with
    | none => e.1
    | some q => (fmul e.1.1 q.1, ffma e.1.1 q.2 e.1.2))

/-- The scan of one row from a state h0 (R223). -/
def scanRow (a b : List Fv) (h0 : Fv) : List Fv :=
  (([1, 2, 4, 8, 16, 32, 64].foldl (fun ab d => scanLevel d ab) (a.zip b))).map (fun e => ffma e.1 h0 e.2)

/-- Whether an operand of each element of a scan was infinite: any up to it, or the state. -/
def scanInfs (a b : List VecElem) (h0 : Fv) : List Bool :=
  ((a.zip b).foldl (fun (acc : List Bool × Bool) e =>
    let x := acc.2 || e.1.2 || e.2.2
    (acc.1 ++ [x], x)) ([], h0.isInf)).1

/-- A scanned row with its elements' operands. -/
def scanElems (a b : List VecElem) (h0 : Fv) : List VecElem :=
  (scanRow (a.map Prod.fst) (b.map Prod.fst) h0).zip (scanInfs a b h0)

/-- VSCAN (R222, R223): FUNC 0 the prefix sums of b; FUNC 1 h = a × h + b, carried in the row vector TSC. -/
def execVscan (a : Site) (p : Pred) (f : VecF) (hw : HwReport) (s : State) :
    Host.Outcome State Fault Refusal :=
  loaded (.vscan a p f hw) (s.vec a p f (shapeScan f.func.toNat) false (fun s =>
    let t := s.strand a
    let core := a.core.val
    let rows := 2 * f.vl.toNat
    let b := s.operands core f.fmt.toNat (Tsop.unit t f.tsb) rows
    if f.func = 0 then
      let ones : List VecElem := List.replicate 128 (fone, false)
      s.vecRows a f hw 2 false true (b.map (fun r => scanElems ones r fzero))
    else
      let x := s.operands core f.fmt.toNat (Tsop.unit t f.tsa) rows
      let h := s.rowVector core (Tsop.unit t f.tsc) rows
      let out := ((x.zip b).zip h).map (fun r => scanElems r.1.1 r.1.2 r.2)
      let last := out.flatMap (fun r => rowEntry 8 (r.getD 127 (fzero, false)).1)
      (s.twrite core (Tsop.addr t f.tsc) last).vecRows a f hw 2 false true out))

/-- The rounding that RND names (R137). -/
def rndOf (n : Nat) : Rnd := if n = 1 then .rtz else .rne

/-- VCVT (R198 to R200, R227, R228): one rounding from the exact value; MX output writes its block scales
to TSC. -/
def execVcvt (a : Site) (p : Pred) (f : VecF) (hw : HwReport) (s : State) :
    Host.Outcome State Fault Refusal :=
  let o := f.ofmt.toNat
  loaded (.vcvt a p f hw) (s.vec a p f shapeA (mxFmt o) (fun s =>
    let t := s.strand a
    let core := a.core.val
    let x := s.sourceExact core f.fmt.toNat (Tsop.unit t f.tsa) (2 * f.vl.toNat)
    let rnd := rndOf f.rnd.toNat
    if mxFmt o then
      let blocks := x.map (fun r => (List.range 4).map (fun j => mxBlock o rnd ((r.drop (32 * j)).take 32)))
      let bs := blocks.flatMap (fun r => packRow o (r.flatMap (fun b => b.2.1)))
      let sc := blocks.flatMap (fun r => r.map (fun b => BitVec.ofNat 8 b.1))
      let bad := 32 * (blocks.map (fun r => r.countP (fun b => b.2.2))).sum
      ((s.twrite core (Tsop.addr t f.tsd) (spoil bs hw.wrong)).twrite core (Tsop.addr t f.tsc) sc).vecDone
        a f hw 1 ((f.vl.toNat + 7) / 8) false false bad
    else
      let bs := x.flatMap (fun r => packRow o (r.map ((fmtOf o).enc rnd)))
      let bad := (x.map (fun r => r.countP (fun e => !((fmtOf o).decode ((fmtOf o).enc rnd e)).isFin))).sum
      (s.twrite core (Tsop.addr t f.tsd) (spoil bs hw.wrong)).vecDone a f hw 1 0 false false bad))

end Sys2Proof.Machine
end

