-- ==== Sys2Proof/Machine/Attention.lean ====
section
/-!
DEFINITION. Machine/Attention.lean: ABLK (R138, R231 to R245, R255 to R259) and ASEL (R139, R248 to R253).
-/

namespace Sys2Proof.Machine

/-! ### Operands -/

/-- 128 rows of a page-format operand at a unit, cut to the first `h` elements (R232, R233). -/
def State.attRows (s : State) (core fmt unit h : Nat) : List (List Fv) :=
  (regionVals fmt 128 (s.tread core (unit * unitBytes) (128 * rowSize fmt)) (s.scales core fmt unit 128)).map
    (fun r => r.take h)

/-- The pad rows of a key block (R241). -/
def State.padRows (s : State) (core fmt unit : Nat) : List Bool :=
  (List.range 128).map (fun j =>
    let row := s.tread core (unit * unitBytes + rowSize fmt * j) (rowSize fmt)
    if fmt = 0 then codeAt 0 row 0 == 0xFFFF
    else
      let sc := ofBytes (s.tread core (slotAddr unit + 4 * j) 1)
      codeAt fmt row 0 == 0xFF && sc != 0 && sc != 255)

/-- The largest ceiling exponent of a tile as it is read (R180, R236). -/
def maxCeil (m : List (List Fv)) : Option Int := (m.flatMap (fun r => r.filterMap Fv.ceilExp)).max?

/-- The anchor that ABLK forms for a product of two tiles: R187 with KLOG 7 (R236). -/
def attAnchor (x w : List (List Fv)) : Int :=
  match maxCeil x, maxCeil w with
  | some e, some f => max (e + f + 7 - 62) (-512)
  | _, _ => -512

/-- The exact sum of a row's products at an anchor, over the entries that `keep` selects: an accumulator's
value (R182, R183). -/
def attDot (a : Int) (x w : List Fv) (keep : List Bool) : Fv :=
  match accSum 0 (((x.zip w).zip keep).filterMap (fun e =>
      if e.2 then some (prodTerm a e.1.1 e.1.2) else none)) with
  | none => .nan
  | some v => .num (decide (v < 0)) v.natAbs a

/-- A row rounded to the page format by RNE, as the values that enter a product; its block scales; whether
a conversion was not finite (R199, R200). -/
def attRound (fmt : Nat) (r : List Fv) : List Fv × List Nat × Bool :=
  if fmt = 0 then
    let v := r.map (fun x => (fmtOf 0).decode ((fmtOf 0).enc .rne x))
    (v, [], v.any (fun x => !x.isFin))
  else
    let bs := (List.range 4).map (fun j => mxBlock fmt .rne ((r.drop (32 * j)).take 32))
    (bs.flatMap (fun b => b.2.1.map (mxElem fmt b.1)), bs.map (·.1), bs.any (·.2.2))

/-- Columns of a matrix of rows of length `h`. -/
def columnsOf (h : Nat) (m : List (List Fv)) : List (List Fv) :=
  (List.range h).map (fun d => m.map (fun r => r.getD d fzero))

/-- The masks of query row `i`: pad rows, the causal diagonal, the whole block (R242). -/
def attMask (pads : List Bool) (bmask scale i : Nat) : List Bool :=
  ((List.range 128).zip pads).map (fun e =>
    e.2 || (bmask == 1 && decide (i < e.1)) || scale == 0xFF80)

/-- The scores of a query row: the exact product with SCALE rounded once; −∞ for a masked key (R237). -/
def attScores (a : Int) (q : List Fv) (k : List (List Fv)) (scale : Fv) (mask : List Bool) : List Fv :=
  (k.zip mask).map (fun e =>
    if e.2 then .inf true else ((attDot a q e.1 (q.map (fun _ => true))).mul scale).r32)

/-- An element that sets NONFIN: a NaN, or an infinity that no operand had (R227). -/
def attBad (x : Fv) (ops : List Fv) : Bool := x.isNan || (x.isInf && !ops.any Fv.isInf)

/-- A FP32 row of 128 elements as bytes. -/
def f32Row (r : List Fv) : List Byte := packRow 8 (r.map (outCode 8))

/-- A computed query row: m or lse, l, output, whether it sets NONFIN, whether it ended empty, and the
zero block scales of P; `num` counts the written elements that meet R227. -/
structure AttRow where
  m : Fv
  l : Fv
  o : List Fv
  bad : Bool
  num : Nat
  empty : Bool
  gated : Nat
deriving DecidableEq, Repr

/-- P of one query row and the new m, l and factor c (R237). -/
def attSoftmax (s : List Fv) (m l : Fv) : List Fv × Fv × Fv × Fv :=
  let mn := fmax m (treeFold fmax 8 s)
  let p := s.map (fun x => expSub x mn)
  let c := expSub m mn
  (p, mn, ffma l c (treeFold fadd 8 p), c)

/-- The output of a query row after a block: o × c + P·V over the unmasked keys (R237). -/
def attOutput (o : List Fv) (c : Fv) (pv : List Fv) : List Fv :=
  (o.zip pv).map (fun e => ffma e.1 c e.2)

/-- The end of a row with LAST (R244). -/
def attLast (r : AttRow) : AttRow :=
  if r.m = .inf true then { r with o := r.o.map (fun _ => fzero), num := 0, empty := true }
  else
    let o := r.o.map (fun x => fdiv x r.l)
    let lse := fadd r.m (lnF r.l)
    { r with
      m := lse, o := o
      num := (attBad lse [r.m, r.l]).toNat + (r.o.zip o).countP (fun e => attBad e.2 [e.1, r.l])
      bad := r.bad || attBad lse [r.m, r.l] || ((r.o.zip o).any (fun e => attBad e.2 [e.1, r.l])) }

/-- One query row before its P·V product: scores, P as rounded, m, l and c. -/
structure AttHalf where
  mask : List Bool
  p : List Fv
  m : Fv
  l : Fv
  c : Fv
  bad : Bool
  gated : Nat
deriving DecidableEq, Repr

/-- The forward step up to P (R237). -/
def attHalf (fmt : Nat) (a : Int) (k : List (List Fv)) (scale : Fv) (q : List Fv) (mask : List Bool)
    (m l : Fv) : AttHalf :=
  let s := attScores a q k scale mask
  let r := attSoftmax s m l
  let pr := attRound fmt r.1
  { mask := mask, p := pr.1, m := r.2.1, l := r.2.2.1, c := r.2.2.2
    bad := q.any Fv.isNan || ((s.zip mask).any (fun e => !e.2 && !e.1.isFin)) || attBad r.2.2.1 [l, m]
      || r.2.1.isNan || pr.2.2
    gated := pr.2.1.countP (· == 0) }

/-- The forward step from P (R237, R244). -/
def attFinish (a : Int) (vcols : List (List Fv)) (last : Bool) (x : AttHalf) (o : List Fv) : AttRow :=
  let pv := vcols.map (fun w => (attDot a x.p w (x.mask.map not)).r32)
  let o' := attOutput o x.c pv
  let bad := x.bad || pv.any (fun y => !y.isFin) || (o.zip o').any (fun e => attBad e.2 [e.1, x.c])
  let num := x.m.isNan.toNat + x.l.isNan.toNat + (o.zip o').countP (fun e => attBad e.2 [e.1, x.c])
  let r : AttRow := { m := x.m, l := x.l, o := o', bad := bad, num := num, empty := false, gated := x.gated }
  if last then attLast r else r

/-! ### Effects that both steps share -/

/-- Zero block scales of an MX operand of 128 rows. -/
def State.zeroBlocks (s : State) (core fmt unit : Nat) : Nat :=
  (s.scales core fmt unit 128).countP (· == 0)

/-- The counters of an ABLK (R138, R175, R230, R265): `n` products, `cyc` cycles of the units. -/
def State.countAblk (s : State) (core n cyc gated pads : Nat) (fmt : Nat) (bwd : Bool) : State :=
  let arr := s.arrayOf core
  let s := s.bump Reg.CORE_ARR_LOAD_COUNT arr 0 (128 * n)
  let s := s.bump Reg.CORE_ARR_STREAM_COUNT arr 0 ((if fmt = 0 then 256 else 128) * n)
  let s := s.bump Reg.CORE_ARR_ROWS_COUNT arr 0 (128 * n)
  let s := s.bump Reg.CORE_ARR_ZBGATE_COUNT arr 0 gated
  let s := s.bump Reg.CORE_ARR_CHECKS_COUNT arr 0 n
  let s := s.bump Reg.CORE_VEC_BUSY_COUNT core 0 cyc
  let s := s.bump Reg.ATT_PAD_KEYS_COUNT 0 0 pads
  s.bump (if bwd then Reg.ATT_BWD_BLOCKS_COUNT else Reg.ATT_FWD_BLOCKS_COUNT)

/-- The end of an ABLK: its loads have replaced the stationary tile (R146, R149), NONFIN with the elements of R227, a failed check
(R173, R469), the hardware's reports, the next instruction. -/
def State.ablkDone (s : State) (a : Site) (bad : Bool) (num : Nat) (hw : HwReport) (chk : Option ChkFail) : State :=
  let core := a.core.val
  let idx := (s.strand a).pc.toNat
  let s := s.setCore core { s.core core with stat := none }
  let s := if num = 0 then s else s.bump Reg.CORE_VEC_NONFIN_COUNT core 0 num
  let s := if bad then s.nonfin core a.strand.val 1 idx else s
  let s := match chk with
    | some e => ((s.logCheck core (s.arrayOf core) a.strand.val idx e).coreFail (s.arrayOf core) 0).notRelieved core
        (s.partnerOf (s.arrayOf core)) true
    | none => s
  (s.report a hw true).advance a

/-- Rows that ended empty (R244, R245, R266): their count, and ATT_EMPTY for the core's first one. -/
def State.emptyRows (s : State) (a : Site) (rows : List AttRow) : State :=
  match rows.findIdx? (·.empty) with
  | none => s
  | some i =>
    let core := a.core.val
    let s := (s.bump Reg.ATT_EMPTYROWS_COUNT 0 0 (rows.countP (·.empty))).put Reg.ATT_STATUS_EMPTY 1
    if (s.core core).emptySent then s
    else
      let s := s.setCore core { s.core core with emptySent := true }
      s.event 0x0402 (a.strand.val + i * 4 + (s.strand a).pc.toNat % 2 ^ 23 * 2 ^ 9) core

/-! ### The forward step -/

/-- The forward step (R235 to R245). -/
def State.ablkForward (s : State) (a : Site) (uq ukv ust fmt bmask scale h : Nat) (first last : Bool)
    (hw : HwReport) (chk : Option ChkFail) : State :=
  let core := a.core.val
  let q := s.attRows core fmt uq h
  let k := s.attRows core fmt ukv h
  let v := s.attRows core fmt (ukv + pageTile fmt) h
  let pads := s.padRows core fmt ukv
  let sc := (fmtOf 0).decode scale
  let m := if first then List.replicate 128 (.inf true) else s.rowVector core ust 128
  let l := if first then List.replicate 128 fzero else s.rowVector core (ust + 1) 128
  let o := if first then List.replicate 128 (List.replicate h fzero) else s.attRows core 8 (ust + 2) h
  let a1 := attAnchor q k
  let halves := ((List.range 128).zip ((q.zip m).zip l)).map (fun e =>
    attHalf fmt a1 k sc e.2.1.1 (attMask pads bmask scale e.1) e.2.1.2 e.2.2)
  let a2 := attAnchor (halves.map (·.p)) v
  let vc := columnsOf h v
  let rows := (halves.zip o).map (fun e => attFinish a2 vc last e.1 e.2)
  let bs := rows.flatMap (fun r => toBytes 4 (outCode 8 r.m)) ++ rows.flatMap (fun r => toBytes 4 (outCode 8 r.l))
    ++ rows.flatMap (fun r => f32Row (r.o ++ List.replicate (128 - h) fzero))
  let cyc := (if fmt = 0 then 768 else 512) + (if last then 64 else 0)
  let gated := s.zeroBlocks core fmt uq + (rows.map (·.gated)).sum
  let s := s.twrite core (ust * unitBytes) (spoil bs hw.wrong)
  let s := s.countAblk core 2 cyc gated (pads.countP id) fmt false
  (s.emptyRows a rows).ablkDone a (rows.any (·.bad)) (rows.map (·.num)).sum hw chk

/-! ### The backward step (R255 to R259) -/

/-- One query row of the backward step: its mask, P and dS as rounded, NONFIN, zero blocks of each. -/
structure AttGrad where
  mask : List Bool
  p : List Fv
  ds : List Fv
  bad : Bool
  gatedP : Nat
  gatedS : Nat
deriving DecidableEq, Repr

/-- P and dS of one query row (R257). -/
def attGrad (fmt : Nat) (a1 a2 : Int) (k v : List (List Fv)) (scale : Fv) (mask : List Bool)
    (q dO : List Fv) (lse d : Fv) : AttGrad :=
  let s := attScores a1 q k scale mask
  let p := (s.zip mask).map (fun e => if e.2 || lse == .inf true then fzero else expSub e.1 lse)
  let dp := (v.zip mask).map (fun e =>
    if e.2 then fzero else (attDot a2 dO e.1 (dO.map (fun _ => true))).r32)
  let ds := ((p.zip dp).zip mask).map (fun e =>
    if e.2 then fzero else fmul scale (fmul e.1.1 (fsub e.1.2 d)))
  let bad := (((s.zip p).zip (dp.zip ds)).zip mask).any (fun e =>
    !e.2 && (!e.1.1.1.isFin || attBad e.1.1.2 [lse] || !e.1.2.1.isFin || attBad e.1.2.2 [d, e.1.1.2]))
  let pr := attRound fmt p
  let sr := attRound fmt ds
  { mask := mask, p := pr.1, ds := sr.1
    bad := bad || q.any Fv.isNan || dO.any Fv.isNan || pr.2.2 || sr.2.2
    gatedP := pr.2.1.countP (· == 0), gatedS := sr.2.1.countP (· == 0) }

/-- The terms that key `j` receives for column `d`, from the query rows that do not mask it. -/
def partialTerms (a : Int) (g : List AttGrad) (pick : AttGrad → List Fv) (x : List (List Fv)) (j d : Nat) :
    List (Option Int) :=
  (g.zip x).filterMap (fun e =>
    if e.1.mask.getD j true then none
    else some (prodTerm a ((pick e.1).getD j fzero) (e.2.getD d fzero)))

/-- A gradient partial of a key block: the record at `unit`, its accumulators after it (R255, R258). -/
def State.addPartial (s : State) (a : Site) (unit h : Nat) (g : List AttGrad) (pick : AttGrad → List Fv)
    (x : List (List Fv)) : State × Bool :=
  let core := a.core.val
  let idx := (s.strand a).pc.toNat
  let w0 := s.recWord core unit 0
  let anc := sint10 w0
  let old := s.accRead core (unit + 1) 128
  let vals := ((List.range 128).zip old).map (fun r => ((List.range 128).zip r.2).map (fun e =>
    if e.1 < h then (accSum e.2 (partialTerms anc g pick x r.1 e.1), true)
    else (if e.2 = nanMarker then none else some e.2.toInt, false)))
  let nan := ((List.range 128).any (fun j => (List.range h).any (fun d =>
    (partialTerms anc g pick x j d).any Option.isNone)))
  let sat := vals.any (fun r => r.any (fun e => e.2 && accOver e.1))
  let s := s.accWrite core (unit + 1) anc (vals.map (fun r => r.map (fun e => accWord e.1)))
  let s := s.setRecWord core unit 0 (productRecord w0 0 anc false nan sat)
  (if sat then s.exhausted core a.strand.val true anc idx else s, nan)

/-- A record of a partial is not VALID (R258). -/
def State.partialBad (s : State) (core unit : Nat) : Bool := bits (s.recWord core unit 0) 31 1 == 0

/-- The backward step (R255 to R259). -/
def State.ablkBackward (s : State) (a : Site) (uq ukv ust fmt bmask scale h : Nat) (first : Bool)
    (hw : HwReport) (chk : Option ChkFail) : State :=
  let core := a.core.val
  let t := pageTile fmt
  let q := s.attRows core fmt uq h
  let dO := s.attRows core fmt (uq + t) h
  let k := s.attRows core fmt ukv h
  let v := s.attRows core fmt (ukv + t) h
  let pads := s.padRows core fmt ukv
  let sc := (fmtOf 0).decode scale
  let lse := s.rowVector core ust 128
  let dd := s.rowVector core (ust + 1) 128
  let dq := if first then List.replicate 128 (List.replicate h fzero) else s.attRows core 8 (ust + 2) h
  let a1 := attAnchor q k
  let a2 := attAnchor dO v
  let g := ((List.range 128).zip ((q.zip dO).zip (lse.zip dd))).map (fun e =>
    attGrad fmt a1 a2 k v sc (attMask pads bmask scale e.1) e.2.1.1 e.2.1.2 e.2.2.1 e.2.2.2)
  let a3 := attAnchor (g.map (·.ds)) k
  let kc := columnsOf h k
  let add := g.map (fun r => kc.map (fun w => (attDot a3 r.ds w (r.mask.map not)).r32))
  let dq' := (dq.zip add).map (fun r => (r.1.zip r.2).map (fun e => fadd e.1 e.2))
  let num := ((dq.zip dq').map (fun r => (r.1.zip r.2).countP (fun e => attBad e.2 [e.1]))).sum
  let badQ := ((dq.zip add).zip dq').any (fun r => ((r.1.1.zip r.1.2).zip r.2).any (fun e =>
    !e.1.2.isFin || attBad e.2 [e.1.1]))
  let bs := dq'.flatMap (fun r => f32Row (r ++ List.replicate (128 - h) fzero))
  let gated := s.zeroBlocks core fmt uq + s.zeroBlocks core fmt (uq + t)
    + (g.map (fun r => r.gatedP + 2 * r.gatedS)).sum
  let s := s.twrite core ((ust + 2) * unitBytes) (spoil bs hw.wrong)
  let (s, bad1) := s.addPartial a (ukv + 2 * t + 257) h g (·.p) dO
  let (s, bad2) := s.addPartial a (ukv + 2 * t) h g (·.ds) q
  let s := s.countAblk core 5 (if fmt = 0 then 1920 else 1280) gated (pads.countP id) fmt true
  s.ablkDone a (badQ || bad1 || bad2 || g.any (·.bad)) num hw chk

/-- ABLK (R138, R235 to R245, R255 to R259). -/
def execAblk (a : Site) (p : Pred) (tsq tskv tsst : Tsop) (fmt : BitVec 4) (bmask : BitVec 2)
    (first last : Bool) (scale : BitVec 16) (hdim : BitVec 4) (bwd : Bool) (hw : HwReport)
    (chk : Option ChkFail) (s : State) : Host.Outcome State Fault Refusal :=
  let i := Instr.ablk a p tsq tskv tsst fmt bmask first last scale hdim bwd hw chk
  let f := fmt.toNat
  loaded i (s.onTile a p i
    (fun t =>
      let u := Tsop.unit t tskv + 2 * pageTile f
      [(bwd && (s.partialBad a.core.val u || s.partialBad a.core.val (u + 257)), 0x0A)])
    (fun s =>
      let t := s.strand a
      let h := 16 * hdim.toNat
      if bwd then s.ablkBackward a (Tsop.unit t tsq) (Tsop.unit t tskv) (Tsop.unit t tsst) f bmask.toNat scale.toNat h first hw chk
      else s.ablkForward a (Tsop.unit t tsq) (Tsop.unit t tskv) (Tsop.unit t tsst) f bmask.toNat scale.toNat h first last hw chk))

/-! ### ASEL (R248 to R253) -/

/-- The exact sum of products, rounded once to FP32; a factor that is not finite gives NaN (R183, R249). -/
def selDot (x w : List Fv) : Fv :=
  if x.any (fun v => !v.isFin) || w.any (fun v => !v.isFin) then .nan
  else (((x.zip w).map (fun e => e.1.mul e.2)).foldl Fv.add fzero).r32

/-- A candidate: block score (FP32 code) and block index. -/
abbrev Cand := Nat × Nat

/-- Insert a candidate: higher score first, equal scores by lower index (R250). -/
def insertCand (c : Cand) : List Cand → List Cand
  | [] => [c]
  | d :: t =>
    if (ofF32 d.1).lt (ofF32 c.1) || (!(ofF32 c.1).lt (ofF32 d.1) && decide (c.2 < d.2)) then c :: d :: t
    else d :: insertCand c t

/-- Keep the TOPK best (R250). -/
def keepCand (topk : Nat) (l : List Cand) (c : Cand) : List Cand := (insertCand c l).take topk

/-- The selection list (R251). -/
def selectionList (cands : List Cand) (qblk win counted : Nat) : List Nat :=
  let window := (List.range win).filterMap (fun k => if k ≤ qblk ∧ qblk - k < counted then some (qblk - k) else none)
  ((0 :: cands.map (·.2)) ++ window).eraseDups.stableSort (· ≤ ·)

/-- The candidates that TSLIST holds (R252). -/
def State.readCands (s : State) (core unit : Nat) : List Cand :=
  let n := min 256 (ofBytes (s.tread core (unit * unitBytes + 4) 2))
  let b := s.tread core (unit * unitBytes + 2048) (8 * n)
  (List.range n).map (fun k => (fld b (8 * k) 4, bits (fld b (8 * k + 4) 4) 0 17))

/-- TSLIST as bytes (R252). Its unused candidate entries are free (log 2). -/
def selBytes (draw counted : Nat) (cands : List Cand) (list : List Nat) : List Byte :=
  let head := toBytes 4 counted ++ toBytes 2 cands.length ++ toBytes 2 list.length ++ List.replicate 8 0
  let entries := (list.take 321).flatMap (toBytes 4)
    ++ List.replicate (4 * (321 - min 321 list.length)) 0xFF
  head ++ entries ++ List.replicate 748 0
    ++ cands.flatMap (fun c => toBytes 4 c.1 ++ toBytes 4 c.2) ++ freeBytes draw (8 * (256 - cands.length))

/-- QBLK with its loop term (R139). -/
def selQblk (t : Strand) (qblk : BitVec 17) (qlc : BitVec 2) (qlce : Bool) : Nat :=
  qblk.toNat + (if qlce then t.iter qlc.toNat else 0)

/-- ASEL (R139, R249 to R253). -/
def execAsel (a : Site) (p : Pred) (tsq tssum tslist : Tsop) (qblk : BitVec 17) (qlc : BitVec 2)
    (qlce : Bool) (topk : BitVec 9) (win : BitVec 7) (first last causal : Bool) (nsum1 : BitVec 7)
    (hw : HwReport) (s : State) : Host.Outcome State Fault Refusal :=
  let i := Instr.asel a p tsq tssum tslist qblk qlc qlce topk win first last causal nsum1 hw
  let core := a.core.val
  let n := nsum1.toNat + 1
  loaded i (s.onTile a p i
    (fun t =>
      let u := Tsop.unit t tslist * unitBytes
      let done := if first then 0 else ofBytes (s.tread core u 4)
      let nlist := ofBytes (s.tread core (u + 6) 2)
      [(decide (131072 < done + n) || decide (131071 < selQblk t qblk qlc qlce) || (!first && nlist != 0), 0x0A)])
    (fun s =>
      let t := s.strand a
      let u := Tsop.unit t tslist
      let qb := selQblk t qblk qlc qlce
      let done := if first then 0 else ofBytes (s.tread core (u * unitBytes) 4)
      let cands := if first then [] else s.readCands core u
      let q := s.attRows core 0 (Tsop.unit t tsq) 128
      let sums := regionVals 0 n (s.tread core (Tsop.unit t tssum * unitBytes) (256 * n)) []
      let scored := ((List.range n).zip sums).filter (fun e => !causal || decide (done + e.1 ≤ qb))
      let scores := scored.map (fun e => (treeFold fmax 8 (q.map (fun r => selDot r e.2)), done + e.1))
      let nan := scores.any (fun e => e.1.isNan)
      let cands := scores.foldl (fun l e => keepCand topk.toNat l
        (f32.enc .rne (if e.1.isNan then .inf true else e.1), e.2)) cands
      let list := if last then selectionList cands qb win.toNat (done + n) else []
      let bs := selBytes s.draw (done + n) cands list
      let s := (s.drawn).twrite core (u * unitBytes) bs
      let arr := s.arrayOf core
      let s := (s.bump Reg.CORE_ARR_LOAD_COUNT arr 0 128).bump Reg.CORE_ARR_STREAM_COUNT arr 0 256
      let s := (s.bump Reg.CORE_ARR_ROWS_COUNT arr 0 128).bump Reg.ATT_SEL_SCORED_COUNT 0 0 scored.length
      let s := if last then s.bump Reg.ATT_SELECTIONS_COUNT else s
      let s := s.setCore core { s.core core with stat := none }
      let s := if nan then (s.put Reg.ATT_STATUS_SEL_NAN 1).nonfin core a.strand.val 1 t.pc.toNat else s
      (s.report a hw).advance a))

end Sys2Proof.Machine
end

