-- ==== Sys2Proof/Machine/Control.lean ====
section
/-!
DEFINITION. Machine/Control.lean: strand control (R61, R77, R82, R83, R127, R128).
-/

namespace Sys2Proof.Machine

/-- NOP does nothing in one issue (R126). -/
def execNop (a : Site) (s : State) : Host.Outcome State Fault Refusal :=
  loaded (.nop a) (s.issue a noPred (fun s => s.advance a))

/-- Enter a loop (R82, R122): the counter takes the count; 0 skips the body; the body repeats COUNT
times. -/
def Strand.enterLoop (t : Strand) (lc body count : Nat) : Strand :=
  let first := t.pc.toNat + 1
  let t := { t with lc := Tab.set 0 t.lc lc (BitVec.ofNat 32 count) }
  if count = 0 then t.goto (first + body)
  else
    let f : LoopFrame := { lc := lc, first := first, last := first + body, count := count }
    { t with pc := BitVec.ofNat 32 first, loops := f :: t.loops }

/-- LOOP (R82, R127). -/
def execLoop (a : Site) (lc : BitVec 2) (csrc : Bool) (sreg : BitVec 5) (count : BitVec 32)
    (body : BitVec 24) (s : State) : Host.Outcome State Fault Refusal :=
  loaded (.loop a lc csrc sreg count body) (s.issue a noPred (fun s =>
    let t := s.strand a
    let n := if csrc then (t.s sreg.toNat).toNat else count.toNat
    s.guarded a [(decide (2 ^ 32 ≤ n), 0x02)]
      (fun s => s.setStrand a ((s.strand a).enterLoop lc.toNat body.toNat n))))

/-- The comparison of CMP for a source of `w` bits (R127, R128): EQ, NE, LTU, GEU, LT, GE. IMM is
sign-extended for LT and GE and zero-extended otherwise. -/
def compare_ (w cmp v : Nat) (imm : BitVec 32) : Bool :=
  let x := BitVec.ofNat w v
  match cmp with
  | 0 => x == imm.setWidth w
  | 1 => x != imm.setWidth w
  | 2 => x.ult (imm.setWidth w)
  | 3 => !x.ult (imm.setWidth w)
  | 4 => x.slt (imm.signExtend w)
  | _ => !x.slt (imm.signExtend w)

/-- The combination of two predicates: AND, OR, XOR, ANDN (R127). -/
def combine (cmp : Nat) (x y : Bool) : Bool :=
  match cmp with
  | 0 => x && y
  | 1 => x || y
  | 2 => x != y
  | _ => x && !y

/-- Whether the latest PFH in a slot of the strand has taken a fallback (R128). -/
def State.prefetchMissed (s : State) (a : Site) (slot : Nat) : Bool :=
  match s.prefetches.find? (fun p => p.site == a && p.slot == slot) with
  | some p => p.missed
  | none => false

/-- The value that PSET writes (R128). -/
def State.psetValue (s : State) (a : Site) (src cmp sel selb : Nat) (imm : BitVec 32) (tsop : Tsop)
    (word : Nat) : Bool :=
  let t := s.strand a
  match src with
  | 0 => compare_ 32 cmp (t.lcv sel) imm
  | 1 => compare_ 64 cmp (t.s sel).toNat imm
  | 2 => compare_ 32 cmp (ofBytes (s.tread a.core.val (Tsop.addr t tsop + 4 * word) 4)) imm
  | 3 => combine cmp (t.pred sel) (t.pred selb)
  | _ => s.prefetchMissed a sel

/-- PSET (R127, R128). -/
def execPset (a : Site) (p : Pred) (dstp src cmp : BitVec 3) (sel : BitVec 6) (selb : BitVec 3)
    (imm : BitVec 32) (tsop : Tsop) (word : BitVec 7) (s : State) : Host.Outcome State Fault Refusal :=
  let i := Instr.pset a p dstp src cmp sel selb imm tsop word
  loaded i (s.onTile a p i (fun _ => []) (fun s =>
    let v := s.psetValue a src.toNat cmp.toNat sel.toNat selb.toNat imm tsop word.toNat
    (s.setStrand a ((s.strand a).setPred dstp.toNat v)).advance a))

/-- SKIP (R83, R118): with its condition true the next N instructions are skipped. -/
def execSkip (a : Site) (p : Pred) (n : BitVec 8) (s : State) : Host.Outcome State Fault Refusal :=
  loaded (.skip a p n) (s.issue a p (fun s =>
    let t := s.strand a
    s.setStrand a (t.goto (t.pc.toNat + 1 + n.toNat))))

/-- The index of the current beat within the step. -/
def State.beatInStep (s : State) : Nat := s.beat - s.step.firstBeat

/-- Keep the smallest slack of any strand in the beat (R61). -/
def State.noteSlack (s : State) (core slack : Nat) : State :=
  match s.bt.slackMin with
  | some m => if slack < m.1 then { s with bt := { s.bt with slackMin := some (slack, core) } } else s
  | none => { s with bt := { s.bt with slackMin := some (slack, core) } }

/-- The strand has completed a segment. -/
def Strand.endSegment (t : Strand) : Strand :=
  { t with seg := t.seg + 1, overrun := false, overBeats := 0 }

/-- BEAT (R61, R67, R78): the segment ends; the strand waits for the next boundary, unless it is late
and its next segment's beat has begun. The BEAT that would end the step's last segment stops it. -/
def execBeat (a : Site) (slack : Nat) (s : State) : Host.Outcome State Fault Refusal :=
  loaded (.beat a slack) (s.issue a noPred (fun s =>
    let t := s.strand a
    s.guarded a [(decide (s.step.beats ≤ t.seg.toNat + 1), 0x01)] (fun s =>
      let s := s.noteSlack a.core.val (if t.overrun then 0 else slack)
      let t := t.endSegment.goto (t.pc.toNat + 1)
      if t.seg.toNat ≤ s.beatInStep then s.setStrand a t
      else (s.setStrand a { t with st := .waitBeat }).switchFrom a)))

/-- HALT (R77): the strand is idle until the next step entry. Its segment ends there (R61, log 36). -/
def execHalt (e : SegmentEnd) (s : State) : Host.Outcome State Fault Refusal :=
  let a := e.site
  loaded (.halt e) (s.issue a noPred (fun s =>
    let t := s.strand a
    let s := s.noteSlack a.core.val (if t.overrun then 0 else e.slack)
    (s.setStrand a { t.endSegment with st := .idle }).switchFrom a))

end Sys2Proof.Machine
end

