-- ==== Sys2Proof/Machine/Link.lean ====
section
/-!
DEFINITION. Machine/Link.lean: the sending side of the Bilaiham transport (R434 to R449): spraying,
connections, windows, packets.
-/

namespace Sys2Proof.Machine

/-- The bytes of a frame on the wire from the MAC header to the FCS (R438): 78 and its payload. -/
def wireBytes (payload : Nat) : Nat := 78 + payload

/-- The bytes of any frame: an NVMe/TCP frame carries IPv6 and TCP headers and a PDU header with its digests, an ICMP
echo IPv6 and ICMP headers, a neighbour message its fixed length; ARP and PFC frames are of the shortest length (log 71). -/
def Frame.length (f : Frame) : Nat :=
  if f.ty < 0x100 then wireBytes f.payload.length
  else if f.ty = 0x100 then 114 + f.payload.length
  else if f.ty = 0x101 then 70 + f.payload.length
  else if f.ty = 0x102 then 94
  else 64

/-- The DATA class (R437): DATA, SOINC, COLL, NREQ, NRESP, DCOUNT, DGRANT. -/
def isData (ty : Nat) : Bool := decide (1 ≤ ty ∧ ty ≤ 7)

/-- The PCP of a frame's class (R437, R463): CONTROL, DATA, or STORE for what is beside the transport. -/
def State.pcpOf (s : State) (ty : Nat) : Nat :=
  if isData ty then s.get Reg.FAB_CFG_PCP_DATA
  else if ty < 0x100 then s.get Reg.FAB_CFG_PCP_CTL
  else s.get Reg.FAB_CFG_PCP_STORE

/-- The ports in the spray set, ascending (R435). -/
def State.spray (s : State) : List Nat := (List.range 16).filter (fun p => (s.port p).spray)

/-- The ports that a frame for a node may take, ascending: the spray set, and for the twin of a D2 the four hub pairs
of the twin bridge as ports 16 to 19, where the frame may use the bridge (R29, R445). -/
def State.paths (s : State) (node : Nat) (bridge : Bool) : List Nat :=
  s.spray ++ (match s.peer 16 with
    | some q => if bridge && q.node.toNat == node then [16, 17, 18, 19] else []
    | none => [])

/-- Whether a frame may use the twin bridge: a frame of a collective only where its plan has TWIN (R450). -/
def State.mayBridge (s : State) (f : Frame) : Bool :=
  f.ty != 0x03 || ((imgPlans s.img)[f.addr.toNat % 2 ^ 16]?).any (fun r => bits r.flags 1 1 == 1)

/-- The first of some ports after a port, wrapping. -/
def portAfter (ps : List Nat) (last : Nat) : Option Nat :=
  match ps.find? (fun p => decide (last < p)) with
  | some p => some p
  | none => ps.head?

/-- The ports that a frame may take now: a frame of the DATA class none that its peer has paused (R448); a port whose
transmit queue holds more than 64 KiB is skipped while another is left (R445, log 19). -/
def State.portsFor (s : State) (f : Frame) : List Nat :=
  let ps := (s.paths f.dnode (s.mayBridge f)).filter (fun p => !(isData f.ty && (s.port p).paused))
  let short := ps.filter (fun p => decide ((s.port p).txq ≤ 65536))
  if short.isEmpty then ps else short

/-- The next port for a frame (R445): the first that it may take after the port of the last frame that was not a marker,
wrapping. -/
def State.portFor (s : State) (f : Frame) : Option Nat :=
  portAfter (s.portsFor f) (match s.sent.find? (fun f => f.ty != 0x0C && f.ty < 0x100) with
    | some f => f.port
    | none => 19)

/-- The port that a frame is sent on again: the next after the one it left on (R446). -/
def State.portAgain (s : State) (f : Frame) : Option Nat := portAfter (s.portsFor f) f.port

/-- A frame as a port sends it (R436 to R438). -/
def State.framed (s : State) (port : Nat) (f : Frame) : Frame :=
  { f with port := port, snode := s.node, pcp := s.pcpOf f.ty, enc := isData f.ty }

/-- Hand a frame to a port; its bytes are counted there (R462). The twin bridge is not counted among the ports (R29). -/
def State.emitOn (s : State) (port : Nat) (f : Frame) : State :=
  let q := s.port port
  let s := ({ s with sent := s.framed port f :: s.sent }).setPort port { q with txq := q.txq + f.length }
  if port < 16 then s.bump Reg.FAB_PORT_TXBYTES_COUNT port 0 f.length else s

/-- Bytes received at a port (R462); the twin bridge is not counted among the ports (R29). -/
def State.rxRaw (s : State) (port n : Nat) : State :=
  if port < 16 then s.bump Reg.FAB_PORT_RXBYTES_COUNT port 0 n else s

/-- A CONTROL frame (R437): no PSN, MSG or payload of its own. -/
def controlFrame (ty dnode dcid addr aux : Nat) (payload : List Byte := []) : Frame :=
  { ty := ty, port := 0, pcp := 0, enc := false, snode := 0, dnode := dnode, dcid := dcid, epoch := 0, psn := 0, msg := 0, xsn := 0
    addr := BitVec.ofNat 64 addr, aux := BitVec.ofNat 64 aux, last := true, retx := false, mark := none, nvme := none
    payload := payload }

/-- A DATA-class frame before the connection gives it PSN, MSG and EPOCH. -/
def dataFrame (ty node addr aux : Nat) (last : Bool) (payload : List Byte) : Frame :=
  { ty := ty, port := 0, pcp := 0, enc := false, snode := 0, dnode := node, dcid := 0, epoch := 0, psn := 0, msg := 0, xsn := 0
    addr := BitVec.ofNat 64 addr, aux := BitVec.ofNat 64 aux, last := last, retx := false, mark := none, nvme := none
    payload := payload }

/-- The connection contexts in use, with their numbers. -/
def State.openConns (s : State) : List (Nat × Conn) :=
  s.conns.filter (fun e => e.2.opened || e.2.pendingOpen)

/-- The connection context that joins context `c` to a node (R439). -/
def State.connOf (s : State) (c node : Nat) : Option Nat :=
  (s.openConns.find? (fun e => e.2.ctx == c && e.2.peer == node)).map (·.1)

/-- Packets sent and not yet acknowledged (R441), `FAB_UNACKED`. -/
def State.unackedCount (s : State) : Nat := (s.conns.map (fun e => e.2.unacked.length)).sum

/-- DCID of a frame on a connection: the peer's context and that context's generation (R438). -/
def Conn.dcid (c : Conn) : Nat := c.theirs + c.theirGen.toNat * 2 ^ 13

/-- A context of this device as CONNECT, ACCEPT and CLOSE name it, with its generation as in DCID (R438, log 72). -/
def State.ownCid (s : State) (i : Nat) : Nat := i + (s.conn i).dgen.toNat * 2 ^ 13

/-! ### Sessions (R459, R515) -/

/-- XSN at which a session is rekeyed at the latest (R459). -/
def xsnLimit : Nat := 2 ^ 32 - 2 ^ 20

/-- The session of a node and a context, or the node's device session. -/
def State.session (s : State) (node : Nat) (ctx : Option Nat) : Option Session :=
  s.sec.sessions.find? (fun e => e.node == node && e.ctx == ctx)

/-- Replace a session. -/
def State.setSession (s : State) (x : Session) : State :=
  { s with sec := { s.sec with sessions := s.sec.sessions.map (fun e =>
      if e.node = x.node ∧ e.ctx = x.ctx then x else e) } }

/-- A session with keys of its own (R515): the keys that are agreed are free values. -/
def State.newKeys (s : State) (node : Nat) (ctx : Option Nat) : Session :=
  { node := node, ctx := ctx, txKey := Config.key s.draw, rxKey := Config.key (s.draw + 1), salt := Config.key (s.draw + 2)
    xsn := 0 }

/-- New keys, and XSN starts again (R459). -/
def State.rekey (s : State) (x : Session) : State :=
  { (s.setSession (s.newKeys x.node x.ctx)).bump Reg.SEC_REKEYS_COUNT with freeCounter := s.freeCounter + 3 }

/-- Forget sessions (R514). -/
def State.dropSessions (s : State) (p : Session → Bool) : State :=
  { s with sec := { s.sec with sessions := s.sec.sessions.filter (fun e => !p e) } }

/-- Add a session to the table of 16,384; the oldest one without an open connection leaves a full table (R515). -/
def State.addSession (s : State) (node : Nat) (ctx : Option Nat) : State :=
  match s.session node ctx with
  | some _ => s
  | none =>
    let busy (e : Session) : Bool := s.conns.any (fun c => c.2.opened && c.2.peer == e.node && some c.2.ctx == e.ctx)
    let old := s.sec.sessions
    let l := if 16384 ≤ old.length then
        match old.find? (fun e => !busy e) with
        | some e => old.erase e
        | none => old
      else old
    { s with sec := { s.sec with sessions := l ++ [s.newKeys node ctx] }, freeCounter := s.freeCounter + 3 }

/-- The transmission number of the next frame under a session's key; it advances at every transmission, and the session
is rekeyed before it reaches its limit (R459). Before its session is agreed a frame carries 0. -/
def State.takeXsn (s : State) (node : Nat) (ctx : Option Nat) : State × Nat :=
  match s.session node ctx with
  | none => (s, 0)
  | some x =>
    let n := if xsnLimit ≤ x.xsn + 1 then 0 else x.xsn
    let t := if xsnLimit ≤ x.xsn + 1 then s.rekey x else s
    ((t.setSession { (t.session node ctx).getD x with xsn := n + 1 }), n)

/-- Hand a frame to a port under a session (R459). -/
def State.emitAs (s : State) (port node : Nat) (ctx : Option Nat) (f : Frame) : State :=
  let x := s.takeXsn node ctx
  x.1.emitOn port { f with xsn := x.2 }

/-- Hand a frame to the next port of the rotation under a session; with no port to take nothing leaves. -/
def State.emitIn (s : State) (node : Nat) (ctx : Option Nat) (f : Frame) : State :=
  match s.portFor f with
  | none => s
  | some p => s.emitAs p node ctx f

/-- Close a connection context: DGEN advances (R440). -/
def State.closeConn (s : State) (i : Nat) : State :=
  s.setConn i { Conn.reset with dgen := (s.conn i).dgen + 1 }

/-- A connection is idle when it has no unacknowledged packet in either direction and has carried no
traffic for two beats (R440). -/
def State.idleConn (s : State) (c : Conn) : Bool :=
  c.opened && c.unacked.isEmpty && c.ackDue == 0 && decide (c.lastBeat + 2 ≤ s.beat)

/-- The connection context for a new connection: the lowest free one, else the idle one whose last
traffic is oldest, ties to the lower index (R440). -/
def State.freeConn (s : State) : Option (Nat × Bool) :=
  match findFrom (fun i => !((s.conn i).opened || (s.conn i).pendingOpen)) 8192 0 with
  | some i => some (i, false)
  | none =>
    let idle := s.openConns.filter (fun e => s.idleConn e.2)
    let best := idle.foldl (fun (b : Option (Nat × Conn)) e =>
      match b with
      | none => some e
      | some x => if e.2.lastBeat < x.2.lastBeat then some e else some x) none
    best.map (fun e => (e.1, true))

/-- Open connections (R463). -/
def State.connsOpen (s : State) : Nat := s.conns.countP (fun e => e.2.opened)

/-- Close an idle connection for another one (R440): its peer is told. -/
def State.recycle (s : State) (i : Nat) : State :=
  let c := s.conn i
  ((s.emitIn c.peer (some c.ctx) (controlFrame 0x0B c.peer c.dcid (s.ownCid i) c.ctx)).closeConn i).bump
    Reg.FAB_RECYCLES_COUNT

/-- Send the CONNECT of a connection that is being opened, once a port can take it (R439). -/
def State.ask (s : State) (i : Nat) : State :=
  let c := s.conn i
  let f := controlFrame 0x09 c.peer 0 (s.ownCid i) c.ctx
  (s.setConn i { c with asked := (s.portFor f).isSome }).emitIn c.peer (some c.ctx) f

/-- Send every CONNECT that no port could take before (R439). -/
def State.askAgain (s : State) : State :=
  s.openConns.foldl (fun (t : State) e => if e.2.pendingOpen && !e.2.asked then t.ask e.1 else t) s

/-- Open a connection of context `c` to a node (R439): CONNECT is sent from the context taken. With
none to take, FAB_CTX_WAIT is raised once per step (R440). -/
def State.openTo (s : State) (c node : Nat) : State :=
  match s.freeConn with
  | some (i, recycle) =>
    let s := if recycle then s.recycle i else s
    (s.setConn i { Conn.reset with
      pendingOpen := true, peer := node, ctx := c, dgen := (s.conn i).dgen, lastBeat := s.beat }).ask i
  | none =>
    if s.step.ctxWaitSent then s
    else
      let s := { s with step := { s.step with ctxWaitSent := true } }
      (s.event 0x0805 node).put Reg.FAB_STATUS_CTX_WAIT 1

/-- Send a DATA-class frame on an open connection: it takes the next PSN, the MSG of its message and
the EPOCH of the context, and waits for its acknowledgement with the port it left on (R438, R441, R443, R446, R459). -/
def State.sendOn (s : State) (i : Nat) (f : Frame) (tag : PktTag) : State :=
  let c := s.conn i
  let port := (s.portFor f).getD 0
  let x := s.takeXsn c.peer (some c.ctx)
  let f := s.framed port { f with
    dcid := c.dcid, epoch := BitVec.ofNat 8 (s.ctx c.ctx).entries, psn := c.txPsn, msg := c.txMsg, xsn := x.2 }
  (x.1.emitOn port f).setConn i { c with
    txPsn := (c.txPsn + 1) % 2 ^ 32
    txMsg := if f.last then (c.txMsg + 1) % 2 ^ 32 else c.txMsg
    lastBeat := s.beat
    unacked := c.unacked ++ [{ frame := f, tag := tag, tries := 0, limited := false }] }

/-- Whether a frame for a node can leave now: its connection is open, both windows have a place (R441), and a port can
take it (R448). -/
def State.canSend (s : State) (c node : Nat) (f : Frame) : Option Nat :=
  match s.connOf c node with
  | none => none
  | some i =>
    if (s.conn i).opened && decide ((s.conn i).unacked.length < 2048) && decide (s.unackedCount < 4096)
      && (s.portFor f).isSome
    then some i else none

/-- A send to a fenced node completes as discarded and is counted; FAB_DISCARD is raised once per step per
fenced node (R105, R447, R455). -/
def State.discardTo (s : State) (node : Nat) : State :=
  let s := s.bump Reg.FAB_DISCARD_COUNT
  if s.flt.discardSent.contains node then s
  else ({ s with flt := { s.flt with discardSent := node :: s.flt.discardSent } }).event 0x0806 node

/-- Send what waits, in order; a frame never passes an earlier one for the same node (R440, R441). A
frame for a fenced node completes as discarded (R447). -/
def State.drainSends (s : State) : State :=
  let r := s.waitSends.foldl (fun (acc : State × List WaitSend × List (Nat × Nat)) w =>
      let (t, keep, blocked) := acc
      if t.isFenced w.node then (if w.frame.last then t.discardTo w.node else t, keep, blocked)
      else if blocked.contains (w.ctx, w.node) then (t, keep ++ [w], blocked)
      else
        let t := if (t.connOf w.ctx w.node).isNone then t.openTo w.ctx w.node else t
        match t.canSend w.ctx w.node w.frame with
        | some i => (t.sendOn i w.frame w.tag, keep, blocked)
        | none => (t, keep ++ [w], (w.ctx, w.node) :: blocked))
    ({ s with waitSends := [] }, [], [])
  { r.1 with waitSends := r.2.1 }

/-- Send DATA-class frames of context `c` to a node. A send to a fenced node is discarded and counted
(R105, R132, R447). -/
def State.send (s : State) (c node : Nat) (fs : List Frame) (tag : PktTag) : State :=
  if s.isFenced node then s.discardTo node
  else
    let ws : List WaitSend := fs.map (fun f => { ctx := c, node := node, frame := f, tag := tag })
    ({ s with waitSends := s.waitSends ++ ws }).drainSends

/-- Cut bytes into packets of up to 4,096 B (R437); LAST marks the final one. -/
def packets (n : Nat) (bs : List Byte) : List (Nat × List Byte × Bool) :=
  let k := max 1 ((bs.length + n - 1) / n)
  (List.range k).map (fun i => (i * n, (bs.drop (i * n)).take n, i + 1 == k))

/-- Whether work with this tag still has packets waiting or unacknowledged. -/
def State.outstanding (s : State) (tag : PktTag) : Bool :=
  s.waitSends.any (fun w => w.tag == tag) ||
    s.conns.any (fun e => e.2.unacked.any (fun p => p.tag == tag))

end Sys2Proof.Machine
end

