-- ==== Sys2Proof/Machine/Mail.lean ====
section
/-!
DEFINITION. Machine/Mail.lean: the end of a mailbox command, `SVC_STATE` and writes of the fence record (R531 to
R537, R543, R544).
-/

namespace Sys2Proof.Machine

/-- `SVC_STATE` once self-test has passed (R537): JOINING while a join is in progress, RUNNING while any context
has a started job, else READY. -/
def State.svcSettle (s : State) : State :=
  let joining := match s.svc.mbox.job with
    | some (.jobStart _ _) => true
    | some (.spareJoin _ _) => true
    | _ => false
  let st := match s.svc.st with
    | .ready => true
    | .joining => true
    | .running => true
    | _ => false
  if st then
    let st' : SvcSt := if joining then .joining
      else if s.sec.ctxs.any (fun e => e.2.job.isSome) then .running else .ready
    { s with svc := { s.svc with st := st' } }
  else s

/-- The mailbox command that runs ends with a STATE, a RESULT and a response length (R535); a JOB_START that fails
raises JOB_START_FAIL (R544). -/
def State.mboxEnd (s : State) (st : MboxSt) (result : Nat) (len : Nat := 0) : State :=
  let s := match s.svc.mbox.job with
    | some (.jobStart c _) => if result = 0 then s else s.event 0x0B08 (result % 2 ^ 16 + c % 16 * 2 ^ 16)
    | _ => s
  let m := { s.svc.mbox with st := st, result := BitVec.ofNat 16 result, len := len, job := none }
  ({ s with svc := { s.svc with mbox := m } }).svcSettle

/-! ### The fence record (R531 to R533) -/

/-- The copy with the higher SEQ among the valid ones (R532). -/
def Svc.best (v : Svc) : Option FenceRec :=
  if v.recA.valid && (!v.recB.valid || decide (v.recB.seq < v.recA.seq)) then some v.recA
  else if v.recB.valid then some v.recB else none

/-- The record as the last write asked for leaves it, else the copy in force, else an empty record. -/
def State.fenceRec (s : State) : FenceRec :=
  match s.svc.writeTo.getLast? with
  | some r => r.1
  | none => s.svc.best.getD FenceRec.blank

/-- Ask for a write of the record (R533): it runs in the background and ends with FENCE_RECORD_WRITTEN. -/
def State.writeRecord (s : State) (r : FenceRec) (edit : Bool := false) : State :=
  { s with svc := { s.svc with writeTo := s.svc.writeTo ++ [({ r with valid := true }, edit)] } }

/-- A write of the record ends (R533): it went to the copy with the lower SEQ and carries the higher SEQ plus 1. -/
def execFenceRecordWritten (s : State) : Host.Outcome State Fault Refusal :=
  .next (match s.svc.writeTo with
    | [] => s
    | e :: rest =>
      let a := s.svc.recA
      let b := s.svc.recB
      let r := { e.1 with seq := max a.seq b.seq + 1 }
      let svc := { s.svc with writeTo := rest, recBad := s.svc.recBad && !e.2 }
      if !a.valid || (b.valid && decide (a.seq < b.seq)) then { s with svc := { svc with recA := r } }
      else { s with svc := { svc with recB := r } })

/-- A frame is retired and never reused (R474, R502, R533): the first 64 are recorded. -/
def State.retireFrame (s : State) (f : Nat) : State :=
  let s := ((s.setFrame f .retired).bump Reg.FLT_RETIRED_COUNT).event 0x0910 (f % 2 ^ 24)
  let r := s.fenceRec
  if r.retired.length < 64 then s.writeRecord { r with retired := r.retired ++ [f] } else s

end Sys2Proof.Machine
end

