-- ==== Sys2Proof/Machine/Beat.lean ====
section
/-!
DEFINITION. Machine/Beat.lean: the beat unit within a beat (R47 to R71) and the notices of device fences
(R475 to R478): markers, stretches, silence, lock.
-/

namespace Sys2Proof.Machine

/-! ### Beat numbers in notices (R457) -/

/-- The low 32 bits of the beat counter, as notices name beats. -/
def State.beat32 (s : State) : Nat := s.beat % 2 ^ 32

/-- How far a named beat lies ahead of the current one; none when it is past. -/
def State.ahead (s : State) (b : Nat) : Option Nat :=
  let d := (b + 2 ^ 32 - s.beat32) % 2 ^ 32
  if d < 2 ^ 31 then some d else none

/-- Whether the guard of a named beat has begun on this device (R66, R478). -/
def State.guardBegun (s : State) (b : Nat) : Bool :=
  match s.ahead b with
  | none => true
  | some d => d == 0 && s.bt.inGuard

/-! ### Sending markers (R51, R457) -/

/-- The code of `BT_CTRL.STATE` (R70). -/
def BeatSt.code : BeatSt → Nat
  | .detached => 0
  | .acquire => 1
  | .locked => 2
  | .holdover => 3

/-- A fence notice as eight bytes (R457). -/
def noticeBytes (n : FenceNotice) : List Byte :=
  toBytes 8 (n.node.toNat + 2 ^ 15 + n.kind.toNat * 2 ^ 16 + n.beat.toNat * 2 ^ 32)

/-- What a marker says of a stretch: the beat, REQ, NOTICE, and the lowest requester known (R64). -/
structure StretchOut where
  beat : Nat
  req : Bool
  note : Bool
  node : Nat
deriving DecidableEq, Repr

/-- The 64-byte payload of a marker (R457). TXOFF and TURN are measured by the port as the frame leaves: free
values of the draw; TURN is all ones when the peer has sent no marker on the port before. -/
def State.markerBytes (s : State) (answers : Bool) (str : Option StretchOut) (fns : List FenceNotice) : List Byte :=
  let fn (k : Nat) : List Byte :=
    match fns[k]? with
    | some n => noticeBytes n
    | none => toBytes 8 0
  let strs : List Byte := match str with
    | some x => toBytes 4 x.beat ++ toBytes 1 (x.req.toNat + 2 * x.note.toNat) ++ toBytes 2 (x.node % 2 ^ 15 + 2 ^ 15)
    | none => toBytes 7 0
  toBytes 8 s.beat ++ freeBytes s.draw 4 ++ toBytes 4 (s.get Reg.BT_OFFSET_OFFSET)
    ++ toBytes 2 ((s.bt.refNode.getD 0).toNat) ++ toBytes 1 (s.bt.hops.toNat + 8 * s.bt.st.code)
    ++ toBytes 1 s.bt.sel.toNat ++ (if answers then (freeBytes s.draw 8).drop 4 else toBytes 4 0xFFFFFFFF)
    ++ toBytes 4 s.bt.heart.toNat ++ strs ++ toBytes 5 0 ++ fn 0 ++ fn 1 ++ toBytes 8 0

/-- Send one marker on a marker port: the twin's, port 16, goes out on each of its four hub pairs (R51, R445), which
have no port registers. -/
def State.sendMarkerOn (s : State) (p : Nat) (str : Option StretchOut) (fns : List FenceNotice) : State :=
  match s.peer p with
  | none => s
  | some q =>
    let f (s : State) : Frame := controlFrame 0x0C q.node.toNat 0 0 0 (s.markerBytes q.answered str fns)
    let put (t : State) (k : Nat) : State := t.drawn.emitAs k q.node.toNat none (f t)
    if p = 16 then [16, 17, 18, 19].foldl put s
    else if (s.port p).link then put s p else s

/-- The notices two by two, as many markers as they take; at least one marker. -/
def noticePairs : List FenceNotice → List (List FenceNotice)
  | a :: b :: c :: t => [a, b] :: noticePairs (c :: t)
  | l => [l]

/-- Send markers on every marker port (R51). -/
def State.sendMarkers (s : State) (str : Option StretchOut) (fns : List FenceNotice) : State :=
  (noticePairs fns).foldl (fun (s : State) l =>
    (List.range 17).foldl (fun (t : State) p => t.sendMarkerOn p str l) s) s

/-! ### The fence timeline and stretches (R64 to R68) -/

/-- Between the first notice of a device fence and the resumption of collectives, in the beat after the beat of the
commit, no stretch is granted (R68). -/
def State.fenceWindow (s : State) : Bool :=
  s.flt.notices.any (fun h => (s.ahead h.notice.beat.toNat).isSome && !s.isFenced h.notice.node.toNat)
    || s.flt.lastFence.any (fun b => decide (s.beat ≤ b))

/-- `BT_STRETCH_CFG.LIMIT`; 0 acts as 1 (R70). -/
def State.stretchLimit (s : State) : Nat := max 1 (s.get Reg.BT_STRETCH_CFG_LIMIT)

/-- Request a stretch until the limit of consecutive stretched beats; then the overrun is handled as FAULT (R67). Under
the supply guard it does not count towards the limit (R63). -/
def State.askStretch (s : State) : State :=
  if s.flt.guard then { s with bt := { s.bt with ownReq := true, ownExempt := !s.bt.ownReq || s.bt.ownExempt } }
  else if s.stretchLimit ≤ s.bt.runStretch then (s.contribute 1).event 0x0106 s.bt.runStretch
  else { s with bt := { s.bt with ownReq := true, ownExempt := false } }

/-- Handle an overrun by the policy of the image (R62, R63): FAULT sets CHECKFAIL, STRETCH requests a stretch. -/
def State.overrunPolicy (s : State) : State :=
  if !s.flt.guard && imgOvrFault s.img then s.contribute 1 else s.askStretch

/-- Record an overrun (R62, R71). -/
def State.recordOverrun (s : State) (strand cycles core : Nat) : State :=
  (s.put Reg.BT_STATUS_OVERRUN 1).event 0x0103 (strand + cycles % 2 ^ 16 * 2 ^ 16) core

/-- A strand that still owes the segment of the current beat or of an earlier one (R60). -/
def State.owes (s : State) (t : Strand) : Bool :=
  let busy := match t.st with
    | .run => true
    | .parkNarrow => true
    | .waitSo => true
    | .waitFence => true
    | _ => false
  t.enabled && busy && decide (t.seg.toNat ≤ s.beatInStep)

/-- SEGMENT_OVERRUN (R60 to R63): `cycles` is what the segment ran over its budget at the boundary (R71). -/
def execSegmentOverrun (a : Site) (cycles : BitVec 16) (s : State) : Host.Outcome State Fault Refusal :=
  let t := s.strand a
  .next (if s.running.isSome && s.step.active && s.owes t && !t.beatReq then
      let s := s.setStrand a { t with overrun := true, beatReq := true }
      ((s.recordOverrun a.strand.val cycles.toNat a.core.val).noteSlack a.core.val 0).overrunPolicy
    else s)

/-- Keep the lowest requester known for a beat (R64). `exempt` says that the request does not count towards the limit
(R63); `tell` that a lower requester is to be sent at the next boundary. -/
def addStretch (l : List StretchNote) (beat node : Nat) (exempt tell : Bool) : List StretchNote :=
  match l.find? (fun n => n.beat == beat) with
  | some n =>
    { beat := beat, node := min node n.node, exempt := n.exempt && exempt
      tell := n.tell || (tell && decide (node < n.node)) }
      :: l.filter (fun m => m.beat != beat)
  | none => { beat := beat, node := node, exempt := exempt, tell := false } :: l

/-- The stretch note held for the current beat. -/
def State.stretchNow (s : State) : Option StretchNote :=
  s.bt.stretches.find? (fun n => n.beat == s.beat32)

/-- The last beat of a step ends its budget without a verdict: the beat unit records an overrun and the stretch protocol
applies, whatever policy the image selects (R384). The cycles over the budget are not known here: a free value. -/
def State.verdictOverrun (s : State) : State :=
  if s.running.isSome && s.step.active && s.step.reduced.isNone
      && decide (s.beat + 1 = s.step.firstBeat + s.step.beats) then
    ((s.drawn.recordOverrun 0 (Config.freeWord s.draw).toNat 0xFF)).askStretch
  else s

/-- The start of the guard (R49, R65, R477): a held notice for this beat extends it by one period, once; else the guard
begins and the quorums of this beat schedule their fences. -/
def State.guardStart (s : State) : State :=
  if s.bt.st = .detached ∨ s.bt.inGuard then s
  else
    match s.stretchNow, !s.bt.stretched && !s.fenceWindow with
    | some n, true =>
      let run := if n.exempt then s.bt.runStretch else s.bt.runStretch + 1
      let s := { s with bt := { s.bt with stretched := true, runStretch := run } }
      (s.bump Reg.BT_STRETCH_GRANTED).event 0x0104 n.node
    | _, _ =>
      let s := s.verdictOverrun
      let due := (s.flt.quorum.filter (fun q => q.2.1 == s.beat32 && !s.isFenced q.1 && q.1 != s.node)).map
        (fun q => (q.1, q.2.2))
      { s with bt := { s.bt with inGuard := true }, flt := { s.flt with due := due } }

/-- GUARD_START (R49, R65, R477). -/
def execGuardStart (s : State) : Host.Outcome State Fault Refusal := .next s.guardStart

/-! ### Lock, holdover, silence (R56 to R58, R71, R473, R475, R480) -/

/-- Offsets are in units of 0.125 ns (R70): the magnitude of the current one. -/
def State.offsetMag (s : State) : Nat := (BitVec.ofNat 32 (s.get Reg.BT_OFFSET_OFFSET)).toInt.natAbs

/-- HOLDOVER_ENTRY (R56): no usable marker in the beat that ends. -/
def execHoldoverEntry (s : State) : Host.Outcome State Fault Refusal :=
  .next (if s.bt.st = .locked ∧ s.bt.inGuard = true ∧ s.bt.usable = false
      ∧ s.bt.refNode ≠ some (BitVec.ofNat 15 s.node) then
      { s with bt := { s.bt with st := .holdover } }
    else s)

/-- The beat unit returns to DETACHED (R56): the counter stops, the marker peers and notices are given up. DESIGN CHOICE
(log 75): `BT_OFFSET` goes on showing the last offset, here, at the next ACQUIRE and on a device that becomes the
reference; R70 does not say what it shows then. -/
def State.detach (s : State) : State :=
  let bt := { BeatUnit.reset with sel := s.bt.sel, count := s.bt.count, heart := s.bt.heart }
  { s with bt := bt
           flt := { s.flt with notices := [], quorum := [], due := [], proposed := [], lastFence := none } }

/-- A join in progress ends with a RESULT (R57, R539): the device does not join. -/
def State.abortJoin (s : State) (result : Nat) : State :=
  let drop (c : Nat) : State := s.setCtx c { s.ctx c with job := none }
  let st : MboxSt := if result = 1 then .refused else .done
  match s.svc.mbox.job with
  | some (.jobStart c _) => (drop c).mboxEnd st result
  | some (.spareJoin c _) => (drop c).mboxEnd st result
  | _ => s

/-- ACQUIRE_TIMEOUT (R57, R71). -/
def execAcquireTimeout (s : State) : Host.Outcome State Fault Refusal :=
  .next (if s.bt.st = .acquire ∧ 4096 ≤ s.bt.acquireBeats then
      ((s.event 0x010A (min s.bt.offLast (2 ^ 32 - 1))).detach).abortJoin 6
    else s)

/-- Beats of silence are counted from START_BEAT (R540): some started job has reached it. -/
def State.watching (s : State) : Bool :=
  s.sec.ctxs.any (fun e => e.2.job.any (fun j => decide (j.startBeat ≤ s.beat)))

/-- MARKER_SILENCE (R71): judged in the guard of the silent beat. -/
def execMarkerSilence (p : Fin 17) (s : State) : Host.Outcome State Fault Refusal :=
  .next (match s.peer p.val, s.bt.inGuard with
    | some q, true =>
      if q.heard then s
      else
        let s := s.put Reg.BT_STATUS_MARKER_MISS 1
        if q.missSent then s else (s.setPeer p.val (some { q with missSent := true })).event 0x0109 p.val
    | _, _ => s)

/-- Ports 0 to 15 whose markers are missing for a second beat (R480). -/
def State.lostPeers (s : State) : Nat :=
  ((List.range 16).filter (fun p => (s.peer p).any (fun q => !q.heard && decide (1 ≤ q.missRun)))).length

/-- MARKER_LOSS (R480 cause 1). -/
def execMarkerLoss (s : State) : Host.Outcome State Fault Refusal :=
  .next (if s.bt.inGuard && decide (8 ≤ s.lostPeers) then s.selfFence 1 else s)

/-- OFFSET_LIMIT (R58): |offset| beyond 1 µs for two beats. -/
def execOffsetLimit (s : State) : Host.Outcome State Fault Refusal :=
  .next (if s.bt.st ≠ .detached ∧ 2 ≤ s.bt.offHighRun then s.selfFence 2 else s)

/-- The marker port whose peer is a node. -/
def State.portOf (s : State) (node : Nat) : Option Nat :=
  (List.range 17).find? (fun p => (s.peer p).any (fun q => q.node.toNat == node))

/-- WATCH_SILENCE (R475, R476): the second silent beat of a watched device; its fence is proposed in the markers of
the next boundary. -/
def execWatchSilence (node : BitVec 15) (s : State) : Host.Outcome State Fault Refusal :=
  .next (match (s.portOf node.toNat).bind s.peer with
    | none => s
    | some q =>
      if q.watched && (!q.alive || q.unreach) && decide (1 ≤ q.silent) && s.watching && s.bt.inGuard
          && !s.isFenced node.toNat && !s.flt.proposed.contains node.toNat then
        { s with flt := { s.flt with proposed := s.flt.proposed ++ [node.toNat] } }
      else s)

/-- HANG_DETECT (R473): a strand that has stayed in RUN while overrunning for HANG beats. -/
def execHangDetect (a : Site) (s : State) : Host.Outcome State Fault Refusal :=
  let t := s.strand a
  .next (if t.st = .run ∧ s.frozen a = false ∧ t.overrun = true ∧ max 8 (s.get Reg.FLT_CFG_HANG) ≤ t.overBeats then
      s.selfFence 9
    else s)

/-- JOIN_DEADLINE (R540): a member whose JOB_START is not complete 16 beats before START_BEAT. -/
def execJoinDeadline (s : State) : Host.Outcome State Fault Refusal :=
  .next (match s.svc.mbox.job with
    | some (.jobStart c order) =>
      match (s.ctx c).job with
      | some j =>
        if s.bt.st ≠ .detached ∧ j.startBeat ≤ s.beat + 16 ∧ j.late = false then
          ((s.setCtx c { s.ctx c with job := some { j with late := true } }).event 0x0B06 order).selfFence 14
        else s
      | none => s
    | _ => s)

/-! ### Marker peers and watchers (R52, R458, R475, R569) -/

/-- An assignment of marker peers: node and port to peer. -/
abbrev Pairing := Nat → Nat → Option Nat

/-- The port peers of a node. -/
def Pairing.peers (f : Pairing) (a : Nat) : List Nat := (List.range 16).filterMap (f a)

/-- The nodes that markers reach from some nodes in `k` hops, the twin bridge included. -/
def Pairing.reach (f : Pairing) : Nat → List Nat → List Nat
  | 0, l => l
  | k + 1, l => f.reach k (l ++ l.flatMap (fun a => f.peers a ++ (Config.twinOf a).toList)).eraseDups

/-- Peers are paired port to port; up to 16 members each has every other once, more have at least 15 ports with a peer
and reach any other in 4 hops (R52, R569). -/
def Pairing.ok (members : List Nat) (f : Pairing) : Bool :=
  members.all (fun a => (List.range 16).all (fun p =>
    (f a p).all (fun b => b != a && members.contains b && f b p == some a)))
  && members.all (fun a =>
    if members.length ≤ 16 then members.all (fun b => b == a || (f.peers a).count b == 1)
    else decide (15 ≤ (f.peers a).length) && members.all (fun b => (f.reach 4 [a]).contains b))

/-- Each member has four watchers among its peers and watches four (R475, R569). -/
def Pairing.watchOk (members : List Nat) (f : Pairing) (w : Nat → List Nat) : Bool :=
  members.all (fun x => (w x).length == 4 && (w x).eraseDups.length == 4 && (w x).all (fun y => (f.peers x).contains y)
    && (members.filter (fun y => (w y).contains x)).length == 4)

/-- A pairing of up to 16 members that meets R569: in round `r` of an all-play-all, member `i` meets `r - i`, and the one
left over meets the last of an even number. Assignment `k` puts round `p + k` on port `p`. -/
def roundRobin (members : List Nat) (k : Nat) : Pairing := fun a p =>
  let n := members.length
  let m := if n % 2 = 0 then n - 1 else n
  let r := (p + k) % 16
  let i := members.idxOf a
  if m ≤ r then none
  else if i < m then
    let j := (r + m - i) % m
    if j = i then (if n % 2 = 0 then members[m]? else none) else members[j]?
  else if i = m then members[r * ((m + 1) / 2) % m]?
  else none

/-- Assignment `k` of the pairing service (R569): the pairing function's where it meets R569; up to 16 members another
that does; none when no assignment does (R458, log 13). -/
def pairing (members : List Nat) (k : Nat) : Option Pairing :=
  let f : Pairing := Config.peerOf members k
  let w := fun x => Config.watchersOf members k x
  if f.ok members && (decide (members.length ≤ 16) || f.watchOk members w) then some f
  else if members.length ≤ 16 then some (roundRobin members k)
  else none

/-- The watchers of a node (R475, R569): with four members or fewer every other member; else those of the pairing
function where they meet R569, or the next four members in ascending order, which up to 16 members are all its peers. -/
def watchers (members : List Nat) (k x : Nat) : List Nat :=
  let n := members.length
  if n ≤ 4 then members.filter (fun y => y != x)
  else
    let w := fun y => Config.watchersOf members k y
    if ((pairing members k).any (fun f => f.watchOk members w)) then w x
    else if n ≤ 16 ∧ x ∈ members then
      (List.range 4).filterMap (fun d => members[(members.idxOf x + d + 1) % n]?)
    else []

/-! ### Fence notices (R475 to R478) -/

/-- The members that the job was formed with. -/
def FaultMap.all (m : FaultMap) : List Nat :=
  (m.members ++ m.failed.map (·.node)).stableSort (· ≤ ·)

/-- The fault maps of the jobs on this device: the one shown, and those of the other contexts with a job (R504). -/
def State.faultMaps (s : State) : List FaultMap :=
  s.flt.map :: (s.sec.ctxs.filter (fun e => s.sec.shown != some e.1 && e.2.job.isSome)).map (fun e => e.2.saved.flt)

/-- A live member of some job of this device, other than itself. -/
def State.concerned (s : State) (x : Nat) : Bool :=
  x != s.node && s.faultMaps.any (fun m => m.members.contains x)

/-- The kind that gives the quorum for X in beat c, if it is held (R476). -/
def State.quorumKind (s : State) (x : Nat) (c : Nat) : Option Nat :=
  let mine := s.flt.notices.filter (fun h => h.notice.node.toNat == x && h.notice.beat.toNat == c)
  match mine.find? (fun h => h.notice.kind.toNat ∈ [2, 4, 5]) with
  | some h => some h.notice.kind.toNat
  | none =>
    let ws := s.faultMaps.flatMap (fun m => if m.members.contains x then watchers m.all s.bt.assign x else [])
    let from_ := (mine.filter (fun h => h.notice.kind == 1 && ws.contains h.sender)).map (·.sender)
    if 2 ≤ from_.eraseDups.length then some 1 else none

/-- Keep a notice with the node it came from. -/
def State.holdNotice (s : State) (sender : Nat) (n : FenceNotice) : State :=
  { s with flt := { s.flt with notices := s.flt.notices ++ [{ notice := n, sender := sender }] } }

/-- Whether a notice has been seen. -/
def State.seenNotice (s : State) (n : FenceNotice) : Bool := s.flt.notices.any (fun h => h.notice == n)

/-- A notice of this device. -/
def fenceNotice (x kind beat : Nat) : FenceNotice :=
  { node := BitVec.ofNat 15 x, kind := BitVec.ofNat 3 kind, beat := BitVec.ofNat 32 beat }

/-- FENCE_LATE (R478): the device fences itself. -/
def State.fenceLate (s : State) (x : Nat) : State :=
  ((s.put Reg.FLT_STATUS_FENCE_LATE 1).event 0x0909 x).selfFence 4

/-- Judge the quorum for X in c after a notice (R476, R478): when it is first held, AGREE goes out at once; when the
guard of c has begun, it is late. -/
def State.judgeQuorum (s : State) (x c : Nat) : State :=
  if !s.concerned x || s.flt.quorum.any (fun q => q.1 == x && q.2.1 == c) then s
  else
    match s.quorumKind x c with
    | none => s
    | some k =>
      if s.guardBegun c then (if s.flt.due.any (fun d => d.1 == x) then s else s.fenceLate x)
      else
        let s := { s with flt := { s.flt with quorum := s.flt.quorum ++ [(x, c, k)] } }
        let agree := fenceNotice x 2 c
        if s.seenNotice agree then s else (s.holdNotice s.node agree).sendMarkers none [agree]

/-- Take a fence notice from a marker (R476, R478, R480): it is forwarded at once when not yet seen. A COMMIT that
names this device makes it fence itself; a COMMIT of a fence this device has not scheduled is late. -/
def State.takeNotice (s : State) (sender : Nat) (n : FenceNotice) : State :=
  let x := n.node.toNat
  if s.flt.notices.any (fun h => h.notice == n && h.sender == sender) then s
  else
    let fresh := !s.seenNotice n
    let told := n.kind != 1 || s.flt.notices.any (fun h => h.notice == n && h.sender != s.node)
    let s := s.holdNotice sender n
    let s := if fresh then s.sendMarkers none [n] else s
    let s := if told then s else s.event 0x0906 x
    if n.kind == 3 then
      if x = s.node then s.selfFence 13
      else if s.concerned x && !s.flt.due.any (fun d => d.1 == x)
          && !s.flt.quorum.any (fun q => q.1 == x && (q.2.1 + 1) % 2 ^ 32 == n.beat.toNat) then s.fenceLate x
      else s
    else s.judgeQuorum x n.beat.toNat

/-! ### MARKER_RECEIVE (R53, R54, R57 to R59, R64 to R66, R457, R458) -/

/-- A stretch request or notice of a marker (R64, R66). -/
def State.takeStretch (s : State) (m : Marker) : State :=
  let b := m.strBeat.toNat
  match m.strReq || m.strNotice, m.strNode with
  | true, some node =>
    let known := s.bt.stretches.any (fun n => n.beat == b)
    if known then
      { s with bt := { s.bt with stretches := addStretch s.bt.stretches b node.toNat (node.toNat == s.node) true } }
    else if s.guardBegun b then
      ((s.put Reg.BT_STATUS_STRETCH_LATE 1).event 0x0105 b).selfFence 3
    else
      let s := { s with bt := { s.bt with stretches := addStretch s.bt.stretches b node.toNat false false } }
      s.sendMarkers (some { beat := b, req := false, note := true, node := node.toNat }) []
  | _, _ => s

/-- The smallest of the delays measured in the last 16 beats (R458). -/
def leastDelay (l : List (Option Nat)) : Option Nat := (l.filterMap id).min?

/-- The members that take part in the assignment, this device among them (R569): a spare forms its own peers before it
is admitted (log 48). -/
def State.peerSet (s : State) : List Nat :=
  let all := s.flt.map.all
  if all.contains s.node then all else (s.node :: all).stableSort (· ≤ ·)

/-- A marker peer from which nothing has come yet. -/
def State.freshPeer (s : State) (k n : Nat) : Peer :=
  let all := s.peerSet
  { node := BitVec.ofNat 15 n, watcher := (watchers all k s.node).contains n, watched := (watchers all k n).contains s.node
    hops := 7, heard := false, alive := false, silent := 0, missRun := 0, unreach := false, missSent := false, heart := 0
    recent := false, answered := false, delays := [] }

/-- The peer of a port under an assignment: ports 0 to 15 from the pairing service, port 16 the twin (R51, R569). -/
def State.assigned (s : State) (f : Pairing) (p : Nat) : Option Nat :=
  if p < 16 then f s.node p
  else match Config.twinOf s.node with
    | some n => if s.peerSet.contains n then some n else none
    | none => none

/-- Take an assignment into force (R569): each peer has its device session (R515), a port whose peer stays keeps what it
has heard, and a new peer's silence and path delay count afresh. -/
def State.assign (s : State) (f : Pairing) (k : Nat) : State :=
  let s := { s with bt := { s.bt with assign := k } }
  (List.range 17).foldl (fun (t : State) p =>
    match t.assigned f p, t.peer p with
    | some n, some q =>
      let r := t.freshPeer k n
      (t.addSession n none).setPeer p (some (if q.node.toNat = n then
        { q with watcher := r.watcher, watched := r.watched } else r))
    | some n, none => (t.addSession n none).setPeer p (some (t.freshPeer k n))
    | none, _ => t.setPeer p none) s

/-- The pairing service assigns another peer to port `p` (R458): the next assignment that meets R569 there. With none, a
system that is being formed is not formed, and one that runs keeps its peers (log 13). -/
def State.reassign (s : State) (p : Nat) (bad : Nat) : State :=
  let k := s.bt.assign + 1
  match pairing s.peerSet k with
  | some f =>
    if s.assigned f p = some bad then (if s.bt.st = .acquire then s.detach.abortJoin 6 else s) else s.assign f k
  | none => if s.bt.st = .acquire then s.detach.abortJoin 6 else s

/-- A marker whose TURN answers this device's marker gives the path delay; the smallest of 16 beats counts, and a path
over 400 ns makes the pairing service choose another peer (R458). -/
def State.takeDelay (s : State) (p : Nat) (m : Marker) : State :=
  match s.peer p, m.turn == 0xFFFFFFFF with
  | some q, false =>
    let d := (m.elapsed.toNat - m.turn.toNat) / 2
    let delays : List (Option Nat) := match q.delays with
      | [] => [some d]
      | x :: l => some (min d (x.getD d)) :: l
    let least := (leastDelay delays).getD d
    let s := s.setPeer p (some { q with delays := delays })
    if 16 ≤ p then s
    else
      let s := s.put Reg.FAB_MDELAY_DELAY least p
      if 3200 < least then
        (s.event 0x0808 (p + q.node.toNat * 2 ^ 4 + min (least / 8) (2 ^ 13 - 1) * 2 ^ 19)).reassign p q.node.toNat
      else s
  | _, _ => s

/-- A marker of a nearest peer gives the offset from the reference (R53, R58). -/
def State.takeOffset (s : State) (m : Marker) : State :=
  let mag := m.measured.toInt.natAbs
  let old := s.offsetMag
  let s := { s with bt := { s.bt with offBeat := max mag s.bt.offBeat } }
  let s := (s.put Reg.BT_OFFSET_OFFSET m.measured.toNat).put Reg.BT_OFFSET_PEAK (max mag (s.get Reg.BT_OFFSET_PEAK))
  if 320 < mag ∧ old ≤ 320 then
    (s.put Reg.BT_STATUS_OFFSET_HIGH 1).event 0x0102 m.measured.toNat
  else s

/-- No peer that sends markers, and is not fenced, is nearer to the reference (R53). -/
def State.nearest (s : State) (m : Marker) : Bool :=
  (List.range 17).all (fun p => (s.peer p).all (fun q =>
    !(q.heard || q.recent) || s.isFenced q.node.toNat || decide (m.hops.toNat ≤ q.hops.toNat)))

/-- A marker that names the reference this device follows gives the offset when no peer is nearer (R53). In ACQUIRE the
first one of a peer that knows its distance from the reference gives the counter. From a LOCKED peer it is a usable
marker (R56). -/
def State.takeRef (s : State) (m : Marker) : State :=
  let s := { s with bt := { s.bt with usable := s.bt.usable || m.state == 2 } }
  let s := match s.bt.st with
    | .acquire =>
      if s.bt.heardAny = false ∧ m.hops ≠ 7 then { s with bt := { s.bt with count := m.beat, heardAny := true } } else s
    | .holdover => if m.state = 2 then { s with bt := { s.bt with st := .locked } } else s
    | _ => s
  if s.nearest m then { s with bt := { s.bt with measured := true } }.takeOffset m else s

/-- MARKER_RECEIVE (R457): a marker that fails authentication counts as missing, one from a fenced node is dropped. -/
def execMarkerReceive (peer : Fin 17) (auth : Bool) (m : Marker) (s : State) : Host.Outcome State Fault Refusal :=
  let p := peer.val
  .next (match s.peer p with
    | none => s
    | some q =>
      if s.bt.st = .detached then s
      else
        let s := if p < 16 then s.bump Reg.FAB_PORT_RXBYTES_COUNT p 0 (wireBytes 64) else s
        if !auth then s.bump Reg.FAB_AUTH_DROP_COUNT
        else if s.isFenced q.node.toNat then s
        else if s.bt.st = .acquire ∧ m.period ≠ s.bt.sel then
          ((s.event 0x0107 (m.period.toNat + q.node.toNat * 2 ^ 4)).detach).abortJoin 6
        else
          let adv := (m.heart - q.heart).toNat
          let s := s.setPeer p (some { q with
            heard := true, alive := q.alive || decide (0 < adv ∧ adv < 2 ^ 31), heart := m.heart, hops := m.hops
            missSent := false, answered := true })
          let s := s.takeDelay p m
          if s.bt.st = .detached then s
          else
            let mine := s.bt.refNode == some (BitVec.ofNat 15 s.node)
            let s := if s.bt.refNode == some m.refNode && !mine then s.takeRef m else s
            let s := s.takeStretch m
            m.notices.foldl (fun (t : State) n => t.takeNotice q.node.toNat n) s)

end Sys2Proof.Machine
end

