-- ==== Sys2Proof/Machine/PageTab.lean ====
section
/-!
DEFINITION. Machine/PageTab.lean: the page unit's tables in memory (R267 to R275), view addresses
(R276 to R278), allocation, release and quarantine of page frames (R268, R281, R288), remote fetch and
its cache (R296, R297).
-/

namespace Sys2Proof.Machine

/-- ROOTS of the running context, with the context's number. -/
def State.roots (s : State) : Option (Nat × Roots) :=
  match s.running with
  | some c => (imgRoots s.img).map (fun r => (c, r))
  | none => none

/-- Bytes of a page frame (R267). -/
def Roots.frameSize (r : Roots) : Nat := if r.fmt = 0 then 65536 else 33792
/-- Bytes of a K or V row (R267). -/
def Roots.rowBytes (r : Roots) : Nat := if r.fmt = 0 then 256 else 128
/-- The stream number of (slot, layer, head). -/
def Roots.stream (r : Roots) (slot layer head : Nat) : Nat := (slot * r.layers + layer) * r.heads + head
/-- Streams of the stream table: 256 slots. -/
def Roots.streams (r : Roots) : Nat := 256 * r.layers * r.heads
/-- Frames of an extent: 0 HBM, 1 LPDDR. -/
def Roots.extent (r : Roots) (tier : Nat) : Nat := if tier = 0 then r.hbmFrames else r.lpFrames
/-- The virtual address of a page frame (R269). -/
def Roots.frameVa (r : Roots) (tier n : Nat) : Nat :=
  (if tier = 0 then r.hbmBase else r.lpBase) + n * r.frameSize
/-- The address of a frame record (R269): HBM records first. -/
def Roots.recVa (r : Roots) (tier n : Nat) : Nat :=
  r.ftab + 16 * (if tier = 0 then n else r.hbmFrames + n)

/-- The pad image (R268): every K row a pad row, every V row +0. -/
def Roots.padImage (r : Roots) : List Byte :=
  if r.fmt = 0 then
    (List.range 128).flatMap (fun _ => [0xFF, 0xFF] ++ List.replicate 254 0) ++ List.replicate 32768 0
  else
    (List.range 128).flatMap (fun _ => [0xFF] ++ List.replicate 127 0) ++ List.replicate 16384 0
      ++ List.replicate 512 0x7F ++ List.replicate 512 0

/-! ### Frame records (R269) -/

/-- A field of word 0 of a frame record. -/
def State.recGet (s : State) (tier n lo w : Nat) : Nat :=
  match s.roots with
  | some (c, r) => bits (s.vfield c (r.recVa tier n) 8) lo w
  | none => 0

/-- STATE of a frame: 0 FREE, 1 LIVE, 2 QUAR, 3 MOVING. -/
def State.frState (s : State) (tier n : Nat) : Nat := s.recGet tier n 16 3
/-- REFCNT of a frame. -/
def State.frRef (s : State) (tier n : Nat) : Nat := s.recGet tier n 0 16
/-- BEAT of a frame. -/
def State.frBeat (s : State) (tier n : Nat) : Nat :=
  match s.roots with
  | some (c, r) => bits (s.vfield c (r.recVa tier n + 8) 8) 16 48
  | none => 0
/-- STREAM and BLOCK of a frame's entry when REFCNT is 1. -/
def State.frOwner (s : State) (tier n : Nat) : Nat × Nat :=
  match s.roots with
  | some (c, r) =>
    (s.recGet tier n 24 24, s.recGet tier n 48 16 + 2 ^ 16 * bits (s.vfield c (r.recVa tier n + 8) 8) 0 1)
  | none => (0, 0)

/-- Write a frame record. -/
def State.setRec (s : State) (tier n ref st stream block beat : Nat) : State :=
  match s.roots with
  | some (c, r) =>
    let w0 := ref % 2 ^ 16 + st * 2 ^ 16 + c % 16 * 2 ^ 20 + stream % 2 ^ 24 * 2 ^ 24
      + block % 2 ^ 16 * 2 ^ 48
    let w1 := bits block 16 1 + beat % 2 ^ 48 * 2 ^ 16
    s.store c (r.recVa tier n) (toBytes 8 w0 ++ toBytes 8 w1)
  | none => s

/-- Set REFCNT and STATE of a frame, with BEAT the current beat. -/
def State.setRef (s : State) (tier n ref st : Nat) : State :=
  s.setRec tier n ref st (s.frOwner tier n).1 (s.frOwner tier n).2 s.beat

/-- FREE frames of an extent (R298). -/
def State.freePages (s : State) (tier : Nat) : Nat :=
  match s.roots with
  | some (_, r) => ((List.range (r.extent tier)).filter (fun n => s.frState tier n == 0)).length
  | none => 0

/-- The lowest FREE frame of an extent (log 14). -/
def State.freePage (s : State) (tier : Nat) : Option Nat :=
  match s.roots with
  | some (_, r) => findFrom (fun n => s.frState tier n == 0) (r.extent tier) 0
  | none => none

/-- Allocation takes an HBM frame, or an LPDDR frame when no HBM frame is FREE (R281). -/
def State.allocPage (s : State) : Option (Nat × Nat) :=
  match s.freePage 0 with
  | some n => some (0, n)
  | none => (s.freePage 1).map (fun n => (1, n))

/-- Take a frame for one entry: LIVE, REFCNT 1, filled with the pad image (R268, R280). -/
def State.takePage (s : State) (tier n stream block : Nat) : State :=
  match s.roots with
  | some (c, r) => (s.setRec tier n 1 1 stream block s.beat).store c (r.frameVa tier n) r.padImage
  | none => s

/-- Put a frame into quarantine (R288). -/
def State.quarantine (s : State) (tier n beat : Nat) : State := s.setRec tier n 0 2 0 0 beat

/-! ### Streams and entries (R272, R273) -/

/-- The address of a stream descriptor. -/
def Roots.descVa (r : Roots) (stream : Nat) : Nat := r.stab + 32 * stream

/-- TABLE, SUMBASE, NBLK and LEN of a stream. -/
def State.streamDesc (s : State) (stream : Nat) : Nat × Nat × Nat × Nat :=
  match s.roots with
  | some (c, r) =>
    let d := r.descVa stream
    (s.vfield c d 8, s.vfield c (d + 8) 8, s.vfield c (d + 16) 4, s.vfield c (d + 20) 4)
  | none => (0, 0, 0, 0)

/-- What a page-table entry says (R273, R274). -/
inductive PageEntry where
  | invalid (bad : Bool)
  | frame (tier n fill : Nat)
  | remote (node : Nat)
deriving DecidableEq, Repr

/-- The word of entry `b` of a stream. -/
def State.entryWord (s : State) (stream b : Nat) : Nat :=
  match s.roots with
  | some (c, _) => s.vfield c ((s.streamDesc stream).1 + 8 * b) 8
  | none => 0

/-- Read an entry word; reserved bits set, or VALID with REMOTE, is invalid and an error (R274). -/
def pageEntry (w : Nat) : PageEntry :=
  if bits w 3 5 ≠ 0 ∨ bits w 47 1 ≠ 0 ∨ bits w 56 8 ≠ 0 ∨ (bits w 0 1 = 1 ∧ bits w 2 1 = 1) then
    .invalid true
  else if bits w 0 1 = 1 then .frame (bits w 1 1) (bits w 8 24) (bits w 48 8)
  else if bits w 2 1 = 1 then .remote (bits w 32 15)
  else .invalid false

/-- Entry `b` of a stream. -/
def State.entry (s : State) (stream b : Nat) : PageEntry := pageEntry (s.entryWord stream b)

/-- An entry names a frame. -/
def PageEntry.names (e : PageEntry) (tier n : Nat) : Bool :=
  match e with
  | .frame tier' n' _ => tier' == tier && n' == n
  | _ => false

/-- The entry, other than `but`, that names a frame (R269). -/
def State.namer (s : State) (tier n : Nat) (but : Nat × Nat) : Option (Nat × Nat) :=
  match s.roots with
  | some (_, r) => (List.range r.streams).findSome? (fun st =>
      (findFrom (fun b => (st, b) != but && (s.entry st b).names tier n) (s.streamDesc st).2.2.1 0).map (fun b => (st, b)))
  | none => none

/-- The entry `from_` drops its reference of a frame. At 0 the frame goes into quarantine with BEAT `beat` (R288); at 1
its record names the entry that remains (R269). -/
def State.dropRef (s : State) (tier n beat : Nat) (from_ : Nat × Nat) : State :=
  let ref := s.frRef tier n - 1
  let o := s.frOwner tier n
  if ref = 0 then s.setRec tier n 0 2 o.1 o.2 beat
  else
    let o := if ref = 1 then (s.namer tier n from_).getD o else o
    s.setRec tier n ref (s.frState tier n) o.1 o.2 (s.frBeat tier n)

/-- An entry the page unit finds malformed raises KV_TABLE (R274). -/
def State.noteEntry (s : State) (stream b : Nat) : State :=
  match s.entry stream b with
  | .invalid true => (s.event 0x0405 stream).put Reg.KVP_STATUS_TABLE 1
  | _ => s

/-- Write the word of entry `b`. -/
def State.setEntryWord (s : State) (stream b w : Nat) : State :=
  match s.roots with
  | some (c, _) => s.store c ((s.streamDesc stream).1 + 8 * b) (toBytes 8 w)
  | none => s

/-- Set entry `b` to a local frame. -/
def State.setEntry (s : State) (stream b tier n fill : Nat) : State :=
  s.setEntryWord stream b (1 + tier * 2 + n * 2 ^ 8 + fill * 2 ^ 48)

/-- The bytes of a page frame. -/
def State.pageBytes (s : State) (tier n : Nat) : List Byte :=
  match s.roots with
  | some (c, r) => s.vread c (r.frameVa tier n) r.frameSize
  | none => []

/-- An access sets BEAT of a LIVE frame (R269) and the AGE of the 2 MiB frames it lies in (R420). -/
def State.touchPage (s : State) (tier n : Nat) : State :=
  let s := match s.roots with
    | some (c, r) => s.touch c (r.frameVa tier n) r.frameSize
    | none => s
  if s.frState tier n = 1 then
    let o := s.frOwner tier n
    s.setRec tier n (s.frRef tier n) 1 o.1 o.2 s.beat
  else s

/-! ### Views (R276 to R278, R296, R297) -/

/-- What a page of the view aperture resolves to. -/
inductive ViewPage where
  | bad
  | pad (stream block : Nat)
  | frame (tier n : Nat)
  | cached (n : Nat)
  | remote (node slot layer head block : Nat)
  | failed (node : Nat) (fenced : Bool)
deriving DecidableEq, Repr

/-- Resolve the page of view address `va`. -/
def State.viewPage (s : State) (va : Nat) : ViewPage :=
  match s.roots with
  | none => .bad
  | some (_, r) =>
    match viewEntry s.img (bits va 33 12) with
    | none => .bad
    | some (slot, layer, head) =>
      let stream := r.stream slot layer head
      let b := bits va 16 17
      if (s.streamDesc stream).2.2.1 ≤ b then .bad
      else match s.entry stream b with
        | .invalid _ => .pad stream b
        | .frame tier n _ => .frame tier n
        | .remote node =>
          if s.isFenced node then .failed node true
          else match s.pages.cache.find? (fun p => p.node == node && p.stream == stream && p.block == b) with
            | some p => .cached p.frame
            | none => .remote node slot layer head b

/-- The pages (64 KiB of the aperture each) that a range touches, by their number va / 65,536. -/
def viewPages (va n : Nat) : List Nat :=
  if n = 0 then [] else (List.range ((va + n - 1) / 65536 - va / 65536 + 1)).map (va / 65536 + ·)

/-- The image of a resolved page; none while a remote fetch is outstanding. -/
def State.viewBytes (s : State) (p : ViewPage) : Option (List Byte) :=
  match s.roots with
  | none => none
  | some (_, r) =>
    match p with
    | .bad => none
    | .pad _ _ => some r.padImage
    | .frame tier n => some (s.pageBytes tier n)
    | .cached n => some (s.pageBytes 0 n)
    | .failed _ _ => some r.padImage
    | .remote _ _ _ _ _ => none

/-- What resolving a page counts and raises (R278, R296, R297, R274). -/
def State.viewNote (s : State) (p : ViewPage) : State :=
  match p with
  | .pad stream b => (s.noteEntry stream b).bump Reg.KVP_PAD_READS_COUNT
  | .frame tier n => s.touchPage tier n
  | .cached n => (s.bump Reg.KVP_RCACHE_HIT_COUNT).touchPage 0 n
  | .failed node fenced =>
    ((s.bump Reg.KVP_REMOTE_FAIL_COUNT).event 0x0408 (node + (if fenced then 2 ^ 15 else 0))).put
      Reg.KVP_STATUS_REMOTE_FAIL 1
  | _ => s

/-- Send the request for a remote page (R296, R438), with the next tag. -/
def State.fetchPage (s : State) (node slot layer head block : Nat) (tag : PktTag) : State :=
  match s.running with
  | none => s
  | some c =>
    let addr := slot + layer * 2 ^ 8 + head * 2 ^ 18 + block * 2 ^ 24
    let t := s.send c node [dataFrame 0x04 node addr s.pages.nextTag true []] tag
    ({ t with pages := { t.pages with nextTag := (t.pages.nextTag + 1) % 2 ^ 32 } }).bump
      Reg.KVP_REMOTE_COUNT

/-- The bytes of a view range once every page image is known; bytes beyond the frame read +0 (R276). -/
def viewRange (va n : Nat) (got : List (Nat × List Byte)) : List Byte :=
  (viewPages va n).flatMap (fun pg =>
    let img := ((got.find? (fun e => e.1 == pg)).map (·.2)).getD []
    let lo := max va (pg * 65536)
    let hi := min (va + n) ((pg + 1) * 65536)
    let part := (img.drop (lo % 65536)).take (hi - lo)
    part ++ List.replicate (hi - lo - part.length) 0)

/-- Release the HBM frame of an evicted cache entry through quarantine (R297). -/
def State.evictCached (s : State) (p : CachedPage) : State := s.quarantine 0 p.frame s.beat

/-- Keep a full remote page in the cache (R297): at most RC_FRAMES frames, the oldest entry leaves
first. With no FREE HBM frame the page is not kept. -/
def State.cachePage (s : State) (node stream block : Nat) (bs : List Byte) : State :=
  match s.roots with
  | none => s
  | some (c, r) =>
    if r.rcFrames = 0 then s
    else
      let s := if r.rcFrames ≤ s.pages.cache.length then
          match s.pages.cache with
          | p :: rest => ({ s with pages := { s.pages with cache := rest } }).evictCached p
          | [] => s
        else s
      match s.freePage 0 with
      | none => s
      | some n =>
        let s := (s.setRec 0 n 0 1 stream block s.beat).store c (r.frameVa 0 n) bs
        let e : CachedPage := { node := node, stream := stream, block := block, frame := n }
        { s with pages := { s.pages with cache := s.pages.cache ++ [e] } }

/-- Outstanding resolutions of a frame from beat `c` or earlier (R288): held reads, moves of the frame,
and the frames a circulation still reads. -/
def State.resolvedBefore (s : State) (tier n c : Nat) : Bool :=
  s.pages.resolutions.any (fun r => r.1 == 2 * n + tier && decide (r.2 ≤ c))

end Sys2Proof.Machine
end

