-- ==== Sys2Proof/Machine/Prefetch.lean ====
section
/-!
DEFINITION. Machine/Prefetch.lean: PFH and the tier engines' prefetches (R409 to R419), and what they
mean for demand accesses.
-/

namespace Sys2Proof.Machine

/-- A prefetch descriptor (R409). -/
structure PfDesc where
  src : Nat
  dst : Nat
  len : Nat
  xlo : Nat
  xhi : Nat
  ra : Nat
  watch : Bool
  faultStale : Bool
  clean : Bool
deriving DecidableEq, Repr

/-- Read a descriptor; `clean` says that its reserved bits are 0. -/
def pfDesc (b : List Byte) : PfDesc :=
  { src := fld b 0 8, dst := fld b 8 8, len := fld b 16 8, xlo := fld b 24 8, xhi := fld b 32 8
    ra := fld b 40 4, watch := bits (fld b 44 1) 0 1 == 1, faultStale := bits (fld b 44 1) 1 1 == 1
    clean := decide (fld b 44 1 < 4) && decide (fld b 45 19 = 0) }

/-- The descriptor is well formed (R410). -/
def PfDesc.ok (d : PfDesc) : Bool :=
  d.clean && decide (d.src % 512 = 0) && decide (d.dst % 512 = 0) && decide (d.len % 512 = 0)
  && decide (d.xlo % 512 = 0) && decide (d.ra % 512 = 0) && decide (512 ≤ d.len)
  && decide (d.len ≤ 2 ^ 40) && decide (d.ra ≤ 2 ^ 26) && decide (d.xlo ≤ d.src)
  && decide (d.src + d.len ≤ d.xhi) && decide (d.xhi ≤ 2 ^ 48) && decide (d.dst + d.len + d.ra ≤ 2 ^ 48)
  && (!d.watch || decide (d.len + d.ra ≤ 2 ^ 28))

/-- A prefetch is active while it is neither complete nor past its deadline (R411). -/
def Prefetch.active (p : Prefetch) : Bool := p.st == .active

/-- The prefetch in a slot of a strand. -/
def State.prefetch (s : State) (a : Site) (slot : Nat) : Option Prefetch :=
  s.prefetches.find? (fun p => p.site == a && p.slot == slot)

/-- Replace the prefetch of a slot by a new one, which is the latest issued. -/
def State.newPrefetch (s : State) (p : Prefetch) : State :=
  { s with prefetches := s.prefetches.filter (fun q => !(q.site == p.site && q.slot == p.slot)) ++ [p] }

/-- Change the prefetch of a slot; its STALE marks stay. -/
def State.setPrefetch (s : State) (p : Prefetch) : State :=
  { s with prefetches := s.prefetches.map (fun q =>
      if q.site == p.site && q.slot == p.slot then { p with stale := q.stale } else q) }

/-- The hub whose tier engine serves a prefetch: that of its source's first byte (log 17). -/
def State.pfHub (s : State) (c : Nat) (p : Prefetch) : Nat := hubOf ((s.translate c p.src).getD 0)

/-- The physical 64 KiB granules that a watched prefetch holds entries for, by hub (R418). -/
def State.watchHubs (s : State) (c src n : Nat) : List Nat :=
  (List.range ((src + n - 1) / 65536 - src / 65536 + 1)).filterMap (fun k =>
    (s.translate c ((src / 65536 + k) * 65536)).map granuleHub)

/-- The watch entries that prefetches hold at a hub, without those of one slot. -/
def State.watchUsed (s : State) (c hub : Nat) (keep : Prefetch → Bool) : Nat :=
  ((s.prefetches.filter (fun p => p.watch && keep p)).flatMap
    (fun p => s.watchHubs c p.src (p.len + p.ra))).countP (· == hub)

/-- Whether every hub has entries left for a watch (R418). -/
def State.watchFits (s : State) (c : Nat) (a : Site) (slot : Nat) (d : PfDesc) : Bool :=
  !d.watch ||
    (let need := s.watchHubs c d.src (d.len + d.ra)
     (List.range 4).all (fun h => decide
       (s.watchUsed c h (fun p => !(p.site == a && p.slot == slot)) + need.countP (· == h) ≤ 1024)))

/-- Bytes that the slot's previous prefetch delivered by run-ahead of this one (R416). -/
def carriedOver (prev : Option Prefetch) (d : PfDesc) : Nat :=
  match prev with
  | some p =>
    if p.st = .done ∧ p.src + p.len = d.src ∧ p.dst + p.len = d.dst then min (p.delivered - p.len) d.len
    else 0
  | none => 0

/-- PFH (R131, R409 to R418). -/
def execPfh (a : Site) (p : Pred) (mop : Mop) (dl : BitVec 16) (part : BitVec 3) (so : BitVec 13)
    (soen : Bool) (slot : BitVec 6) (fallback : BitVec 2) (s : State) :
    Host.Outcome State Fault Refusal :=
  loaded (.pfh a p mop dl part so soen slot fallback) (s.issue a p (fun s =>
    let t := s.strand a
    let c := s.running.getD 0
    let prev := s.prefetch a slot.toNat
    if prev.any Prefetch.active then s
    else
      let va := Mop.addr t mop
      let d := pfDesc (s.vread c va 64)
      s.guarded a [(Mop.bad t mop || !s.accessOk c va 64 false, 0x06), (!d.ok, 0x0A)] (fun s =>
        if !s.watchFits c a slot.toNat d then s
        else
          let new : Prefetch :=
            { site := a, slot := slot.toNat, src := d.src, dst := d.dst, len := d.len, xlo := d.xlo
              xhi := d.xhi, ra := d.ra, watch := d.watch, faultStale := d.faultStale
              deadline := s.beat + dl.toNat, fallback := fallback.toNat
              so := if soen then some so.toNat else none, delivered := carriedOver prev d, st := .active
              missed := false, stopped := false, stale := [] }
          (((s.touch c va 64).newPrefetch new)).advance a)))

/-! ### Transfers -/

/-- How far bytes can be moved from offset `lo` before `hi`: up to the first frame that is unmapped or
of another context (R417). -/
def State.pfReach (s : State) (c : Nat) (p : Prefetch) (lo hi : Nat) : Nat :=
  let stops (base : Nat) : List Nat :=
    (framesOf (base + lo) (hi - lo)).filterMap (fun vf =>
      if (s.mapping c vf).isNone then some (max lo (vf * frameBytes - base)) else none)
  (stops p.src ++ stops p.dst).foldl min hi

/-- The end of a prefetch's bytes with its run-ahead, which stops at XHI (R416). -/
def Prefetch.endAt (p : Prefetch) : Nat := min (p.len + p.ra) (p.xhi - p.src)

/-- Deliver the bytes from the delivered prefix up to offset `hi` (R412). -/
def State.pfDeliver (s : State) (c : Nat) (p : Prefetch) (hi : Nat) : State × Prefetch :=
  if hi ≤ p.delivered then (s, p)
  else
    let n := hi - p.delivered
    ((s.touch c (p.src + p.delivered) n).store c (p.dst + p.delivered)
        (s.vread c (p.src + p.delivered) n), { p with delivered := hi })

/-- A prefetch that the tier engines still transfer (R412, R414). -/
def Prefetch.transfers (p : Prefetch) : Bool :=
  (p.st == .active || p.st == .waiting || p.st == .direct) && !p.stopped && decide (p.delivered < p.len)

/-- A transfer with an earlier deadline still waits for bytes: no run-ahead (R416). -/
def State.pfEarlier (s : State) (p : Prefetch) : Bool :=
  s.prefetches.any (fun q => q.transfers && decide (q.deadline < p.deadline))

/-- The place of a slot's prefetch in the order of issue. -/
def State.pfPlace (s : State) (p : Prefetch) : Nat := s.prefetches.findIdx (fun q => q.site == p.site && q.slot == p.slot)

/-- The tier engine serves a prefetch to its end only when no other at its hub comes first: earlier deadlines, then
earlier issues (R412). One under WAIT has demand rank (R414). -/
def State.pfServed (s : State) (c : Nat) (p : Prefetch) : Bool :=
  p.st == .waiting || s.prefetches.all (fun q =>
    !q.transfers || s.pfHub c q != s.pfHub c p
      || decide (p.deadline < q.deadline ∨ (p.deadline = q.deadline ∧ s.pfPlace p ≤ s.pfPlace q)))

/-- Increment the completion object of a prefetch. -/
def State.pfSignal (s : State) (p : Prefetch) : State :=
  match p.so with
  | some i => s.soAdd i 1
  | none => s

/-- A prefetch delivers its last byte, and may run ahead by `runAhead` bytes (R414, R416). A transfer
that was stopped does not complete. -/
def execPrefetchComplete (a : Site) (slot : BitVec 6) (runAhead : Nat) (s : State) :
    Host.Outcome State Fault Refusal :=
  let c := s.running.getD 0
  .next (match s.prefetch a slot.toNat with
    | some p =>
      if p.st = .done ∨ p.st = .recompute ∨ p.stopped ∨ s.pfReach c p p.delivered p.len < p.len
          ∨ s.pfServed c p = false then s
      else
        let r := s.pfDeliver c p p.len
        let hi := if s.pfEarlier p then p.len else r.1.pfReach c r.2 p.len (min r.2.endAt (p.len + runAhead))
        let q := r.1.pfDeliver c r.2 hi
        let t := q.1.setPrefetch { q.2 with st := .done }
        match p.st with
        | .active => (t.pfSignal p).bump Reg.MT_PF_DONE_COUNT (t.pfHub c p)
        | .waiting => t.pfSignal p
        | _ => t
    | none => s)

/-- A prefetch or its run-ahead meets a frame it may not read or write and stops there (R417). -/
def execPrefetchDrop (a : Site) (slot : BitVec 6) (s : State) : Host.Outcome State Fault Refusal :=
  let c := s.running.getD 0
  .next (match s.prefetch a slot.toNat with
    | some p =>
      let hi := if p.st = .done then p.endAt else p.len
      let x := s.pfReach c p p.delivered hi
      if p.st = .recompute ∨ p.stopped ∨ hi ≤ x ∨ (p.st = .done ∧ s.pfEarlier p) then s
      else
        let r := s.pfDeliver c p x
        -- past its deadline a stopped prefetch with WAIT behaves as DIRECT
        let q := { r.2 with stopped := true, st := if p.st = .waiting then .direct else p.st }
        let t := if p.st = .waiting then (r.1.setPrefetch q).pfSignal p else r.1.setPrefetch q
        let s := t.bump Reg.MT_PF_DROP_COUNT (s.pfHub c p)
        let core := a.core.val
        if (s.core core).dropSent then s
        else
          let va := if (s.mapping c ((p.src + x) / frameBytes)).isNone then p.src + x else p.dst + x
          let s := s.setCore core { s.core core with dropSent := true }
          (s.event 0x0704 (a.strand.val + slot.toNat * 4 + bits va 21 24 * 2 ^ 8) core).put
            Reg.MT_STATUS_DROP 1 (s.pfHub c p)
    | none => s)

/-- An active prefetch takes its fallback at its deadline (R414, R417), with `delivered` bytes there. -/
def State.takeFallback (s : State) (p : Prefetch) (delivered : Nat) : State :=
  let c := s.running.getD 0
  let hi := if p.stopped then p.delivered else s.pfReach c p p.delivered (min delivered p.len)
  let r := s.pfDeliver c p hi
  let hub := s.pfHub c p
  let st : PfSt := if p.fallback = 0 then .recompute else if p.fallback = 1 ∨ p.stopped then .direct else .waiting
  let s := r.1.setPrefetch { r.2 with st := st, missed := true }
  let s := (s.contribute 6).bump Reg.MT_PF_MISS_COUNT hub
  let s := if st = .waiting then s else s.pfSignal p
  let core := p.site.core.val
  if (s.core core).missSent then s
  else
    let s := s.setCore core { s.core core with missSent := true }
    (s.event 0x0703 (p.site.strand.val + p.slot * 4 + p.fallback * 2 ^ 8) core).put Reg.MT_STATUS_MISS 1 hub

/-- Step 7 of a boundary that is no step entry (R69, R414): every prefetch whose deadline beat has opened and that has
not completed takes its fallback. How far its transfer came is a free value (log 7). -/
def State.takeDeadlines (s : State) : State :=
  (s.prefetches.filter (fun p => p.active && decide (p.deadline ≤ s.beat))).foldl (fun (t : State) p =>
    t.drawn.takeFallback p (p.delivered + (Config.freeWord t.draw).toNat % (p.len - p.delivered))) s

/-! ### Demand accesses to prefetched bytes (R413, R414, R419) -/

/-- Whether a demand read waits for undelivered bytes of an active prefetch, or of one under WAIT. -/
def State.readWaits (s : State) (va n : Nat) : Bool :=
  s.prefetches.any (fun p => (p.st == .active || p.st == .waiting)
    && overlaps va n (p.dst + p.delivered) (p.len - p.delivered))

/-- A demand write into the destination of an active prefetch raises PF_DEST. -/
def State.writesDest (s : State) (va n : Nat) : Bool :=
  s.prefetches.any (fun p => p.active && overlaps va n p.dst (p.len + p.ra))

/-- The end of the destination bytes that are derived from the source: what has been or will be delivered. -/
def Prefetch.derived (p : Prefetch) : Nat :=
  if p.stopped || p.st == .recompute then p.delivered else max p.len p.delivered

/-- The destination bytes derived from granule `g` of the source (R419): offset in the transfer and length. -/
def Prefetch.granule (p : Prefetch) (g : Nat) : Nat × Nat :=
  let base := (p.src / 65536 + g) * 65536
  let lo := max p.src base
  (lo - p.src, min (p.src + p.derived) (base + 65536) - lo)

/-- The STALE granules that a demand read meets, with their prefetch. -/
def State.staleMet (s : State) (va n : Nat) : List (Prefetch × Nat) :=
  s.prefetches.flatMap (fun p => (p.stale.filter (fun g =>
    overlaps va n (p.dst + (p.granule g).1) (p.granule g).2)).map (fun g => (p, g)))

/-- A demand read meets STALE bytes of a prefetch in FAULT mode. -/
def State.staleFault (s : State) (va n : Nat) : Option Prefetch :=
  ((s.staleMet va n).find? (fun e => e.1.faultStale)).map (·.1)

/-- Copy a STALE granule again (REFETCH): the source's bytes to the destination, the mark cleared. -/
def State.refetch (s : State) (c : Nat) (p : Prefetch) (g : Nat) : State :=
  let r := p.granule g
  let s := (s.store c (p.dst + r.1) (s.vread c (p.src + r.1) r.2)).bump Reg.MT_PF_REFETCH_COUNT
    (s.pfHub c p) 0 r.2
  { s with prefetches := s.prefetches.map (fun q =>
      if q.site == p.site && q.slot == p.slot then { q with stale := q.stale.filter (· != g) } else q) }

/-- Refetch every STALE granule that a read meets. -/
def State.refetchAll (s : State) (c va n : Nat) : State :=
  (s.staleMet va n).foldl (fun t e => t.refetch c e.1 e.2) s

/-- The address that serves a demand read of one byte: the source, in place, for an undelivered byte
under DIRECT. -/
def State.servedFrom (s : State) (va : Nat) : Nat :=
  match s.prefetches.find? (fun p => p.st == .direct && decide (p.dst + p.delivered ≤ va ∧ va < p.dst + p.len)) with
  | some p => p.src + (va - p.dst)
  | none => va

/-- The undelivered DIRECT bytes of a read lie in source frames that may be read (R396, R417). -/
def State.directOk (s : State) (c va n : Nat) : Bool :=
  s.prefetches.all (fun p => p.st != .direct ||
    (let lo := max va (p.dst + p.delivered)
     let hi := min (va + n) (p.dst + p.len)
     hi ≤ lo || s.accessOk c (p.src + (lo - p.dst)) (hi - lo) false))

/-- The bytes of a demand read. -/
def State.demandBytes (s : State) (c va n : Nat) : List Byte :=
  (List.range n).map (fun k => s.vbyte c (s.servedFrom (va + k)))

/-- STRAND_ERROR cause PF_STALE, with its event (R419, R433). -/
def State.staleError (s : State) (a : Site) (c : Nat) (p : Prefetch) : State :=
  ((s.event 0x0705 (p.site.strand.val + p.slot * 4) a.core.val).put Reg.MT_STATUS_STALE 1
    (s.pfHub c p)).strandError a 0x0D

end Sys2Proof.Machine
end

