-- ==== Sys2Proof/Machine/Moves.lean ====
section
/-!
DEFINITION. Machine/Moves.lean: LDT, STT, GTH, SCT and XFER (R131, R132, R276 to R279, R296, R396,
R405, R406, R413, R414, R419, R423). A move is performed when it issues (log 10); a read that waits for
narrow granules or remote pages is held and finished when they return.
-/

namespace Sys2Proof.Machine

/-- Bytes of a granule of the narrow path (R405). -/
def granuleBytes : Nat := 32

/-- The addresses of the granules that an index list names: base + 32 × index (R131). -/
def State.granules (s : State) (core base listAt n : Nat) : List Nat :=
  let l := s.tread core listAt (4 * n)
  (List.range n).map (fun k => base + granuleBytes * ofBytes ((l.drop (4 * k)).take 4))

/-- The ranges that a read names. -/
def State.readRanges (s : State) (a : Site) : Instr → List (Nat × Nat)
  | .ldt _ _ _ mop len _ _ => [(Mop.addr (s.strand a) mop, unitBytes * len.toNat)]
  | .gth _ _ _ mop len _ op2 _ =>
    let t := s.strand a
    (s.granules a.core.val (Mop.addr t mop) (Tsop.addr t op2) len.toNat).map (fun g => (g, granuleBytes))
  | _ => []

/-- Where a read writes its bytes in the tile store. -/
def State.readDest (s : State) (a : Site) : Instr → Nat
  | .ldt _ _ op _ _ _ _ => Tsop.addr (s.strand a) op
  | .gth _ _ op _ _ _ _ _ => Tsop.addr (s.strand a) op
  | _ => 0

/-- The view pages that some ranges touch, each once in ascending order (R277). -/
def rangesPages (rs : List (Nat × Nat)) : List Nat :=
  ((rs.filter (fun r => isView r.1)).flatMap (fun r => viewPages r.1 r.2)).eraseDups

/-- A demand read of a range is allowed (R277, R396): every view page resolves, every ordinary frame may
be read, and the range ends within the address space. -/
def State.readOk (s : State) (c : Nat) (r : Nat × Nat) : Bool :=
  decide (r.1 + r.2 ≤ 2 ^ 48) &&
  (if isView r.1 then (viewPages r.1 r.2).all (fun pg => s.viewPage (pg * 65536) != .bad)
   else s.accessOk c r.1 r.2 false && s.directOk c r.1 r.2)

/-- The ordinary ranges of a read. -/
def plainRanges (rs : List (Nat × Nat)) : List (Nat × Nat) := rs.filter (fun r => !isView r.1)

/-- Resolve the pages of a read (R277, R278, R296): their images, the requests sent for remote ones, and
the frames whose resolution is outstanding until the read ends. -/
def State.resolve (s : State) (a : Site) (pages : List Nat) :
    State × List (Nat × List Byte) × List (Nat × Nat) × List (Nat × Nat) :=
  pages.foldl (fun (acc : State × List (Nat × List Byte) × List (Nat × Nat) × List (Nat × Nat)) pg =>
    let (s, got, tags, frames) := acc
    let v := s.viewPage (pg * 65536)
    match v with
    | .remote node slot layer head block =>
      (s.fetchPage node slot layer head block (.strand a), got, tags ++ [(s.pages.nextTag, pg)], frames)
    | _ =>
      let frames := match v with
        | .frame tier n => frames ++ [(2 * n + tier, s.beat)]
        | .cached n => frames ++ [(2 * n, s.beat)]
        | _ => frames
      let bytes := (s.viewBytes v).getD []
      (s.viewNote v, got ++ [(pg, bytes)], tags, frames)) (s, [], [], [])

/-- Add outstanding resolutions (R288). -/
def State.holdFrames (s : State) (fs : List (Nat × Nat)) : State :=
  { s with pages := { s.pages with resolutions := s.pages.resolutions ++ fs } }

/-- Remove outstanding resolutions. -/
def State.dropFrames (s : State) (fs : List (Nat × Nat)) : State :=
  { s with pages := { s.pages with resolutions := fs.foldl List.erase s.pages.resolutions } }

/-- The gather-pool frames that a read of some ranges holds, by virtual frame (R369). -/
def State.poolHeld (s : State) (c : Nat) (rs : List (Nat × Nat)) : List (Nat × Nat) :=
  ((plainRanges rs).flatMap (fun r => framesOf r.1 r.2)).eraseDups.filterMap (fun vf =>
    match s.mapping c vf with
    | some m => if s.frame m.frame == .pool c then some (vf, m.frame) else none
    | none => none)

/-- A range that the read holds in a gather-pool frame, and its physical address there. -/
def heldPa (pool : List (Nat × Nat)) (va : Nat) : Option Nat :=
  (pool.find? (fun e => e.1 == va / frameBytes)).map (fun e => e.2 * frameBytes + va % frameBytes)

/-- The bytes of a read, in order: STALE granules are refetched first (R419); a held read takes those of a gather window
from the frame it resolved, whatever the window maps since (R369). -/
def State.readBytes (s : State) (c : Nat) (rs : List (Nat × Nat)) (got : List (Nat × List Byte))
    (pool : List (Nat × Nat)) : State × List Byte :=
  let s := (plainRanges rs).foldl (fun t r =>
    if (heldPa pool r.1).isSome then t else (t.refetchAll c r.1 r.2).touch c r.1 r.2) s
  (s, rs.flatMap (fun r =>
    if isView r.1 then viewRange r.1 r.2 got
    else match heldPa pool r.1 with
      | some pa => (List.range r.2).map (fun k => s.pbyte (pa + k))
      | none => s.demandBytes c r.1 r.2))

/-- Bytes read through the group port and its grants (R432), and granules served by their hubs (R431). -/
def State.countRead (s : State) (a : Site) (c : Nat) (narrow : Bool) (rs : List (Nat × Nat)) : State :=
  let s := s.portTraffic (groupOf a.core.val) (if narrow then 0 else 1) false (rs.map (·.2)).sum
    (if narrow then rs.length else wideRequests rs)
  if narrow then
    (plainRanges rs).foldl (fun t r => t.bump Reg.MT_NARROW_COUNT (hubOf ((t.translate c r.1).getD 0))) s
  else s

/-- A read ends: its bytes are written, its resolutions retire, and the strand goes on. -/
def State.finishRead (s : State) (a : Site) (i : Instr) (hw : HwReport) (got : List (Nat × List Byte))
    (frames pool : List (Nat × Nat)) (narrow : Bool) : State :=
  let c := s.running.getD 0
  let rs := s.readRanges a i
  let r := s.readBytes c rs got pool
  let s := r.1.twrite a.core.val (s.readDest a i) r.2
  ((((s.dropFrames frames).countRead a c narrow rs).report a hw).advance a)

/-- The causes of a demand read: ALIGN, ADDR (R112, R132, R277, R396). -/
def State.readCauses (s : State) (a : Site) (c : Nat) (i : Instr) (mop : Mop) (align : Nat) :
    List (Bool × Nat) :=
  let t := s.strand a
  [(decide (Mop.addr t mop % align ≠ 0), 0x07),
   (Mop.bad t mop || !(s.readRanges a i).all (s.readOk c), 0x06)]

/-- A demand read, of LDT or GTH: it stops on PF_STALE in FAULT mode, waits for a prefetch, or reads; with
remote pages outstanding, or a narrow miss, it is held: a GTH parks its strand (R75), an LDT stalls
without parking it (R75, R296). -/
def State.demandRead (s : State) (a : Site) (i : Instr) (hw : HwReport) (narrow : Bool) : State :=
  let c := s.running.getD 0
  let rs := s.readRanges a i
  match (plainRanges rs).findSome? (fun r => s.staleFault r.1 r.2) with
  | some p => s.staleError a c p
  | none =>
    if (plainRanges rs).any (fun r => s.readWaits r.1 r.2) then s
    else
      let (s, got, tags, frames) := s.resolve a (rangesPages rs)
      if tags.isEmpty && !(narrow && hw.miss) then s.finishRead a i hw got [] [] narrow
      else
        let s := s.holdFrames frames
        let pool := if narrow then s.poolHeld c rs else []
        let h : HeldRead := { instr := i, tags := tags, got := got, frames := frames, pool := pool }
        let t := s.strand a
        if narrow then (s.setStrand a { t with held := some h, st := .parkNarrow }).switchFrom a
        else s.setStrand a { t with held := some h }

/-- LDT (R131, R132). -/
def execLdt (a : Site) (p : Pred) (tsop : Tsop) (mop : Mop) (len : BitVec 13) (part : BitVec 3)
    (hw : HwReport) (s : State) : Host.Outcome State Fault Refusal :=
  let i := Instr.ldt a p tsop mop len part hw
  loaded i (s.onTile a p i (fun _ => s.readCauses a (s.running.getD 0) i mop 512)
    (fun s => s.demandRead a i hw false))

/-- GTH (R131, R405, R406). -/
def execGth (a : Site) (p : Pred) (tsop : Tsop) (mop : Mop) (len : BitVec 13) (part : BitVec 3)
    (tsop2 : Tsop) (hw : HwReport) (s : State) : Host.Outcome State Fault Refusal :=
  let i := Instr.gth a p tsop mop len part tsop2 hw
  loaded i (s.onTile a p i (fun _ => s.readCauses a (s.running.getD 0) i mop granuleBytes)
    (fun s => s.demandRead a i hw true))

/-- A demand write of a range is allowed (R277, R396). -/
def State.writeOk (s : State) (c : Nat) (r : Nat × Nat) : Bool :=
  decide (r.1 + r.2 ≤ 2 ^ 48) && !isView r.1 && s.accessOk c r.1 r.2 true

/-- The causes of a demand write to ranges: ADDR and PF_DEST (R396, R413). -/
def State.writeCauses (s : State) (c : Nat) (bad : Bool) (rs : List (Nat × Nat)) : List (Bool × Nat) :=
  [(bad || !rs.all (s.writeOk c), 0x06), (rs.any (fun r => s.writesDest r.1 r.2), 0x0C)]

/-- Whether a demand write waits for a frame move (R423). -/
def State.writeWaits (s : State) (c : Nat) (rs : List (Nat × Nat)) : Bool :=
  rs.any (fun r => s.moveHolds c r.1 r.2)

/-- STT (R131, R132). -/
def execStt (a : Site) (p : Pred) (tsop : Tsop) (mop : Mop) (len : BitVec 13) (part : BitVec 3)
    (hw : HwReport) (s : State) : Host.Outcome State Fault Refusal :=
  let i := Instr.stt a p tsop mop len part hw
  let c := s.running.getD 0
  loaded i (s.onTile a p i
    (fun t => (decide (Mop.addr t mop % 512 ≠ 0), 0x07) ::
      s.writeCauses c (Mop.bad t mop) [(Mop.addr t mop, unitBytes * len.toNat)])
    (fun s =>
      let t := s.strand a
      let va := Mop.addr t mop
      let n := unitBytes * len.toNat
      if s.writeWaits c [(va, n)] then s
      else
        let s := s.store c va (s.tread a.core.val (Tsop.addr t tsop) n)
        ((s.portTraffic (groupOf a.core.val) 1 true n (wideRequests [(va, n)])).report a hw).advance a))

/-- Write the granules of a scatter in index order, so that the last of two at one address prevails
(R406). -/
def State.scatter (s : State) (c : Nat) (bs : List Byte) : Nat → List Nat → State
  | _, [] => s
  | k, g :: gs => (s.store c g ((bs.drop (granuleBytes * k)).take granuleBytes)).scatter c bs (k + 1) gs

/-- The granules that an SCT names. -/
def State.sctRanges (s : State) (a : Site) (mop : Mop) (len : Nat) (op2 : Tsop) : List Nat :=
  let t := s.strand a
  s.granules a.core.val (Mop.addr t mop) (Tsop.addr t op2) len

/-- A scatter takes effect, and the strand goes on. -/
def State.finishScatter (s : State) (a : Site) (tsop : Tsop) (mop : Mop) (len : Nat) (op2 : Tsop)
    (hw : HwReport) : State :=
  let c := s.running.getD 0
  let gs := s.sctRanges a mop len op2
  let bs := s.tread a.core.val (Tsop.addr (s.strand a) tsop) (granuleBytes * len)
  let s := (s.scatter c bs 0 gs).portTraffic (groupOf a.core.val) 0 true (granuleBytes * len) len
  let s := gs.foldl (fun t g => t.bump Reg.MT_NARROW_COUNT (hubOf ((t.translate c g).getD 0))) s
  (s.report a hw).advance a

/-- SCT (R131, R405, R406). -/
def execSct (a : Site) (p : Pred) (tsop : Tsop) (mop : Mop) (len : BitVec 13) (part : BitVec 3)
    (tsop2 : Tsop) (hw : HwReport) (s : State) : Host.Outcome State Fault Refusal :=
  let i := Instr.sct a p tsop mop len part tsop2 hw
  let c := s.running.getD 0
  let rs := (s.sctRanges a mop len.toNat tsop2).map (fun g => (g, granuleBytes))
  loaded i (s.onTile a p i
    (fun t => (decide (Mop.addr t mop % granuleBytes ≠ 0), 0x07) :: s.writeCauses c (Mop.bad t mop) rs)
    (fun s =>
      if s.writeWaits c rs then s
      else if hw.miss then
        let t := s.strand a
        let h : HeldRead := { instr := i, tags := [], got := [], frames := [], pool := [] }
        (s.setStrand a { t with held := some h, st := .parkNarrow }).switchFrom a
      else s.finishScatter a tsop mop len.toNat tsop2 hw))

/-- The held instruction of a strand ends: its granules or pages have returned (R75, R296). -/
def State.finishHeld (s : State) (a : Site) (h : HeldRead) : State :=
  let t := s.strand a
  let s := s.setStrand a { t with held := none, st := if t.st = .parkNarrow then .run else t.st }
  match h.instr with
  | .ldt _ _ _ _ _ _ hw => s.finishRead a h.instr hw h.got h.frames h.pool false
  | .gth _ _ _ _ _ _ _ hw => (s.finishRead a h.instr hw h.got h.frames h.pool true).woken a.core
  | .sct _ _ tsop mop len _ op2 hw => (s.finishScatter a tsop mop len.toNat op2 hw).woken a.core
  | _ => s

/-- Granules of a parked GTH or SCT return and the strand is ready again (R75); a view read also waits for
its remote pages (R296). -/
def execNarrowMissReturn (a : Site) (s : State) : Host.Outcome State Fault Refusal :=
  let t := s.strand a
  .next (match t.st, t.held with
    | .parkNarrow, some h => if h.tags.isEmpty then s.finishHeld a h else s
    | _, _ => s)

/-- XFER (R131, R132): the region goes to an address in the remote node's context in packets of up to
4,096 B (R437). A node that is this device takes it as its own write (log 18). -/
def execXfer (a : Site) (p : Pred) (tsop : Tsop) (mop : Mop) (node : NodeOp) (len : BitVec 13)
    (part : BitVec 3) (hw : HwReport) (s : State) : Host.Outcome State Fault Refusal :=
  let i := Instr.xfer a p tsop mop node len part hw
  let c := s.running.getD 0
  let n := unitBytes * len.toNat
  loaded i (s.onTile a p i
    (fun t =>
      let va := Mop.addr t mop
      let own := !NodeOp.bad t node && decide (NodeOp.node t node = s.node)
      [(decide (va % 512 ≠ 0), 0x07), (Mop.bad t mop || isView va, 0x06),
       (NodeOp.bad t node || (!own && !s.inJob (NodeOp.node t node)), 0x0A)]
      ++ (if own then s.writeCauses c false [(va, n)] else []))
    (fun s =>
      let t := s.strand a
      let va := Mop.addr t mop
      let dest := NodeOp.node t node
      let bs := s.tread a.core.val (Tsop.addr t tsop) n
      let counted (s : State) : State := s.portTraffic (groupOf a.core.val) 1 true n (wideRequests [(va, n)])
      if dest = s.node then
        if s.writeWaits c [(va, n)] then s else ((counted (s.store c va bs)).report a hw).advance a
      else
        let fs := (packets 4096 bs).map (fun q =>
          dataFrame 0x01 dest (va + q.1) (n + part.toNat * 2 ^ 32) q.2.2 q.2.1)
        ((counted (s.send c dest fs (.strand a))).report a hw).advance a))

end Sys2Proof.Machine
end

