-- ==== Sys2Proof/Machine/Pages.lean ====
section
/-!
DEFINITION. Machine/Pages.lean: KVAPP (R263, R280 to R283), the command ring (R285 to R287), quarantine (R288)
and ageing (R289, R290).
-/

namespace Sys2Proof.Machine

/-! ### KVAPP -/

/-- What a KVAPP names: its stream and block, the first row within the block, the rows, K or V. -/
structure KvArgs where
  slot : Nat
  layer : Nat
  head : Nat
  v : Bool
  pos : Nat
  rows : Nat
  fmt : Nat
  acc : Nat
  tsx : Nat
deriving DecidableEq, Repr

/-- The operands of a KVAPP at run time (R139). -/
def kvArgs (t : Strand) : Instr → Option KvArgs
  | .kvapp _ _ tsacc tsx slot layer head kv pos plc plce rows1 fmt _ =>
    let rows := rows1.toNat + 1
    some
      { slot := slot.toNat, layer := layer.toNat, head := head.toNat, v := kv
        pos := pos.toNat + (if plce then t.iter plc.toNat * rows else 0), rows := rows, fmt := fmt.toNat
        acc := Tsop.unit t tsacc, tsx := Tsop.unit t tsx }
  | _ => none

/-- The last position of a KVAPP. -/
def KvArgs.last (k : KvArgs) : Nat := k.pos + k.rows - 1

/-- The position limit of R263. -/
def KvArgs.tooLong (k : KvArgs) : Bool := decide (2 ^ 24 ≤ k.last)

/-- The OPERAND conditions of a KVAPP (R139, R280 rows 2 and 3), judged after the position limit. -/
def State.kvBad (s : State) (k : KvArgs) : Bool :=
  match s.roots with
  | none => true
  | some (_, r) =>
    let stream := r.stream k.slot k.layer k.head
    let b := k.pos / 128
    decide (k.last / 128 ≠ b) || r.fmt != k.fmt || decide ((s.streamDesc stream).2.2.1 ≤ b) ||
      (match s.entry stream b with
       | .remote _ => true
       | _ => false)

/-- The rows that a KVAPP writes, as (row bytes, scale bytes), and whether a conversion was not finite
(R198 to R200). -/
def State.kvRows (s : State) (core : Nat) (k : KvArgs) : List (List Byte × List Byte) × Nat :=
  let a := sint10 (s.recWord core k.tsx 0)
  let rows := (s.accRead core k.acc k.rows).map (fun r => r.map (accValue a))
  if k.fmt = 0 then
    (rows.map (fun r => (packRow 0 (r.map ((fmtOf 0).enc .rne)), [])),
     (rows.map (fun r => r.countP (fun x => !((fmtOf 0).decode ((fmtOf 0).enc .rne x)).isFin))).sum)
  else
    let bl := rows.map (fun r => (List.range 4).map (fun j => mxBlock k.fmt .rne ((r.drop (32 * j)).take 32)))
    (bl.map (fun r => (packRow k.fmt (r.flatMap (·.2.1)), r.flatMap (fun b => toBytes 1 b.1))),
     32 * (bl.map (fun r => r.countP (·.2.2))).sum)

/-- Write converted rows into a frame from row `row` on (R267). -/
def State.kvWriteRows (s : State) (c va : Nat) (r : Roots) (v : Bool) :
    Nat → List (List Byte × List Byte) → State
  | _, [] => s
  | row, (bs, sc) :: rest =>
    let s := s.store c (va + (if v then 128 * r.rowBytes else 0) + r.rowBytes * row) bs
    let s := if sc.isEmpty then s else s.store c (va + 32768 + (if v then 512 else 0) + 4 * row) sc
    s.kvWriteRows c va r v (row + 1) rest

/-- Whether row `j` of a frame image is a pad row (R241). -/
def framePad (fmt : Nat) (img : List Byte) (j : Nat) : Bool :=
  if fmt = 0 then fld img (256 * j) 2 == 0xFFFF
  else fld img (128 * j) 1 == 0xFF && fld img (32768 + 4 * j) 1 != 0 && fld img (32768 + 4 * j) 1 != 255

/-- The summary of a frame image: the exact mean of its K rows below FILL that are not pad rows, rounded
once to BF16; all zeros when there is none (R248, R282). -/
def summaryOf (r : Roots) (img : List Byte) (fill : Nat) : List Byte :=
  let rows := (List.range fill).filter (fun j => !framePad r.fmt img j)
  let size := r.rowBytes
  let vals := rows.map (fun j => rowVals r.fmt ((img.drop (size * j)).take size) ((img.drop (32768 + 4 * j)).take 4))
  let code (d : Nat) : Nat :=
    if rows.isEmpty || decide (16 * r.hdim ≤ d) then 0
    else match (vals.map (fun v => v.getD d fzero)).foldl Fv.add fzero with
      | .num s m e => (fmtOf 0).encRat .rne s m rows.length e
      | x => (fmtOf 0).enc .rne x
  (List.range 128).flatMap (fun d => toBytes 2 (code d))

/-- Rows written into a LIVE frame; FILL, LEN and BEAT; with KV = 0 the summary (R280 row 7, R282). -/
def State.kvWrite (s : State) (a : Site) (k : KvArgs) (hw : HwReport) (tier n : Nat) : State :=
  match s.roots with
  | none => s
  | some (c, r) =>
    let core := a.core.val
    let stream := r.stream k.slot k.layer k.head
    let b := k.pos / 128
    let rows := s.kvRows core k
    let s := s.kvWriteRows c (r.frameVa tier n) r k.v (k.pos % 128) rows.1
    let fill := match s.entry stream b with
      | .frame _ _ f => max f (k.last % 128 + 1)
      | _ => k.last % 128 + 1
    let d := s.streamDesc stream
    let s := s.setEntry stream b tier n fill
    let s := s.store c (r.descVa stream + 20) (toBytes 4 (max d.2.2.2 (k.last + 1)))
    let s := s.touchPage tier n
    let s := if k.v then s else s.store c (d.2.1 + 256 * b) (summaryOf r (s.pageBytes tier n) fill)
    let s := s.bump Reg.CORE_VEC_BUSY_COUNT core 0 k.rows
    let s := if rows.2 ≠ 0 then
        ((s.bump Reg.CORE_VEC_NONFIN_COUNT core 0 rows.2).setRecWord core k.tsx 0
          (recClean (insBits (s.recWord core k.tsx 0) 10 1 1))).nonfin core
          a.strand.val 2 (s.strand a).pc.toNat
      else s
    (s.report a hw true).advance a

/-- A KVAPP waits: for a free frame, which raises KV_POOL_WAIT once, or for the end of a move (R280, R281).
The strand stalls without parking (R75). -/
def State.kvHold (s : State) (a : Site) (i : Instr) (k : KvArgs) (moving : Bool) : State :=
  let again := (s.strand a).kvWait
  let s := if moving || again.any (fun w => !w.moving) then s
    else (s.event 0x0403 (k.slot + k.layer * 2 ^ 8 + k.head * 2 ^ 18) a.core.val).put Reg.KVP_STATUS_POOL_WAIT 1
  let since := match again with
    | some w => if w.moving == moving then w.since else s.beat
    | none => s.beat
  let w : KvWait := { instr := i, since := since, moving := moving }
  s.setStrand a { s.strand a with kvWait := some w }

/-- Copy on write (R283): the entry takes a copy of the frame in a new one; the old one loses a reference. -/
def State.copyOnWrite (s : State) (c : Nat) (r : Roots) (stream b tier n fill tier' n' : Nat) : State :=
  let img := s.pageBytes tier n
  let s := (s.setRec tier' n' 1 1 stream b s.beat).store c (r.frameVa tier' n') img
  ((s.setEntry stream b tier' n' fill).dropRef tier n s.beat (stream, b)).bump Reg.KVP_COW_COUNT

/-- Steps 4 to 7 of a KVAPP (R280). -/
def State.kvAppend (s : State) (a : Site) (i : Instr) (k : KvArgs) (hw : HwReport) : State :=
  match s.roots with
  | none => s
  | some (c, r) =>
    let stream := r.stream k.slot k.layer k.head
    let b := k.pos / 128
    let go (s : State) (tier n : Nat) : State :=
      (s.setStrand a { s.strand a with kvWait := none }).kvWrite a k hw tier n
    match s.entry stream b with
    | .frame tier n fill =>
      if 1 < s.frRef tier n then
        match s.allocPage with
        | some (tier', n') => go (s.copyOnWrite c r stream b tier n fill tier' n') tier' n'
        | none => s.kvHold a i k false
      else if s.frState tier n = 3 then s.kvHold a i k true
      else go s tier n
    | _ =>
      match s.allocPage with
      | some (tier, n) =>
        go (((s.noteEntry stream b).takePage tier n stream b).setEntry stream b tier n 0) tier n
      | none => s.kvHold a i k false

/-- KV_LENGTH (R263, R266): nothing is written. -/
def State.kvRefuse (s : State) (a : Site) (k : KvArgs) : State :=
  let s := (s.bump Reg.ATT_LENGTH_REFUSED_COUNT).put Reg.ATT_STATUS_LENGTH 1
  (s.event 0x0401 (k.slot + k.layer * 2 ^ 8 + k.head * 2 ^ 18 + (if k.v then 2 ^ 24 else 0)) a.core.val).advance a

/-- KVAPP (R139, R263, R280 to R283). -/
def execKvapp (a : Site) (p : Pred) (tsacc tsx : Tsop) (slot : BitVec 8) (layer : BitVec 10)
    (head : BitVec 6) (kv : Bool) (pos : BitVec 24) (plc : BitVec 2) (plce : Bool) (rows1 : BitVec 7)
    (fmt : BitVec 4) (hw : HwReport) (s : State) : Host.Outcome State Fault Refusal :=
  let i := Instr.kvapp a p tsacc tsx slot layer head kv pos plc plce rows1 fmt hw
  loaded i (s.onTile a p i
    (fun t => match kvArgs t i with
      | some k => [(!k.tooLong && s.kvBad k, 0x0A)]
      | none => [])
    (fun s => match kvArgs (s.strand a) i with
      | some k => if k.tooLong then s.kvRefuse a k else s.kvAppend a i k hw
      | none => s))

/-- A KVAPP that waits goes on once a frame is FREE, or the move has ended (R280, R281). -/
def execKvappResume (a : Site) (s : State) : Host.Outcome State Fault Refusal :=
  .next (match (s.strand a).kvWait with
    | none => s
    | some w =>
      match kvArgs (s.strand a) w.instr, w.instr with
      | some k, .kvapp _ _ _ _ _ _ _ _ _ _ _ _ _ hw => s.kvAppend a w.instr k hw
      | _, _ => s)

/-- No frame has become FREE by the second boundary after the wait began: cause KV_POOL (R281). -/
def execKvPoolTimeout (a : Site) (s : State) : Host.Outcome State Fault Refusal :=
  .next (match (s.strand a).kvWait with
    | none => s
    | some w =>
      if !w.moving && decide (w.since + 2 ≤ s.beat) && s.allocPage.isNone then
        (s.setStrand a { s.strand a with kvWait := none }).strandError a 0x0B
      else s)

/-! ### The command ring (R285 to R287) -/

/-- A ring record. -/
structure RingRec where
  op : Nat
  done : Nat
  src : Nat
  dst : Nat
  first : Nat
  count : Nat
deriving DecidableEq, Repr

/-- Read record `k` of the ring (R285). -/
def State.ringRec (s : State) (c : Nat) (r : Roots) (k : Nat) : RingRec :=
  let b := s.vread c (r.ring + 32 * (k % r.ringN)) 32
  { op := fld b 0 1, done := bits (fld b 2 2) 0 13, src := fld b 4 3, dst := fld b 8 3
    first := fld b 12 4, count := fld b 16 4 }

/-- A range of a stream beyond the stream table or NBLK (R287). -/
def State.badRange (s : State) (r : Roots) (stream first count : Nat) : Bool :=
  decide (r.streams ≤ stream) || decide (count < 1) || decide (131072 < count)
    || decide ((s.streamDesc stream).2.2.1 < first + count)

/-- A record that sets STATUS 2 (R287). -/
def State.badRecord (s : State) (r : Roots) (x : RingRec) : Bool :=
  (x.op != 1 && x.op != 2 && x.op != 3) || s.badRange r x.src x.first x.count
    || (x.op == 1 && s.badRange r x.dst x.first x.count)

/-- SHARE of one block (R286, R287); the flag says that REFCNT refused it. -/
def State.shareBlock (s : State) (src dst b : Nat) : State × Bool :=
  let s := (s.noteEntry src b).noteEntry dst b
  let copy (s : State) : State := s.setEntryWord dst b (s.entryWord src b)
  let release (s : State) : State := match s.entry dst b with
    | .frame tier n _ => s.dropRef tier n s.beat (dst, b)
    | _ => s
  match s.entry src b with
  | .frame tier n _ =>
    let same := match s.entry dst b with
      | .frame tier' n' _ => tier' == tier && n' == n
      | _ => false
    if same then (s, false)
    else if 65535 ≤ s.frRef tier n then
      ((s.event 0x0404 dst).put Reg.KVP_STATUS_REFSAT 1, true)
    else
      let s := copy (release s)
      let o := s.frOwner tier n
      (s.setRec tier n (s.frRef tier n + 1) (s.frState tier n) o.1 o.2 (s.frBeat tier n), false)
  | _ => (copy (release s), false)

/-- Begin a move of a frame with REFCNT 1 to the other extent (R289): STATE MOVING, a frame taken there. -/
def State.beginMove (s : State) (tier n n' : Nat) : State :=
  let o := s.frOwner tier n
  let s := s.setRec tier n (s.frRef tier n) 3 o.1 o.2 (s.frBeat tier n)
  let s := s.setRec (1 - tier) n' 0 3 o.1 o.2 s.beat
  let m : PageMove := { lpddr := tier == 1, src := n, dst := n', stream := o.1, block := o.2 }
  { s with pages := { s.pages with moves := s.pages.moves ++ [m] } }

/-- PROMOTE of one block (R274, R286); the flag says that REFCNT refused it. -/
def State.promoteBlock (s : State) (stream b : Nat) : State × Bool :=
  let s := s.noteEntry stream b
  match s.entry stream b with
  | .frame 1 n _ =>
    if s.frRef 1 n ≠ 1 then (s, true)
    else if s.frState 1 n ≠ 1 then (s, false)
    else match s.freePage 0 with
      | some n' => (s.beginMove 1 n n', false)
      | none => (s, false)
  | _ => (s, false)

/-- The blocks of a record, one by one in ascending order (R286). -/
def State.ringBlocks (s : State) (x : RingRec) : State × Bool :=
  (List.range x.count).foldl (fun (acc : State × Bool) i =>
    let b := x.first + i
    let r := match x.op with
      | 1 => acc.1.shareBlock x.src x.dst b
      | 3 => acc.1.promoteBlock x.src b
      | _ => ({ acc.1 with pages := { acc.1.pages with frees := acc.1.pages.frees ++ [(x.src, b)] } }, false)
    (r.1, acc.2 || r.2)) (s, false)

/-- Whether the frame of an entry is being moved: what else names the entry waits for the end (R284). -/
def State.entryMoves (s : State) (stream b : Nat) : Bool :=
  match s.entry stream b with
  | .frame tier n _ => s.frState tier n == 3
  | _ => false

/-- A SHARE one of whose entries is being moved waits (R284). -/
def State.shareWaits (s : State) (x : RingRec) : Bool :=
  x.op == 1 && (List.range x.count).any (fun i =>
    s.entryMoves x.src (x.first + i) || s.entryMoves x.dst (x.first + i))

/-- The page unit performs the next ring record once the doorbell's COUNT exceeds its number; the command
`op` performs a record of its own OP, and any of them one with a reserved OP (R285, R287). -/
def State.ringCommand (s : State) (op : Nat) : State :=
  match s.roots with
  | none => s
  | some (c, r) =>
    let k := s.get Reg.KVP_CMD_CONS_K
    let x := s.ringRec c r k
    if (s.obj r.doorbell).count.toNat ≤ k ∨ r.ringN = 0 then s
    else if (x.op ≠ op ∧ 1 ≤ x.op ∧ x.op ≤ 3) ∨ (s.badRecord r x = false ∧ s.shareWaits x = true) then s
    else
      let (s, status) :=
        if s.badRecord r x then
          ((s.event 0x0406 (k % r.ringN)).put Reg.KVP_STATUS_CMD 1, 2)
        else
          let y := s.ringBlocks x
          (y.1, if y.2 then 1 else 0)
      let s := s.store c (r.ring + 32 * (k % r.ringN) + 20) (toBytes 4 status)
      (s.put Reg.KVP_CMD_CONS_K (k + 1)).soAdd x.done 1

/-- SHARE (R286). -/
def execShare (s : State) : Host.Outcome State Fault Refusal := .next (s.ringCommand 1)

/-- FREE (R286). -/
def execFree (s : State) : Host.Outcome State Fault Refusal := .next (s.ringCommand 2)

/-- PROMOTE (R286). -/
def execPromote (s : State) : Host.Outcome State Fault Refusal := .next (s.ringCommand 3)

/-- FREE of one block: the reference is dropped and the entry cleared (R274, R286, R288). -/
def State.freeBlock (s : State) (stream b : Nat) : State :=
  let s := s.noteEntry stream b
  let s := match s.entry stream b with
    | .frame tier n _ => s.dropRef tier n s.beat (stream, b)
    | _ => s
  s.setEntryWord stream b 0

/-- The pending FREE commands apply at a commit, with the beat that the boundary opens (R286, R288); one whose entry is
being moved follows the move (R284). -/
def State.applyFrees (s : State) : State :=
  let s' := s.pages.frees.foldl (fun (t : State) e =>
    if t.entryMoves e.1 e.2 then { t with pages := { t.pages with after := t.pages.after ++ [e] } }
    else t.freeBlock e.1 e.2) s
  { s' with pages := { s'.pages with frees := [] } }

/-! ### Moves, quarantine and ageing (R288 to R290) -/

/-- A page move ends (R289): the frame is copied, the entry names the new one, the old one goes into
quarantine. Frames are named 2 × number + extent. -/
def execKvMoveDone (frame : Nat) (s : State) : Host.Outcome State Fault Refusal :=
  let tier := frame % 2
  let n := frame / 2
  .next (match s.roots, s.pages.moves.find? (fun m => m.lpddr == (tier == 1) && m.src == n) with
    | some (c, r), some m =>
      let dest := 1 - tier
      let fill := match s.entry m.stream m.block with
        | .frame _ _ f => f
        | _ => 0
      let s := s.store c (r.frameVa dest m.dst) (s.pageBytes tier n)
      let s := s.setRec dest m.dst (s.frRef tier n) 1 m.stream m.block s.beat
      let s := s.setEntry m.stream m.block dest m.dst fill
      let s := s.setRec tier n (s.frRef tier n) 2 m.stream m.block s.beat
      let s := if tier = 0 then s.bump Reg.KVP_AGED_COUNT else s
      let late := s.pages.after.contains (m.stream, m.block)
      let s := { s with pages := { s.pages with
        moves := s.pages.moves.erase m, after := s.pages.after.filter (fun e => e != (m.stream, m.block)) } }
      if late then s.freeBlock m.stream m.block else s
    | _, _ => s)

/-- Whether a frame in quarantine has met its boundary, two after it entered (R288). -/
def State.quarDue (s : State) (tier n : Nat) : Bool :=
  s.frState tier n == 2 && decide (s.frBeat tier n + 2 ≤ s.beat)

/-- Frames held in quarantine past their boundary by an outstanding resolution. -/
def State.quarHeld (s : State) (r : Roots) : Nat :=
  (([0, 1] : List Nat).map (fun tier => ((List.range (r.extent tier)).filter (fun n =>
    s.quarDue tier n && s.resolvedBefore tier n (s.frBeat tier n))).length)).sum

/-- A quarantined frame returns to FREE from the boundary that opens beat c + 2 on, once no older
resolution is outstanding; until then KV_QUAR_HOLD is raised (R288). Frames are named 2 × number + extent. -/
def execKvQuarantineRelease (frame : Nat) (s : State) : Host.Outcome State Fault Refusal :=
  let tier := frame % 2
  let n := frame / 2
  .next (match s.roots with
    | none => s
    | some (_, r) =>
      if r.extent tier ≤ n ∨ s.quarDue tier n = false then s
      else if s.resolvedBefore tier n (s.frBeat tier n) then
        (s.event 0x0407 (s.quarHeld r)).put Reg.KVP_STATUS_QUAR_HOLD 1
      else s.setRec tier n 0 0 0 0 s.beat)

/-- Step 6 of the boundary for page frames (R69, R288): every frame whose boundary has come and that no older resolution
holds is FREE. KV_QUAR_HOLD is raised when a frame stays past its boundary, which is this one (log 29). -/
def State.releasePages (s : State) : State :=
  match s.roots with
  | none => s
  | some (_, r) =>
    let due := ([0, 1] : List Nat).flatMap (fun tier =>
      ((List.range (r.extent tier)).filter (s.quarDue tier)).map (fun n => (tier, n)))
    let late := due.any (fun e => s.resolvedBefore e.1 e.2 (s.frBeat e.1 e.2) && s.frBeat e.1 e.2 + 2 == s.beat)
    let s := if late then (s.event 0x0407 (s.quarHeld r)).put Reg.KVP_STATUS_QUAR_HOLD 1 else s
    due.foldl (fun (t : State) e =>
      if t.resolvedBefore e.1 e.2 (t.frBeat e.1 e.2) then t else t.setRec e.1 e.2 0 0 0 0 t.beat) s

/-- At step entry KVP_CMD_CONS takes the doorbell's COUNT: records not performed are discarded (R285). -/
def State.resetRing (s : State) : State :=
  match s.roots with
  | none => s
  | some (_, r) => s.put Reg.KVP_CMD_CONS_K (s.obj r.doorbell).count.toNat

/-- The HBM frames that ageing may move, oldest BEAT first, ties to the lower number (R289). -/
def State.agedFrames (s : State) (r : Roots) : List Nat :=
  (((List.range r.hbmFrames).filter (fun n => s.frState 0 n == 1 && s.frRef 0 n == 1)).stableSort
    (fun x y => decide (s.frBeat 0 x < s.frBeat 0 y) || (s.frBeat 0 x == s.frBeat 0 y && decide (x ≤ y))))

/-- Ageing at a beat boundary (R289): below LOW free HBM frames, up to RATE moves begin. -/
def State.agePages (s : State) : State :=
  match s.roots with
  | none => s
  | some (_, r) =>
    if s.freePages 0 < s.get Reg.KVP_POOL_CFG_LOW then
      ((s.agedFrames r).take (s.get Reg.KVP_POOL_CFG_RATE)).foldl (fun t n =>
        match t.freePage 1 with
        | some n' => t.beginMove 0 n n'
        | none => t) s
    else s

end Sys2Proof.Machine
end

