-- ==== Sys2Proof/Machine/Update.lean ====
section
/-!
DEFINITION. Machine/Update.lean: the update engine (R322 to R343, R351 to R357): UPD, the start and the end
of its jobs. A job streams its shard when it starts; it ends when its tee is acknowledged.
-/

namespace Sys2Proof.Machine

/-! ### Numbers of the shard formats (R330 to R332, R339, R340) -/

/-- XM40 (R330): binary32's exponent with 31 fraction bits; its code is the FP32 code followed by the
extension byte. -/
def xm40 : Fmt := ⟨40, 8, 31, 127, .ieee⟩

/-- Square root of binary32. -/
def usqrt (x : Fv) : Fv := fsqrtWith isqrt x

/-- Multiplication by a power of two, rounded only when the result is subnormal (R334). -/
def unscale (x : Fv) (k : Int) : Fv := (x.scale k).r32

/-- One round of the generator (R339). -/
def hashRound (h : W64) : W64 :=
  let h := h * 0xA24BAED4963EE407
  let h := h ^^^ (h >>> 29)
  h + 0xD1B554A32D192ED03

/-- The 24 random bits of an element (R339): seed, t, global index, purpose. -/
def stochBits (seed : W64) (t x purpose : Nat) : Nat :=
  let h := seed ^^^ (BitVec.ofNat 64 t * 0x9E6C63D0676A9A99)
  let h := h ^^^ (BitVec.ofNat 64 (purpose * 2 ^ 48) + BitVec.ofNat 64 x)
  (hashRound (hashRound (hashRound h))).toNat / 2 ^ 40

/-- ± m × 2^e rounded stochastically to an integer (R340). -/
def stochInt (neg : Bool) (m : Nat) (e : Int) (r : Nat) : Int :=
  let n : Int := if neg then -(m : Int) else m
  if 0 ≤ e then n * 2 ^ e.toNat
  else
    let d : Int := 2 ^ (-e).toNat
    let q := n.fdiv d
    if (r : Int) < (n - q * d) * 2 ^ 24 / d then q + 1 else q

/-- ± m × 2^e rounded stochastically to a code of a format, and whether it was beyond its range (R337,
R340). -/
def Fmt.stoch (f : Fmt) (neg : Bool) (m : Nat) (e : Int) (r : Nat) : Nat × Bool :=
  if m = 0 then (f.sign neg, false)
  else
    let q := max (flog2 m 1 e - f.mb) f.emin
    let nn := m * 2 ^ (e - q).toNat
    let dd := 2 ^ (q - e).toNat
    let lo := (q - f.emin).toNat * 2 ^ f.mb + nn / dd
    let rem := nn % dd
    let t := (if neg then dd - rem else rem) * 2 ^ 24 / dd
    if f.maxCode < lo ∨ (lo = f.maxCode ∧ rem ≠ 0) then (f.sign neg + f.maxCode, true)
    else
      let up := rem != 0 && (decide (r < t) != neg)
      (f.sign neg + (if up then lo + 1 else lo), false)

/-- A code made finite: a free code's top exponent bit is cleared when its exponent is all ones. -/
def Fmt.finite (f : Fmt) (v : Nat) : Nat :=
  let v := v % 2 ^ f.w
  if v / 2 ^ f.mb % 2 ^ f.eb = 2 ^ f.eb - 1 then v - 2 ^ (f.mb + f.eb - 1) else v

/-- A free number of `n` bytes of a draw. -/
def freeNat (draw at_ n : Nat) : Nat := ofBytes ((List.range n).map (fun k => Config.freeByte draw (at_ + k)))

/-- A result written in a format that holds no non-finite value (R337): beyond the range the largest finite
value, for a NaN a free finite code (log 31); and whether the element counts as saturated. -/
def Fmt.clamped (f : Fmt) (x : Fv) (free : Nat) : Nat × Bool :=
  match x with
  | .nan => (f.finite free, true)
  | .inf s => (f.sign s + f.maxCode, true)
  | .num s m e =>
    let c := f.code .rne m 1 e
    if f.maxCode < c then (f.sign s + f.maxCode, true) else (f.sign s + c, false)

/-- The scale code of a block for a largest ceiling exponent (R200, R331, R332), from 1 to 254; 0 for a block
of zeros; 254 when a value is infinite. -/
def blockScale (eMax : Int) (xs : List Fv) : Nat :=
  if xs.any Fv.isInf then 254
  else
    match (xs.filterMap Fv.ceilExp).max? with
    | none => 0
    | some em => (max 1 (min 254 (em - eMax + 127))).toNat

/-- Whether ± m × 2^e lies beyond an integer bound. -/
def beyond (bound m : Nat) (e : Int) : Bool :=
  decide (bound * 2 ^ (-e).toNat < m * 2 ^ e.toNat)

/-- A first moment in M1Q8 under scale c (R331). -/
def m1q8 (c : Nat) (x : Fv) (r free : Nat) : Nat × Bool :=
  match x with
  | .nan => (let v := free % 256; if v = 128 then 0 else v, true)
  | .inf s => (if s then 129 else 127, true)
  | .num s m e =>
    if c = 0 then (0, false)
    else
      let k : Int := e + 127 - c + 6
      if beyond 127 m k then (if s then 129 else 127, true)
      else ((stochInt s m k r).emod 256 |>.toNat, false)

/-- A second moment in M2Q8 under scale c (R332). -/
def m2q8 (c : Nat) (x : Fv) (r free : Nat) : Nat × Bool :=
  match x with
  | .nan => (free % 256, true)
  | .inf _ => (255, true)
  | .num _ _ _ =>
    if c = 0 then (0, false)
    else
      match usqrt (x.scale (127 - (c : Int))) with
      | .num _ m e =>
        let v := stochInt false m (e + 8) r
        if 255 < v then (255, true) else (v.toNat, false)
      | _ => (255, true)

/-- The value of an M2Q8 element (R332). -/
def m2q8Val (c u : Nat) : Fv :=
  if c = 0 then .num false 0 0 else .num false (u * u) ((c : Int) - 127 - 16)

/-! ### Job descriptors (R324 to R326) -/

/-- A UPD descriptor (R324). -/
structure UpdDesc where
  rule : Nat
  gfmt : Nat
  wfmt : Nat
  tee : Bool
  layout : Nat
  layer : Nat
  n : Nat
  gidx : Nat
  grad : Nat
  state : Nat × Nat
  work : Nat × Nat
  paddr : Nat
  pstride : Nat
  consts : List Nat
  kr : Nat
  kc : Nat
  dir : Nat
  sl : Nat
  sr : Nat
  scrl : Nat
  scrr : Nat
  raw : List Byte
deriving DecidableEq, Repr

/-- Read a descriptor. -/
def updDesc (b : List Byte) : UpdDesc :=
  let kron := fld b 0 1 == 3
  let k (o n : Nat) : Nat := if kron then fld b o n else 0
  { rule := fld b 0 1, gfmt := fld b 1 1, wfmt := fld b 2 1, tee := bits (fld b 3 1) 0 1 == 1
    layout := bits (fld b 3 1) 1 3, layer := bits (fld b 4 2) 0 10, n := fld b 8 8, gidx := fld b 16 8
    grad := fld b 24 8, state := (fld b 32 8, fld b 40 8), work := (fld b 48 8, fld b 56 8)
    paddr := fld b 64 8, pstride := fld b 72 8
    consts := (List.range 8).map (fun i => fld b (96 + 4 * i) 4)
    kr := k 128 2, kc := k 130 2, dir := k 136 8, sl := k 144 8, sr := k 152 8, scrl := k 160 8
    scrr := k 168 8, raw := b }

/-- The sizes of the planes of a layout (R333). -/
def planeSizes (layout n kr kc : Nat) : List Nat :=
  [4 * n, n, n, n / 32] ++ (if layout = 0 then [n, n / 32] else [])
    ++ (if layout = 3 then [4 * kr * kr, 4 * kc * kc, 4 * kr * kr, 4 * kc * kc] else [])

/-- Where planes lie from an offset up, each at a multiple of 512 B, and where the last one ends. -/
def planeOffsets : List Nat → Nat → List Nat
  | [], _ => []
  | z :: zs, o => o :: planeOffsets zs ((o + z + 511) / 512 * 512)

/-- Offsets and sizes of the planes of a shard (R333). -/
def shardPlanes (layout n kr kc : Nat) : List (Nat × Nat) :=
  let z := planeSizes layout n kr kc
  (planeOffsets z 512).zip z

/-- Bytes of a shard. -/
def shardBytes (layout n kr kc : Nat) : Nat :=
  ((shardPlanes layout n kr kc).map (fun e => e.1 + e.2)).foldl max 512

/-- Bytes of a working copy (R333). -/
def workSize (wfmt n : Nat) : Nat := if wfmt = 0 then 2 * n else if wfmt = 2 then n + n / 32 else 0

/-- Whether every frame of a range is mapped in the context (R326). -/
def State.mapped (s : State) (c va n : Nat) : Bool :=
  (framesOf va n).all (fun vf => (s.mapping c vf).isSome)

/-- An address field is refused: misaligned, or its range is not mapped. -/
def State.badArea (s : State) (c va n : Nat) : Bool := decide (va % 512 ≠ 0) || !s.mapped c va n

/-- An FP32 constant breaks a limit: finite, above or from `lo`, below 1. -/
def constBad (v : Nat) (low strict below : Bool) : Bool :=
  let x := ofF32 v
  let one : Fv := .num false 1 0
  let zero : Fv := .num false 0 0
  !x.isFin || (low && x.lt zero) || (strict && !zero.lt x) || (below && !x.lt one)

/-- Constant `i` of a rule is refused (R325): an unused one must be +0. -/
def constRefused (rule i v : Nat) : Bool :=
  match rule, i with
  | 0, 0 => constBad v true false false
  | 0, 1 => constBad v true false false
  | 0, 2 => constBad v true false true
  | 0, 3 => constBad v true false true
  | 0, 4 => constBad v false true false
  | 1, 0 => constBad v false false false
  | 1, 1 => constBad v false false false
  | 1, 2 => constBad v true false true
  | 2, 0 => constBad v false false false
  | 2, 1 => constBad v false false false
  | 2, 2 => constBad v true false true
  | 2, 3 => constBad v true false true
  | 3, 0 => constBad v false false false
  | 3, 1 => constBad v false false false
  | 3, 2 => constBad v false false false
  | 3, 3 => constBad v true false true
  | 3, 4 => constBad v false true false
  | _, _ => v != 0

/-- The layout of the shard (R324): a CARRY copies the layout it names. -/
def UpdDesc.lay (d : UpdDesc) : Nat := if d.rule = 4 then d.layout else d.rule

/-- Every check of a descriptor with the offset of its field, ascending (R326); `kr`, `kc` give the
dimensions of the factors. -/
def State.updChecks (s : State) (c : Nat) (d : UpdDesc) (kr kc : Nat) : List (Nat × Bool) :=
  let b := d.raw
  let kron := d.rule == 3
  let zero (o n : Nat) : Bool := fld b o n != 0
  let shard := shardBytes d.lay d.n kr kc
  let wsz := workSize d.wfmt d.n
  let gsz := if 3 ≤ d.rule then 0 else (if d.gfmt = 0 then 2 else 4) * d.n
  [(0, decide (4 < d.rule)), (1, d.gfmt != 0 && d.gfmt != 8), (2, d.wfmt != 0 && d.wfmt != 2 && d.wfmt != 255),
   (3, bits (fld b 3 1) 4 4 != 0 || (if d.rule = 4 then decide (3 < d.layout) else d.layout != d.rule)),
   (4, bits (fld b 4 2) 10 6 != 0), (6, zero 6 2),
   (8, decide (d.n % 32 ≠ 0 ∨ d.n < 32 ∨ 2 ^ 40 < d.n)), (16, decide (2 ^ 48 ≤ d.gidx)),
   (24, s.badArea c d.grad gsz), (32, s.badArea c d.state.1 shard), (40, s.badArea c d.state.2 shard),
   (48, s.badArea c d.work.1 wsz), (56, s.badArea c d.work.2 wsz), (64, decide (d.paddr % 512 ≠ 0)),
   (80, zero 80 16)]
  ++ (List.range 8).map (fun i => (96 + 4 * i, constRefused d.rule i (d.consts.getD i 0)))
  ++ (if kron then
      [(128, decide (d.kr < 1 ∨ 2048 < d.kr)), (130, decide (d.kc < 1 ∨ 2048 < d.kc ∨ d.n ≠ d.kr * d.kc)),
       (132, zero 132 4), (136, s.badArea c d.dir (4 * d.n)), (144, s.badArea c d.sl (4 * d.kr * d.kr)),
       (152, s.badArea c d.sr (4 * d.kc * d.kc)), (160, s.badArea c d.scrl (512 + 24 * d.kr * d.kr)),
       (168, s.badArea c d.scrr (512 + 24 * d.kc * d.kc)), (176, zero 176 16)]
     else [])

/-- The byte offset of the first offending field. -/
def firstBad (l : List (Nat × Bool)) : Option Nat := (l.find? (·.2)).map (·.1)

/-! ### Shard headers and state (R333, R353) -/

/-- A shard header (R333). -/
structure ShardHead where
  stamp : Nat
  rule : Nat
  layer : Nat
  n : Nat
  gidx : Nat
  kr : Nat
  kc : Nat
  rootstep : Nat
  stale : Nat
deriving DecidableEq, Repr

/-- Read a shard header. -/
def State.shardHead (s : State) (c va : Nat) : ShardHead :=
  let b := s.vread c va 36
  { stamp := fld b 0 4, rule := fld b 4 1, layer := bits (fld b 6 2) 0 10, n := fld b 8 8, gidx := fld b 16 8
    kr := fld b 24 2, kc := fld b 26 2, rootstep := fld b 28 4, stale := fld b 32 4 }

/-- The 512 bytes of a shard header; reserved bytes are 0. -/
def ShardHead.bytes (h : ShardHead) : List Byte :=
  toBytes 4 h.stamp ++ toBytes 2 h.rule ++ toBytes 2 h.layer ++ toBytes 8 h.n ++ toBytes 8 h.gidx
    ++ toBytes 2 h.kr ++ toBytes 2 h.kc ++ toBytes 4 h.rootstep ++ toBytes 4 h.stale
    ++ List.replicate 476 0

/-- The member of a generation pair of a parity (R327). -/
def gen (p : Nat × Nat) (n : Nat) : Nat := if n % 2 = 0 then p.1 else p.2

/-- The planes of a shard. -/
def State.readPlanes (s : State) (c va : Nat) (ps : List (Nat × Nat)) : List (List Byte) :=
  ps.map (fun e => s.vread c (va + e.1) e.2)

/-- The FP32 codes of a plane. -/
def words32 (b : List Byte) : List Nat := (List.range (b.length / 4)).map (fun i => fld b (4 * i) 4)

/-- XM40 codes from the two master planes (R330). -/
def masters (fp ext : List Byte) : List Nat := (words32 fp).zip ext |>.map (fun e => e.1 * 256 + e.2.toNat)

/-- A state value that refuses the job (R353): NaN, or a scale code 0xFF. -/
def planesBad (layout : Nat) (ps : List (List Byte)) : Bool :=
  let p (i : Nat) : List Byte := ps.getD i []
  (masters (p 0) (p 1)).any (fun v => (xm40.decode v).isNan) || (p 3).contains 0xFF
    || (layout == 0 && (p 5).contains 0xFF)
    || (layout == 3 && (ps.drop 4).any (fun q => (words32 q).any (fun v => (ofF32 v).isNan)))

/-! ### Rules (R335) -/

/-- The constants of a job (R335). -/
structure UpdK where
  rule : Nat
  c : List Fv
  bc1 : Fv
  bc2 : Fv
  gs : Int
  seed : W64
  t : Nat
  gidx : Nat
  draw : Nat
deriving DecidableEq, Repr

/-- pow(b, t) (R335). -/
def powF (b : Fv) (t : Nat) : Fv :=
  (List.range 32).foldl (fun r k =>
    let r := fmul r r
    if t / 2 ^ (31 - k) % 2 = 1 then fmul r b else r) fone

/-- Constant `i` of a job. -/
def UpdK.k (u : UpdK) (i : Nat) : Fv := u.c.getD i (.num false 0 0)

/-- w − lr × fma(wd, w32, x), exact but for its product (R334, R335). -/
def UpdK.master (u : UpdK) (w x : Fv) : Fv :=
  w.add (fmul (u.k 0) (ffma (u.k 1) w.r32 x)).negate

/-- sign(c): ±1, or +0 for a zero (R335). -/
def signF (x : Fv) : Fv :=
  match x with
  | .nan => .nan
  | .inf s => .num s 1 0
  | .num s m _ => if m = 0 then .num false 0 0 else .num s 1 0

/-- One element by its rule: the new master before its rounding, m and v (R335). -/
def UpdK.elem (u : UpdK) (g w m v : Fv) : Fv × Fv × Fv :=
  let one_ (b : Fv) : Fv := fsub fone b
  match u.rule with
  | 0 =>
    let m := ffma (u.k 2) m (fmul (one_ (u.k 2)) g)
    let v := ffma (u.k 3) v (fmul (one_ (u.k 3)) (fmul g g))
    (u.master w (fdiv (fdiv m u.bc1) (fadd (usqrt (fdiv v u.bc2)) (u.k 4))), m, v)
  | 1 =>
    let m := ffma (u.k 2) m g
    (u.master w m, m, v)
  | 2 =>
    let x := ffma (u.k 2) m (fmul (one_ (u.k 2)) g)
    (u.master w (signF x), ffma (u.k 3) m (fmul (one_ (u.k 3)) g), v)
  | _ =>
    let m := ffma (u.k 2) m (fmul (one_ (u.k 2)) g)
    (u.master w m, m, v)

/-- The random bits of element `i` of a job. -/
def UpdK.bits (u : UpdK) (i purpose : Nat) : Nat := stochBits u.seed u.t (u.gidx + i) purpose

/-- A block of 32 working-copy elements in MXFP8 E4M3 (R336): scale, elements, saturations. -/
def workBlock (u : UpdK) (i0 : Nat) (ws : List Nat) : Nat × List Nat × Nat :=
  let xs := ws.map xm40.decode
  let sc := blockScale 9 xs
  let el := ((List.range xs.length).zip xs).map (fun e =>
    match e.2 with
    | .num s m ex =>
      if sc = 0 then (0, false) else (fmtOf 2).stoch s m (ex + 127 - sc) (u.bits (i0 + e.1) 0)
    | _ => (0, false))
  (sc, el.map (·.1), el.countP (·.2))

/-- The working copy of a block of masters from element `i0` on (R336): its elements, its scale, its saturations. -/
def workPart (u : UpdK) (wfmt i0 : Nat) (ws : List Nat) : List Byte × List Byte × Nat :=
  if wfmt = 0 then
    let el := ((List.range ws.length).zip ws).map (fun e =>
      match xm40.decode e.2 with
      | .num s m ex => (fmtOf 0).stoch s m ex (u.bits (i0 + e.1) 0)
      | _ => (0, false))
    (el.flatMap (fun e => toBytes 2 e.1), [], el.countP (·.2))
  else if wfmt = 2 then
    let b := workBlock u i0 ws
    (b.2.1.flatMap (toBytes 1), toBytes 1 b.1, b.2.2)
  else ([], [], 0)

/-- Where the elements and the scale of a block of a working copy of `n` elements lie. -/
def workAt (wfmt n b : Nat) : Nat × Nat := (32 * (if wfmt = 0 then 2 else 1) * b, n + b)

/-- Write a block of a working copy. -/
def State.storeWork (s : State) (c va wfmt n b : Nat) (el sc : List Byte) : State :=
  let s := if el.isEmpty then s else s.store c (va + (workAt wfmt n b).1) el
  if sc.isEmpty then s else s.store c (va + (workAt wfmt n b).2) sc

/-- What a job writes: its planes, its working copy, how many elements saturated, and whether every gradient
element was ±0 (R355). -/
structure UpdOut where
  planes : List (List Byte)
  work : List Byte
  sat : Nat
  zero : Bool
deriving DecidableEq, Repr

/-- One block of 32 elements: master codes, the M1Q8 and the M2Q8 block, saturations (R331, R332, R336,
R337). -/
def UpdK.block (u : UpdK) (i0 : Nat) (gs ws ms vs : List Fv) :
    List Nat × (Nat × List Nat) × (Nat × List Nat) × Nat :=
  let el := (((gs.zip ws).zip (ms.zip vs))).map (fun e => u.elem e.1.1 e.1.2 e.2.1 e.2.2)
  let idx := (List.range el.length).zip el
  let w := idx.map (fun e => xm40.clamped e.2.1 (freeNat u.draw (16 * (i0 + e.1)) 5))
  let mc := blockScale 1 (el.map (·.2.1))
  let m := idx.map (fun e => m1q8 mc e.2.2.1 (u.bits (i0 + e.1) 1) (freeNat u.draw (16 * (i0 + e.1) + 8) 1))
  let vc := blockScale 0 (el.map (·.2.2))
  let v := idx.map (fun e => m2q8 vc e.2.2.2 (u.bits (i0 + e.1) 2) (freeNat u.draw (16 * (i0 + e.1) + 9) 1))
  (w.map (·.1), (mc, m.map (·.1)), (vc, v.map (·.1)),
    w.countP (·.2) + m.countP (·.2) + (if u.rule = 0 then v.countP (·.2) else 0))

/-- Element `k` of a factor after its statistic (R335): fma(bk, l, cbk × (sl × 2^(−2 gs))), clamped; and whether it
saturated. -/
def UpdK.factorElem (u : UpdK) (draw k : Nat) (l st : Nat) : Nat × Bool :=
  let bk := u.k 3
  f32.clamped (ffma bk (ofF32 l) (fmul (fsub fone bk) (unscale (ofF32 st) (-2 * u.gs)))) (freeNat draw (4 * k) 4)

/-- The gradient values of a job (R335), before and after unscaling. -/
def gradVals (gfmt : Nat) (b : List Byte) : List Fv :=
  if gfmt = 0 then (List.range (b.length / 2)).map (fun i => (fmtOf 0).decode (fld b (2 * i) 2))
  else (words32 b).map ofF32

/-- What a job writes for one block of 32 elements: its part of each plane, of the working copy and of its scales, how
many elements saturated, and whether every gradient element was ±0. -/
structure BlockOut where
  planes : List (List Byte)
  work : List Byte
  scale : List Byte
  sat : Nat
  zero : Bool
deriving DecidableEq, Repr

/-- Block `b` of a job by its rule (R335 to R340), from its parts of the planes and its raw gradient values. -/
def UpdK.blockOut (u : UpdK) (wfmt b : Nat) (ps : List (List Byte)) (grad : List Fv) : BlockOut :=
  let p (i : Nat) : List Byte := ps.getD i []
  let ws := (masters (p 0) (p 1)).map xm40.decode
  let ms := (p 2).map (fun q => mxElem 7 (fld (p 3) 0 1) q.toNat)
  let vs := if u.rule = 0 then (p 4).map (fun q => m2q8Val (fld (p 5) 0 1) q.toNat)
    else List.replicate 32 (.num false 0 0)
  let o := u.block (32 * b) (grad.map (fun x => unscale x (-u.gs))) ws ms vs
  let wk := workPart u wfmt (32 * b) o.1
  let byte (x : List Nat) : List Byte := x.flatMap (toBytes 1)
  { planes :=
      [o.1.flatMap (fun v => toBytes 4 (v / 256)), o.1.flatMap (fun v => toBytes 1 v), byte o.2.1.2, byte [o.2.1.1]]
      ++ (if u.rule = 0 then [byte o.2.2.1.2, byte [o.2.2.1.1]] else [])
    work := wk.1
    scale := wk.2.1
    sat := o.2.2.2 + wk.2.2
    zero := grad.all Fv.isZero }

/-! ### Issue (R322) -/

/-- UPD (R141, R322): the job joins the queue of its group's engine; with 64 jobs held the strand stalls. -/
def execUpd (a : Site) (p : Pred) (mop : Mop) (gate : BitVec 13) (target : BitVec 16) (done : BitVec 13)
    (s : State) : Host.Outcome State Fault Refusal :=
  let i := Instr.upd a p mop gate target done
  let g := groupOf a.core.val
  loaded i (s.onTile a p i (fun t => [(Mop.bad t mop, 0x06)]) (fun s =>
    let t := s.strand a
    let x := s.group g
    if 64 ≤ x.jobs.length then s
    else
      let j : UpdJob :=
        { id := s.nextOp, site := a, idx := t.pc.toNat, desc := Mop.addr t mop, gate := gate.toNat
          target := target.toNat, done := done.toNat, phase := .waiting, params := 0, late := false }
      let s := s.setGroup g { x with jobs := x.jobs ++ [j] }
      ({ s with nextOp := s.nextOp + 1 }).advance a))

/-! ### The partner (R356, R357) -/

/-- The nodes that a job's tee goes to (R356, R485, R490): the holders of the set its shard belongs to, and
its new holder once the layer is enabled. -/
def State.teeNodes (s : State) (paddr layer : Nat) : List Nat :=
  let mine := s.flt.map.sets.filter (fun x => x.owner == s.node && !x.lost)
  match mine[Config.setOf paddr % mine.length]? with
  | none => []
  | some x => (x.holders ++ (if layer < x.nextLayer then x.newHolder.toList else [])).eraseDups

/-- How many of those nodes a job's tee refills (R490). -/
def State.refillNodes (s : State) (paddr layer : Nat) : Nat :=
  let mine := s.flt.map.sets.filter (fun x => x.owner == s.node && !x.lost)
  match mine[Config.setOf paddr % mine.length]? with
  | none => 0
  | some x => if layer < x.nextLayer && x.newHolder.any (fun n => !x.holders.contains n) then 1 else 0

/-- Send a range of a shard to the tee's nodes in packets of up to 4,096 B. -/
def State.teeRange (s : State) (c g job : Nat) (nodes : List Nat) (at_ : Nat) (bs : List Byte) : State :=
  if bs.isEmpty then s
  else nodes.foldl (fun t n =>
    (t.send c n ((packets 4096 bs).map (fun q =>
      dataFrame 0x01 n (at_ + q.1) (bs.length + 3 * 2 ^ 32) q.2.2 q.2.1)) (.tee g job)).bump
      Reg.UE_TEE_BYTES_COUNT g 0 bs.length) s

/-! ### The start of a job (R326, R329, R346 to R353) -/

/-- Replace the jobs of an engine by identity. -/
def State.setJob (s : State) (g : Nat) (j : UpdJob) : State :=
  let x := s.group g
  s.setGroup g { x with jobs := x.jobs.map (fun k => if k.id = j.id then j else k) }

/-- A job leaves its engine. -/
def State.dropJob (s : State) (g id : Nat) : State :=
  let x := s.group g
  s.setGroup g { x with jobs := x.jobs.filter (fun k => k.id != id) }

/-- UE_JOB_ERROR (R326, R360): nothing is written, DONE is incremented, a program error follows. `kind`: 0
UPD, 1 PRECON. -/
def State.jobError (s : State) (g kind layer off done : Nat) : State :=
  let detail := g + kind * 2 ^ 4 + layer * 2 ^ 8 + off * 2 ^ 18
  (((s.put Reg.UE_STATUS_JOB_ERROR 1).event 0x0606 detail).soAdd done 1).programError detail 0xFF

/-- UE_STEPSKEW (R353, R354): `load` is 1 for a load. -/
def State.stepSkew (s : State) (g load layer stamp : Nat) : State :=
  ((s.put Reg.UE_STATUS_STEPSKEW 1).event 0x0601
    (g + load * 2 ^ 4 + layer * 2 ^ 5 + stamp % 2 ^ 17 * 2 ^ 15)).contribute 5

/-- A scratch header (R345): ADOPT_STEP and STATUS. -/
def State.scratch (s : State) (c va : Nat) : Nat × Nat :=
  (s.vfield c (va + 4) 4, s.vfield c (va + 8) 1)

/-- A root is adopted by an update of this step (R348): its scratch header names UE_STEP. -/
def State.adopts (s : State) (c va : Nat) : Bool :=
  let h := s.scratch c va
  h.1 == s.ueStep && (h.2 == 2 || h.2 == 3)

/-- A root that this step adopts is still being computed (R348). -/
def State.rootRuns (s : State) (c va : Nat) : Bool :=
  s.scratch c va == (s.ueStep, 1) &&
    (List.range 12).any (fun g => (s.group g).roots.any (fun r => r.scratch == va && r.st == .running))

/-- The gradient of a layer was read (R355). -/
def State.watchLayer (s : State) (layer : Nat) (zero : Bool) : State :=
  let old := Tab.get 0 s.step.watch layer
  { s with step := { s.step with watch := Tab.set 0 s.step.watch layer (max old (if zero then 1 else 2)) } }

/-- UE_SATURATE once per engine per step (R337, R360). -/
def State.saturates (s : State) (g layer n : Nat) : State :=
  if n = 0 then s
  else
    let s := (s.bump Reg.UE_SATURATE_CNT_COUNT g 0 n).put Reg.UE_STATUS_SATURATE 1
    if (s.group g).satSent then s
    else (s.setGroup g { s.group g with satSent := true }).event 0x0608 (g + layer * 2 ^ 4)

/-- The constants of a job at generator input t. -/
def State.updK (s : State) (d : UpdDesc) (t : Nat) : UpdK :=
  let c := d.consts.map ofF32
  let bc (i : Nat) : Fv := fsub fone (powF (c.getD i (.num false 0 0)) t)
  { rule := d.rule, c := c, bc1 := bc 2, bc2 := bc 3, gs := (BitVec.ofNat 8 (s.get Reg.UE_GSCALE_EXP)).toInt
    seed := s.step.seed, t := t, gidx := d.gidx, draw := s.freeCounter }

/-- The ranges a job reads beside its shard. -/
def UpdDesc.inputs (d : UpdDesc) : List (Nat × Nat) :=
  if d.rule = 4 then []
  else if d.rule = 3 then [(d.dir, 4 * d.n), (d.sl, 4 * d.kr * d.kr), (d.sr, 4 * d.kc * d.kc)]
  else [(d.grad, (if d.gfmt = 0 then 2 else 4) * d.n)]

/-- The element planes of a layout; factor planes follow them (R333). -/
def elemPlanes (layout : Nat) : Nat := if layout = 0 then 6 else 4

/-- The raw gradient values of block `b` (R324, R335). -/
def State.blockGrad (s : State) (c : Nat) (d : UpdDesc) (b : Nat) : List Fv :=
  if d.rule = 3 then (words32 (s.vread c (d.dir + 128 * b) 128)).map ofF32
  else
    let z := 32 * (if d.gfmt = 0 then 2 else 4)
    gradVals d.gfmt (s.vread c (d.grad + z * b) z)

/-- A job streams block `b` (R341): it reads every input plane, then writes every output plane. CARRY copies. -/
def State.streamBlock (s : State) (c : Nat) (d : UpdDesc) (u : UpdK) (pl : List (Nat × Nat)) (b : Nat) :
    State × BlockOut :=
  let part (e : Nat × Nat) : Nat := 32 * e.2 / d.n
  let ps := pl.map (fun e => s.vread c (gen d.state s.ueStep + e.1 + part e * b) (part e))
  let w := workAt d.wfmt d.n b
  let o : BlockOut :=
    if d.rule = 4 then
      let wva := gen d.work s.ueStep
      { planes := ps, work := s.vread c (wva + w.1) (workAt d.wfmt d.n 1).1 |>.take (if d.wfmt = 255 then 0 else 64)
        scale := if d.wfmt = 2 then s.vread c (wva + w.2) 1 else [], sat := 0, zero := false }
    else u.blockOut d.wfmt b ps (s.blockGrad c d b)
  let into := gen d.state (s.ueStep + 1)
  let s := (pl.zip o.planes).foldl (fun t e => t.store c (into + e.1.1 + part e.1 * b) e.2) s
  (s.storeWork c (gen d.work (s.ueStep + 1)) d.wfmt d.n b o.work o.scale, o)

/-- Where element `k` of factor plane `i` of a job comes from, and what becomes of it: the statistic of a factor, the
root that this step adopts (R348), or the plane's own value. -/
def State.factorWord (s : State) (c : Nat) (d : UpdDesc) (u : UpdK) (adopt : Bool × Bool) (i k old : Nat) : Nat × Bool :=
  if d.rule ≠ 3 then (old, false)
  else if i = 4 then u.factorElem (u.draw + 1) k old (s.vfield c (d.sl + 4 * k) 4)
  else if i = 5 then u.factorElem (u.draw + 2) k old (s.vfield c (d.sr + 4 * k) 4)
  else if i = 6 then (if adopt.1 then s.vfield c (d.scrl + 512 + 4 * k) 4 else old, false)
  else (if adopt.2 then s.vfield c (d.scrr + 512 + 4 * k) 4 else old, false)

/-- A job streams a factor plane in ascending element index (R341): its bytes and its saturations. -/
def State.streamFactor (s : State) (c : Nat) (d : UpdDesc) (u : UpdK) (adopt : Bool × Bool) (i : Nat) (e : Nat × Nat) :
    State × List Byte × Nat :=
  let src := gen d.state s.ueStep + e.1
  let dst := gen d.state (s.ueStep + 1) + e.1
  (List.range (e.2 / 4)).foldl (fun acc k =>
    let w := acc.1.factorWord c d u adopt i k (acc.1.vfield c (src + 4 * k) 4)
    let bs := toBytes 4 w.1
    (acc.1.store c (dst + 4 * k) bs, acc.2.1 ++ bs, acc.2.2 + w.2.toNat)) (s, [], 0)

/-- A job streams its shard (R341): block by block in ascending element index, then the factor planes. -/
def State.streamShard (s : State) (c : Nat) (d : UpdDesc) (pl : List (Nat × Nat)) : State × UpdOut :=
  let u := s.updK d (s.ueStep + 1)
  let adopt := (d.rule == 3 && s.adopts c d.scrl, d.rule == 3 && s.adopts c d.scrr)
  let z := elemPlanes d.lay
  let a := (List.range (d.n / 32)).foldl (fun (acc : State × List BlockOut) b =>
    let r := acc.1.streamBlock c d u (pl.take z) b
    (r.1, acc.2 ++ [r.2])) (s, [])
  let f := ((List.range (pl.length - z)).zip (pl.drop z)).foldl (fun (acc : State × List (List Byte) × Nat) e =>
    let r := acc.1.streamFactor c d u adopt (4 + e.1) e.2
    (r.1, acc.2.1 ++ [r.2.1], acc.2.2 + r.2.2)) (a.1, [], 0)
  (f.1,
    { planes := (List.range z).map (fun i => a.2.flatMap (fun o => o.planes.getD i [])) ++ f.2.1
      work := a.2.flatMap (·.work) ++ a.2.flatMap (·.scale)
      sat := (a.2.map (·.sat)).sum + f.2.2
      zero := a.2.all (·.zero) })

/-- The header of the generation that a job writes (R333, R347, R348). -/
def State.nextHead (s : State) (c : Nat) (d : UpdDesc) (h : ShardHead) : ShardHead :=
  let l := d.rule == 3 && s.adopts c d.scrl
  let r := d.rule == 3 && s.adopts c d.scrr
  let st (on : Bool) (va : Nat) : Nat := if on && (s.scratch c va).2 == 3 then 1 else 0
  { h with
    stamp := (s.ueStep + 1) % 2 ^ 32
    rootstep := if l || r then s.ueStep else h.rootstep
    stale := (h.stale + st l d.scrl + st r d.scrr) % 2 ^ 32 }

/-- A job streams its shard into the next generation, its header last, and tees it (R327, R329, R341, R356). -/
def State.streamJob (s : State) (g c : Nat) (j : UpdJob) (d : UpdDesc) (h : ShardHead) : State :=
  let pl := shardPlanes d.lay d.n h.kr h.kc
  let from_ := gen d.state s.ueStep
  let into := gen d.state (s.ueStep + 1)
  let s := ((from_, shardBytes d.lay d.n h.kr h.kc) :: d.inputs).foldl (fun t r =>
    (t.refetchAll c r.1 r.2).touch c r.1 r.2) s
  let h' := (s.nextHead c d h).bytes
  let r := s.streamShard c d pl
  let out := r.2
  let paddr := d.paddr + (if (s.ueStep + 1) % 2 = 0 then 0 else d.pstride)
  let state := (pl.map (·.2)).sum
  let read := state + (if d.rule = 4 then out.work.length else (d.inputs.map (·.2)).sum)
  let s := { r.1 with freeCounter := r.1.freeCounter + 3 }
  let s := s.store c into h'
  let s := if d.tee then
      let nodes := s.teeNodes d.paddr d.layer
      let s := (pl.zip out.planes).foldl (fun t e => t.teeRange c g j.id nodes (paddr + e.1.1) e.2) s
      let s := s.bump Reg.FLT_REFILL_BYTES_COUNT 0 0 (s.refillNodes d.paddr d.layer * (state + h'.length))
      s.teeRange c g j.id nodes paddr h'
    else s
  let lines (va : Nat) : Nat := wideRequests (pl.map (fun e => (va + e.1, e.2)))
  let s := s.portTraffic g 2 false read (lines from_ + wideRequests d.inputs
    + (if d.rule = 4 then wideRequests [(gen d.work s.ueStep, out.work.length)] else 0))
  let s := s.portTraffic g 2 true (state + out.work.length)
    (lines into + wideRequests [(gen d.work (s.ueStep + 1), out.work.length)])
  let s := (s.bump Reg.UE_BYTES_COUNT g 0 (read + state + out.work.length)).saturates g d.layer out.sat
  let s := if d.rule = 4 then s else s.watchLayer d.layer out.zero
  let lb := Tab.get 0 s.flt.layerBytes d.layer + state + 512
  let s := { s with flt := { s.flt with layerBytes := Tab.set 0 s.flt.layerBytes d.layer lb } }
  s.setJob g { j with phase := .running, params := d.n }

/-- The header differs from UE_STEP or the descriptor (R353). -/
def headBad (ue : Nat) (d : UpdDesc) (h : ShardHead) : Bool :=
  h.stamp != ue || h.rule != d.lay || h.n != d.n || h.gidx != d.gidx || h.layer != d.layer
    || (if d.rule = 4 then false else h.kr != d.kr || h.kc != d.kc)

/-- A job starts (R326, R348, R353). -/
def State.startJob (s : State) (g c : Nat) (j : UpdJob) : State :=
  let d := updDesc (s.vread c j.desc 192)
  let from_ := gen d.state s.ueStep
  let h := s.shardHead c from_
  let kr := if d.rule = 3 then d.kr else h.kr
  let kc := if d.rule = 3 then d.kc else h.kc
  match firstBad (s.updChecks c d kr kc) with
  | some off => (s.dropJob g j.id).jobError g 0 d.layer off j.done
  | none =>
    let ps := s.readPlanes c from_ (shardPlanes d.lay d.n kr kc)
    if headBad s.ueStep d h || planesBad d.lay ps then
      ((s.dropJob g j.id).stepSkew g 0 d.layer h.stamp).soAdd j.done 1
    else if d.rule = 3 && (s.rootRuns c d.scrl || s.rootRuns c d.scrr) then
      let s := s.setJob g { j with phase := .waitRoot, late := true }
      if j.late then s
      else (s.put Reg.UE_STATUS_LATE 1).event 0x0605 (g + s.ueStep % 2 ^ 24 * 2 ^ 8)
    else s.streamJob g c j d h

/-- A job's gate is open (R351). -/
def State.gateOpen (s : State) (j : UpdJob) : Bool :=
  j.target == 0 || decide (j.target ≤ (s.obj j.gate).count.toNat)

/-- A job starts when it is the first waiting one with an open gate and fewer than four run (R322, R351); a
gate in FENCED_RELEASE ends its job (R352). -/
def execUpdJobStart (g : Fin 12) (job : Nat) (hw : HwReport) (s : State) :
    Host.Outcome State Fault Refusal :=
  let n := g.val
  .next (match s.running with
    | none => s
    | some c =>
      let x := s.group n
      let ended := x.jobs.filter (fun j => j.phase == .waiting && j.target != 0 &&
        (s.obj j.gate).status == .fencedRelease)
      if ended.any (fun j => j.id == job) then s.dropJob n job
      else if 4 ≤ (x.jobs.filter (fun j => j.phase != .waiting)).length then s
      else
        match x.jobs.find? (fun j => j.phase == .waiting && s.gateOpen j &&
            !ended.any (fun k => k.id == j.id)) with
        | none => s
        | some j =>
          if j.id = job then hw.ecc.foldl (fun t e => t.eccError (8 * n) e 0xFF) (s.startJob n c j) else s)

/-- A job is complete when its tee is acknowledged (R329): DONE is incremented. -/
def execUpdJobComplete (g : Fin 12) (job : Nat) (s : State) : Host.Outcome State Fault Refusal :=
  let n := g.val
  .next (match (s.group n).jobs.find? (fun j => j.id == job) with
    | none => s
    | some j =>
      if j.phase = .running ∧ !s.outstanding (.tee n job) then
        (((s.dropJob n job).soAdd j.done 1).bump Reg.UE_JOBS_COUNT n).bump Reg.UE_PARAMS_COUNT n 0 j.params
      else s)

/-- The working copy in force is derived again from the master in force (R474, R477): t is UE_STEP, which
gives the bits that the update wrote. -/
def State.deriveWork (s : State) (c desc : Nat) : State :=
  let d := updDesc (s.vread c desc 192)
  let va := gen d.state s.ueStep
  let pl := (shardPlanes d.lay d.n 0 0).take 2
  let u := s.updK d s.ueStep
  (List.range (d.n / 32)).foldl (fun (t : State) b =>
    let part (e : Nat × Nat) : List Byte := t.vread c (va + e.1 + 32 * e.2 / d.n * b) (32 * e.2 / d.n)
    let w := workPart u d.wfmt (32 * b) (masters (((pl[0]?).map part).getD []) (((pl[1]?).map part).getD []))
    t.storeWork c (gen d.work s.ueStep) d.wfmt d.n b w.1 w.2.1) s

end Sys2Proof.Machine
end

