-- ==== Sys2Proof/Machine/Services.lean ====
section
/-!
DEFINITION. Machine/Services.lean: the Larkspur services (R141, R142, R375 to R378, R460, R493 to R496,
R499, R517): INGEST, CKPT_FLASH, CKPT_STORE, POST_EVENT and the NVMe/TCP operations they wait for.
-/

namespace Sys2Proof.Machine

/-! ### The network layer (R460, R463) -/

/-- A frame of the network layer to an address. -/
def netFrame (ty : Nat) (dst : BitVec 128) (bs : List Byte) : Frame :=
  controlFrame ty 0 0 (dst.toNat % 2 ^ 64) (dst.toNat / 2 ^ 64) bs

/-- Learn a neighbour's MAC. -/
def State.learn (s : State) (src : BitVec 128) (mac : BitVec 48) : State :=
  { s with neighbours := (src, mac) :: s.neighbours.filter (fun e => e.1 != src) }

/-- The IPv6 address of the device. -/
def State.ipAddr (s : State) : Nat := s.get Reg.FAB_IP_LO + s.get Reg.FAB_IP_HI_HI * 2 ^ 64

/-- The IPv4-mapped form of an IPv4 address. -/
def mapped4 (a : Nat) : Nat := 0xFFFF * 2 ^ 32 + a

/-- Whether an address is IPv4-mapped. -/
def isMapped4 (a : BitVec 128) : Bool := a.toNat / 2 ^ 32 == 0xFFFF

/-- Where a packet for an address goes: on the link of the device's prefix, or an IPv4 target, to itself; elsewhere to the
router that advertised itself (R463, log 71). -/
def State.nextHop (s : State) (dst : BitVec 128) : Option (BitVec 128) :=
  let k := 128 - min 128 (s.get Reg.FAB_IP_CFG_PREFIX)
  if isMapped4 dst || dst.toNat / 2 ^ k == s.ipAddr / 2 ^ k then some dst else s.router

/-- Ask for a neighbour's MAC: a neighbour solicitation, or an ARP request. -/
def State.solicit (s : State) (port : Nat) (hop : BitVec 128) : State :=
  s.emitOn port (netFrame (if isMapped4 hop then 0x103 else 0x102) hop [])

/-! ### NVMe/TCP (R460) -/

/-- PDU types and command codes as the NVM Express specifications number them (log 71). -/
def pduIcReq : Nat := 0x00
/-- H2CTermReq. -/
def pduTermReq : Nat := 0x02
/-- CapsuleCmd. -/
def pduCmd : Nat := 0x04
/-- H2CData. -/
def pduH2cData : Nat := 0x06
/-- Write. -/
def cmdWrite : Nat := 0x01
/-- Read. -/
def cmdRead : Nat := 0x02
/-- Identify. -/
def cmdIdentify : Nat := 0x06
/-- Fabrics Connect: the Fabrics code and its type. -/
def cmdConnect : Nat := 0x7F + 0x01 * 2 ^ 8
/-- Fabrics Property Get. -/
def cmdProperty : Nat := 0x7F + 0x04 * 2 ^ 8

/-- Replace an operation by identity. -/
def State.setNvme (s : State) (o : NvmeOp) : State :=
  { s with nvme := s.nvme.map (fun q => if q.id = o.id then o else q) }

/-- An operation ends. -/
def State.dropNvme (s : State) (id : Nat) : State :=
  { s with nvme := s.nvme.filter (fun q => q.id != id) }

/-- An NVMe/TCP connection. -/
def State.tcpConn (s : State) (k : Nat) : Option TcpConn := Tab.get none s.tcp k
/-- Replace it. -/
def State.setTcp (s : State) (k : Nat) (c : Option TcpConn) : State := { s with tcp := Tab.set none s.tcp k c }

/-- Send a PDU of at most 4,096 B on a connection (R460). -/
def State.sendPdu (s : State) (k : Nat) (c : TcpConn) (pdu cmd cid : Nat) (nsid : BitVec 32) (at_ bytes : Nat)
    (payload : List Byte) : State :=
  let h : NvmeHdr :=
    { dst := c.addr, hop := (s.nextHop c.addr).getD c.addr, tcp := c.tcp, conn := k, pdu := pdu, cmd := cmd, cid := cid
      nsid := nsid, at_ := at_, bytes := bytes }
  s.emitOn c.port { controlFrame 0x100 0 0 0 0 payload with nvme := some h }

/-- The command of an operation, on its connection: a read, or a write whose data follow when the target is ready. -/
def State.sendCmd (s : State) (k : Nat) (c : TcpConn) (o : NvmeOp) : State :=
  s.sendPdu k c pduCmd (if o.payload.isEmpty then cmdRead else cmdWrite) o.id o.target.nsid o.lba o.bytes []

/-- The connection of a target on a port. -/
def State.tcpTo (s : State) (x : NvmeTarget) (port : Nat) : Option (Nat × TcpConn) :=
  (s.tcp.find? (fun e => e.2.any (fun c => c.addr == x.addr && c.tcp == x.tcp && c.port == port))).bind (fun e =>
    e.2.map (fun c => (e.1, c)))

/-- The number for a new connection: the lowest that none has, else one that serves no operation (log 33). -/
def State.tcpFree (s : State) : Option Nat :=
  match findFrom (fun k => (s.tcpConn k).isNone) 64 0 with
  | some k => some k
  | none => findFrom (fun k => !s.nvme.any (fun o => (s.tcpTo o.target o.port).any (fun e => e.1 == k))) 64 0

/-- An operation advances as far as it can by itself (R460): the next hop is found, a connection is opened on its port,
and the command goes out once that is ready and fewer than 128 of its commands are outstanding. -/
def State.nvmeDrive (s : State) (o : NvmeOp) : State :=
  if o.conn.isSome || !s.flag Reg.FAB_IP_CFG_EN then s
  else
    match s.nextHop o.target.addr with
    | none => s
    | some hop =>
      if !s.neighbours.any (fun e => e.1 == hop) then s.solicit o.port hop
      else
        match s.tcpTo o.target o.port with
        | some (k, c) =>
          let ready := match c.phase with
            | .ready => true
            | _ => false
          if ready && decide (s.nvme.countP (fun q => q.conn == some k) < 128) then
            (s.setNvme { o with conn := some k }).sendCmd k c o
          else s
        | none =>
          match s.tcpFree with
          | none => s
          | some k =>
            let c : TcpConn := { addr := o.target.addr, tcp := o.target.tcp, port := o.port, phase := .icReq }
            (s.setTcp k (some c)).sendPdu k c pduIcReq 0 0 0 0 0 []

/-- Every operation advances as far as it can. -/
def State.nvmeDriveAll (s : State) : State :=
  s.nvme.foldl (fun (t : State) o =>
    match t.nvme.find? (fun q => q.id == o.id) with
    | some q => t.nvmeDrive q
    | none => t) s

/-- Begin an operation on the first port of the spray set. -/
def State.nvmeBegin (s : State) (use : NvmeUse) (target : NvmeTarget) (lba bytes : Nat) (payload : List Byte) : State :=
  let o : NvmeOp :=
    { id := s.nextOp, use := use, target := target, conn := none, lba := lba % 2 ^ 64, bytes := bytes, got := []
      payload := payload, tries := 0, port := s.spray.headD 0 }
  ({ s with nvme := s.nvme ++ [o], nextOp := s.nextOp + 1 }).nvmeDrive o

/-- The port after `p` in the spray set, wrapping (R377). -/
def State.otherPort (s : State) (p : Nat) : Nat :=
  (portAfter s.spray p).getD p

/-- FAB_NVME_ERROR (R460) on a connection. -/
def State.nvmeError (s : State) (k : Nat) (status : W16) : State :=
  (s.put Reg.FAB_STATUS_NVME 1).event 0x0809 (status.toNat + k % 64 * 2 ^ 16)

/-- A target as an argument block names it (R375, R496). -/
def targetAt (b : List Byte) (o : Nat) : NvmeTarget :=
  { addr := BitVec.ofNat 128 (fld b o 16), tcp := BitVec.ofNat 16 (fld b (o + 16) 2)
    nsid := BitVec.ofNat 32 (fld b (o + 18) 4) }

/-- A service refuses an argument block for its contents: SVC_ARG (R112). -/
def State.svcArg (s : State) (a : Site) (idx : Nat) : State := s.strandErrorAt a 0x0E idx

/-- An argument block that a service cannot reach (R112, R396). -/
def State.blockBad (s : State) (c va n : Nat) : Bool :=
  decide (2 ^ 48 < va + n) || isView va || !s.accessOk c va n false

/-! ### INGEST (R375 to R378) -/

/-- An INGEST argument block (R375). -/
structure IngestArg where
  index : Nat
  nidx : Nat
  dest : Nat
  recb : Nat
  gbatch : Nat
  g0 : Nat
  ng : Nat
  lbas : Nat
  target : NvmeTarget
  slba : Nat
  zero : Bool
deriving DecidableEq, Repr

/-- Read it. -/
def ingestArg (b : List Byte) : IngestArg :=
  { index := fld b 0 8, nidx := fld b 8 8, dest := fld b 16 8, recb := fld b 24 4, gbatch := fld b 28 4
    g0 := fld b 32 4, ng := fld b 36 4, lbas := fld b 40 1, target := targetAt b 48, slba := fld b 72 8
    zero := fld b 41 7 == 0 && fld b 70 2 == 0 && fld b 80 48 == 0 }

/-- Block size of LBAS. -/
def blockSize (lbas : Nat) : Nat := if lbas = 0 then 512 else 4096

/-- The address of the index entry that slot `g` reads (R376). -/
def IngestArg.entry (x : IngestArg) (dstep g : Nat) : Nat :=
  x.index + 8 * ((dstep * x.gbatch + g) % 2 ^ 64 % x.nidx)

/-- A reserved field, a field out of range, or an area outside the mapped frames (R378). -/
def State.ingestBad (s : State) (c : Nat) (x : IngestArg) : Bool :=
  !x.zero || x.nidx == 0 || x.ng == 0 || decide (1 < x.lbas) || decide (x.dest % 512 ≠ 0)
    || decide (x.recb % blockSize x.lbas ≠ 0 ∨ x.recb < 512 ∨ 2 ^ 26 < x.recb)
    || !s.accessOk c x.dest (x.ng * x.recb) true

/-- INGEST_FAIL (R377, R378). -/
def State.ingestFail (s : State) (detail : Nat) : State :=
  (s.put Reg.UE_STEP_STATUS_INGEST 1).event 0x0B31 detail

/-- INGEST (R376): one read per slot. -/
def execIngest (a : Site) (p : Pred) (mop : Mop) (done : BitVec 13) (s : State) :
    Host.Outcome State Fault Refusal :=
  let c := s.running.getD 0
  loaded (.ingest a p mop done) (s.issue a p (fun s =>
    let t := s.strand a
    let va := Mop.addr t mop
    s.guarded a [(Mop.bad t mop || s.blockBad c va 128, 0x06)] (fun s =>
      let x := ingestArg (s.vread c va 128)
      let idx := t.pc.toNat
      let s := s.advance a
      if s.ingestBad c x then (s.ingestFail (2 ^ 31)).svcArg a idx
      else
        let dstep := s.get Reg.UE_DSTEP_DSTEP
        let job : IngestJob := { id := s.nextOp, site := a, idx := idx, left := x.ng, done := done.toNat }
        let s := { s with ingests := s.ingests ++ [job], nextOp := s.nextOp + 1 }
        (List.range x.ng).foldl (fun s k =>
          let i := s.vfield c (x.entry dstep (x.g0 + k)) 8
          s.nvmeBegin (.ingest job.id (x.g0 + k) (x.dest + k * x.recb)) x.target
            (x.slba + i * (x.recb / blockSize x.lbas)) x.recb []) s)))

/-- A record of an INGEST is written: DONE when it was the last (R376). -/
def State.ingestRecord (s : State) (job : Nat) : State :=
  match s.ingests.find? (fun j => j.id == job) with
  | none => s
  | some j =>
    if j.left ≤ 1 then
      ({ s with ingests := s.ingests.filter (fun k => k.id != job) }).soAdd j.done 1
    else
      { s with ingests := s.ingests.map (fun k => if k.id = job then { k with left := k.left - 1 } else k) }

/-- A read of an INGEST has failed for good (R377): CHECKFAIL, and DONE is incremented once. -/
def State.ingestGone (s : State) (job slot : Nat) : State :=
  let s := (s.ingestFail (slot % 2 ^ 31)).contribute 1
  match s.ingests.find? (fun j => j.id == job) with
  | none => s
  | some j => ({ s with ingests := s.ingests.filter (fun k => k.id != job) }).soAdd j.done 1

/-! ### Checkpoints (R493 to R496) -/

/-- Bytes of ranges. -/
def areaBytes (l : List (Nat × Nat)) : Nat := (l.map (·.2)).sum

/-- The generations of a context that the service keeps beside a new one of STAMP `n` (R495): for own sets and
for held copies, the newest so far, and the newest of at least 64 steps before the new one. -/
def keptGens (gens : List FlashGen) (c : W64) (n : Nat) (withNew : Bool) : List FlashGen :=
  let mine := gens.filter (fun g => g.key == c)
  let best (p : FlashGen → Bool) : Option Nat := ((mine.filter p).map (fun g => g.stamp.toNat)).max?
  let keep (sel : FlashGen → Bool) : FlashGen → Bool := fun g =>
    sel g && ((!withNew && best sel == some g.stamp.toNat)
      || best (fun q => sel q && decide (q.stamp.toNat + 64 ≤ n)) == some g.stamp.toNat)
  gens.filter (fun g => g.key != c || keep (·.own) g || keep (·.heldCopies) g)

/-- The frames of suspended contexts in flash (R421). -/
def State.flashFrames (s : State) : Nat :=
  ((List.range 16).map (fun c =>
    ((s.ctx c).maps.filter (fun e => e.2.any (fun m => m.tier == .flash))).length)).sum

/-- Whether flash has room for a new generation in what R495 frees. -/
def State.flashRoom (s : State) (c n : Nat) (areas : List (Nat × Nat)) : Bool :=
  decide (((keptGens s.gens (s.ctx c).flashKey n false).map (fun g => areaBytes g.areas)).sum + s.flashFrames * frameBytes
    + areaBytes areas ≤ flashBytes)

/-- The hub whose flash takes no write: 0 hub 2, 1 hub 3 (R427). -/
def State.flashReadOnly (s : State) : Option Nat :=
  ([0, 1] : List Nat).find? (fun h => s.flag Reg.MT_FTL_WEAR_READONLY h)

/-- The ranges of the generation in force (R327). -/
def State.inForce (s : State) (l : List GenArea) : List (Nat × Nat) := l.map (fun x => (x.at_ s.ueStep, x.bytes))

/-- CKPT_FLASH (R493, R495): `shards` are the shards and areas that WHAT selects, copied in the generation in force. Which
hub CKPT_NOSPACE names when the device's flash as a whole lacks room is free (log 33). -/
def execCkptFlash (a : Site) (p : Pred) (mop : Mop) (done : BitVec 13) (shards : List GenArea) (s : State) :
    Host.Outcome State Fault Refusal :=
  let c := s.running.getD 0
  let areas := s.inForce shards
  loaded (.ckptFlash a p mop done shards) (s.issue a p (fun s =>
    let t := s.strand a
    let va := Mop.addr t mop
    s.guarded a [(Mop.bad t mop || s.blockBad c va 64, 0x06)] (fun s =>
      let b := s.vread c va 64
      let s := s.advance a
      if bits (fld b 0 1) 2 6 != 0 || fld b 1 7 != 0 || fld b 16 48 != 0 then s.svcArg a t.pc.toNat
      else
        match s.flashReadOnly, s.flashRoom c s.ueStep areas with
        | some h, _ => s.event 0x0B61 h
        | none, false => (s.event 0x0B61 ((Config.freeByte s.draw 0).toNat % 2)).drawn
        | none, true =>
          let j : CkptJob :=
            { site := a, done := done.toNat, what := fld b 0 1, tag := BitVec.ofNat 64 (fld b 8 8)
              stamp := BitVec.ofNat 32 s.ueStep, areas := areas, target := targetAt [] 0, lba := 0, block := 0, left := 0
              started := true }
          { s with ckptFlash := s.ckptFlash ++ [j] })))

/-- Silelaot writes a context's sealed flash key to the NOR slot of its number (R508, R517). -/
def State.sealBlob (s : State) (c : Nat) : State :=
  let x := s.ctx c
  match x.image, Tab.get none x.slots 0 with
  | some img, some k =>
    let blob := (BitVec.ofNat 384 (ofBytes (imgDigestField img)), k, x.flashKey)
    { s with svc := { s.svc with blobs := Tab.set none s.svc.blobs c (some blob) } }
  | _, _ => s

/-- The bytes of ranges, by virtual address. -/
def State.rangeCells (s : State) (c : Nat) (areas : List (Nat × Nat)) : Tab Byte :=
  areas.foldl (fun t r => Tab.setRange 0 t r.1 (s.vread c r.1 r.2)) []

/-- The oldest flash checkpoint is durable (R426, R493, R495): its directory record is written last, DONE is
incremented. While the supply guard is active no program starts (R499). -/
def execCkptFlashDone (s : State) : Host.Outcome State Fault Refusal :=
  .next (match s.ckptFlash, s.running with
    | j :: rest, some c =>
      if s.flt.guard then s
      else
        let g : FlashGen :=
          { ctx := c, stamp := j.stamp, tag := j.tag, own := j.what % 2 == 1, heldCopies := j.what / 2 % 2 == 1
            areas := j.areas, key := (s.ctx c).flashKey, cells := s.rangeCells c j.areas }
        let n := areaBytes j.areas
        let kept := (keptGens s.gens (s.ctx c).flashKey j.stamp.toNat true).filter (fun q =>
          !(q.key == g.key && q.stamp == j.stamp && q.own == g.own && q.heldCopies == g.heldCopies))
        let s := { s with ckptFlash := rest, gens := g :: kept }
        let s := (s.bump Reg.MT_FTL_WRITTEN_COUNT 0 0 ((n + 1) / 2)).bump Reg.MT_FTL_WRITTEN_COUNT 1 0 (n / 2)
        (s.sealBlob c).soAdd j.done 1
    | _, _ => s)

/-- Begin the writes of a shared-store checkpoint (R496): each range encrypted, after one block kept for the
header. -/
def State.storeBegin (s : State) (j : CkptJob) : State :=
  (j.areas.foldl (fun (acc : State × Nat) r =>
    let s := acc.1
    (s.drawn.nvmeBegin .ckptStore j.target acc.2 r.2 ((List.range r.2).map (Config.cryptoByte s.draw)),
      acc.2 + (r.2 + j.block - 1) / j.block)) (s, j.lba + 1)).1

/-- CKPT_FAIL (R496). -/
def State.ckptFail (s : State) (status : Nat) (small : Bool) : State :=
  s.event 0x0B62 (status % 2 ^ 16 + (if small then 2 ^ 16 else 0))

/-- CKPT_STORE (R496): `shards` are those of the own sets, copied in the generation in force. -/
def execCkptStore (a : Site) (p : Pred) (mop : Mop) (done : BitVec 13) (shards : List GenArea) (s : State) :
    Host.Outcome State Fault Refusal :=
  let c := s.running.getD 0
  let areas := s.inForce shards
  loaded (.ckptStore a p mop done shards) (s.issue a p (fun s =>
    let t := s.strand a
    let va := Mop.addr t mop
    s.guarded a [(Mop.bad t mop || s.blockBad c va 128, 0x06)] (fun s =>
      let b := s.vread c va 128
      let lbas := fld b 22 1
      let slot := fld b 23 1
      let s := s.advance a
      if decide (1 < lbas ∨ 7 < slot) || fld b 40 88 != 0 || (Tab.get none (s.ctx c).slots slot).isNone then
        s.svcArg a t.pc.toNat
      else
        let bs := blockSize lbas
        let need := 1 + (areas.map (fun r => (r.2 + bs - 1) / bs)).sum
        if fld b 32 8 < need then s.ckptFail 0 true
        else
          let j : CkptJob :=
            { site := a, done := done.toNat, what := 1, tag := 0, stamp := BitVec.ofNat 32 s.ueStep, areas := areas
              target := targetAt b 0, lba := fld b 24 8, block := bs, left := areas.length, started := !s.flt.guard }
          let s := { s with ckptStore := s.ckptStore ++ [j] }
          if j.started then s.storeBegin j else s)))

/-- The guard has ended: shared-store checkpoints that it held begin (R499). -/
def State.resumeStores (s : State) : State :=
  let held := s.ckptStore.filter (fun j => !j.started)
  let s := { s with ckptStore := s.ckptStore.map (fun j => { j with started := true }) }
  held.foldl State.storeBegin s

/-- The outcome of the last shared-store checkpoint, as SUMMARY keeps it (R542). -/
def State.setStoreGen (s : State) (stamp : W32) (result : Nat) : State :=
  let g : W32 × W32 × W64 := (stamp, BitVec.ofNat 32 result, s.bt.count)
  { s with svc := { s.svc with storeGen := some g } }

/-- The oldest shared-store checkpoint ends (R496): with every range written its header block goes last; or it
has failed. -/
def execCkptStoreDone (fail : Option W16) (s : State) : Host.Outcome State Fault Refusal :=
  .next (match s.ckptStore with
    | [] => s
    | j :: rest =>
      match fail with
      | some st =>
        let s := { s with ckptStore := rest, nvme := s.nvme.filter (fun o => o.use != NvmeUse.ckptStore) }
        (s.ckptFail st.toNat false).setStoreGen j.stamp st.toNat
      | none =>
        if s.flt.guard ∨ 0 < j.left then s
        else
          let head := (List.range j.block).map (Config.cryptoByte s.draw)
          let s := ({ s with ckptStore := rest }).drawn
          let s := match s.tcpTo j.target (s.spray.headD 0) with
            | some (k, x) => (s.sendPdu k x pduCmd cmdWrite s.nextOp j.target.nsid j.lba j.block []).sendPdu k x
                pduH2cData 0 s.nextOp j.target.nsid 0 j.block head
            | none => s
          (s.setStoreGen j.stamp 0).soAdd j.done 1)

/-! ### PDUs (R460, R377) -/

/-- An operation has failed: it is tried again on another port, up to three times (R377). -/
def State.nvmeRetry (s : State) (o : NvmeOp) : State :=
  if o.tries < 3 then
    let o' := { o with tries := o.tries + 1, port := s.otherPort o.port, conn := none, got := [] }
    let s := match o.use with
      | .ingest _ slot _ => s.event 0x0B30 (o'.port + slot % 2 ^ 26 * 2 ^ 5)
      | _ => s
    (s.setNvme o').nvmeDrive o'
  else
    let s := s.dropNvme o.id
    match o.use with
    | .ingest job slot _ => s.ingestGone job slot
    | _ => s

/-- A connection ends, and the operations on its target and port are tried again (R377). -/
def State.tcpEnd (s : State) (k : Nat) : State :=
  match s.tcpConn k with
  | none => s
  | some c =>
    let mine := s.nvme.filter (fun o => o.conn == some k ||
      (o.conn.isNone && o.target.addr == c.addr && o.target.tcp == c.tcp && o.port == c.port))
    mine.foldl State.nvmeRetry (s.setTcp k none)

/-- Data of a read arrives (R376, R377): a record of an INGEST is written when all of it has come. -/
def State.nvmeData (s : State) (o : NvmeOp) (bs : List Byte) : State :=
  let got := o.got ++ bs.take (o.bytes - o.got.length)
  if got.length < o.bytes then s.setNvme { o with got := got }
  else
    let s := s.dropNvme o.id
    match o.use, s.running with
    | .ingest job _ dest, some c =>
      ((s.store c dest got).bump Reg.UE_INGEST_BYTES_COUNT 0 0 got.length).ingestRecord job
    | _, _ => s

/-- A write is done. -/
def State.nvmeWritten (s : State) (o : NvmeOp) : State :=
  let s := s.dropNvme o.id
  match o.use, s.ckptStore with
  | .ckptStore, j :: rest => { s with ckptStore := { j with left := j.left - 1 } :: rest }
  | _, _ => s

/-- The data of a write that the target is ready for (R2T), in PDUs of at most 4,096 B. -/
def State.sendData (s : State) (k : Nat) (c : TcpConn) (o : NvmeOp) (offset length : Nat) : State :=
  (packets 4096 ((o.payload.drop offset).take length)).foldl (fun (t : State) q =>
    t.sendPdu k c pduH2cData 0 o.id o.target.nsid (offset + q.1) q.2.1.length q.2.1) s

/-- A connection goes one step further in its set-up (R460); once it is ready the operations for it go out. -/
def State.tcpStep (s : State) (k : Nat) (c : TcpConn) : State :=
  let go (phase : TcpPhase) (cmd : Nat) : State :=
    (s.setTcp k (some { c with phase := phase })).sendPdu k c pduCmd cmd 0 0 0 0 []
  match c.phase with
  | .icReq => go .connect cmdConnect
  | .connect => go .property cmdProperty
  | .property => go .identify cmdIdentify
  | .identify => (s.setTcp k (some { c with phase := .ready })).nvmeDriveAll
  | .ready => s

/-- The bytes of a received PDU on the wire. -/
def nvmePduBytes : NvmePdu → Nat
  | .data _ bs => 114 + bs.length
  | _ => 114

/-- An operation whose command is outstanding on a connection. -/
def State.nvmeOp (s : State) (k id : Nat) : Option NvmeOp := s.nvme.find? (fun o => o.id == id && o.conn == some k)

/-- NVME_PDU_RECEIVE (R460): the PDU advances the set-up of its connection, or the operation it belongs to. An error
status raises FAB_NVME_ERROR; a digest that is wrong is answered with H2CTermReq and ends the connection, as C2HTermReq
does. -/
def execNvmePduReceive (x : TcpPlace) (pdu : NvmePdu) (s : State) : Host.Outcome State Fault Refusal :=
  let k := x.conn.toNat
  let s := s.rxRaw x.port.val (nvmePduBytes pdu)
  .next (match s.tcpConn k with
    | none => s
    | some c =>
      let ready := match c.phase with
        | .ready => true
        | _ => false
      match pdu with
      | .icResp => match c.phase with
        | .icReq => s.tcpStep k c
        | _ => s
      | .resp none st =>
        if st ≠ 0 then (s.nvmeError k st).tcpEnd k
        else match c.phase with
          | .icReq => s
          | _ => s.tcpStep k c
      | .resp (some id) st =>
        (match s.nvmeOp k id with
        | none => s
        | some o =>
          if st ≠ 0 then (s.nvmeError k st).nvmeRetry o
          else if o.payload.isEmpty then s
          else (s.nvmeWritten o).nvmeDriveAll)
      | .data id bs =>
        (match s.nvmeOp k id with
        | none => s
        | some o => if ready && o.payload.isEmpty then (s.nvmeData o bs).nvmeDriveAll else s)
      | .r2t id offset length =>
        (match s.nvmeOp k id with
        | none => s
        | some o => s.sendData k c o offset length)
      | .termReq => s.tcpEnd k
      | .badDigest => (s.sendPdu k c pduTermReq 0 0 0 0 0 []).tcpEnd k)

/-! ### POST_EVENT (R142) -/

/-- POST_EVENT (R142): the block is judged before the limit of 64 events per core and step. Any CODE but 0x04 names a
service that the device does not provide, cause SVC (R112, R141). -/
def execPostEvent (a : Site) (p : Pred) (mop : Mop) (svc : SvcCall) (s : State) :
    Host.Outcome State Fault Refusal :=
  let c := s.running.getD 0
  let done := svc.done
  loaded (.postEvent a p mop svc) (s.issue a p (fun s =>
    let t := s.strand a
    let va := Mop.addr t mop
    let n := a.core.val
    s.guarded a [(Mop.bad t mop, 0x06), (svc.code != 4, 0x08)] (fun s =>
      let s := s.advance a
      let b := s.vread c va 16
      let code := fld b 0 2
      let idx := t.pc.toNat
      if s.blockBad c va 16 then (s.soAdd done.toNat 1).strandErrorAt a 0x06 idx
      else if fld b 2 2 != 0 || fld b 8 8 != 0 || decide (code < 0x0BC0 ∨ 0x0BFF < code) then
        (s.soAdd done.toNat 1).svcArg a idx
      else if 64 ≤ (s.core n).posted then (s.bump Reg.SVC_EVT_LOST_COUNT).soAdd done.toNat 1
      else
        let s := s.setCore n { s.core n with posted := (s.core n).posted + 1 }
        (s.event code (fld b 4 4) n).soAdd done.toNat 1)))

end Sys2Proof.Machine
end

