-- ==== Sys2Proof/Machine/Collective.lean ====
section
/-!
DEFINITION. Machine/Collective.lean: collectives and circulation (R204 to R206, R291 to R295, R364 to R371,
R380 to R382, R450 to R454, R570, R571): COLL, the items of its steps, the gather pool, the end of a step.
-/

namespace Sys2Proof.Machine

/-! ### Plans as this device sees them -/

/-- A plan of the running context's image. -/
def State.plan (s : State) (n : Nat) : Option PlanRec := (imgPlans s.img)[n]?

/-- The members of a plan by position, after the fences of the job (R454). -/
def State.planNodes (s : State) (r : PlanRec) : List Nat := r.members s.flt.map

/-- The positions that this device holds (R571). -/
def State.myPositions (s : State) (r : PlanRec) : List Nat :=
  (List.range r.table.1).filter (fun p => (s.planNodes r).getD p 0 == s.node)

/-- VERDICT of a plan (R450). -/
def PlanRec.verdict (r : PlanRec) : Bool := r.kind == 2 && bits r.flags 0 1 == 1
/-- REGIONS of an ANCHORED plan. -/
def PlanRec.regions (r : PlanRec) : Nat := fld r.body 4 4
/-- KLOG_plan of an ANCHORED plan. -/
def PlanRec.klog (r : PlanRec) : Nat := fld r.body 8 1
/-- S of a TREE plan. -/
def PlanRec.shards (r : PlanRec) : Nat := fld r.body 4 4
/-- ELEMS of a TREE plan. -/
def PlanRec.elems (r : PlanRec) : Nat := fld r.body 8 8
/-- ENTRY of a GATHER plan. -/
def PlanRec.entry (r : PlanRec) : Nat := bits (fld r.body 0 2) 0 12
/-- KEEP of a GATHER plan. -/
def PlanRec.keep (r : PlanRec) : Bool := bits (fld r.body 2 1) 0 1 == 1
/-- BYTES of a GATHER plan. -/
def PlanRec.shardBytes (r : PlanRec) : Nat := fld r.body 4 4

/-- A CIRC plan (R291). -/
structure Circ where
  n : Nat
  zigzag : Bool
  causal : Bool
  sums : Bool
  fwd : Bool
  slot : Nat
  layer : Nat
  head0 : Nat
  nhead : Nat
  sblk : Nat
  arrive : Nat
  freed : Nat
  land : Nat
  landN : Nat
  tsbase : Nat
  tsN : Nat
  cores : Nat
deriving DecidableEq, Repr

/-- Read it. -/
def PlanRec.circ (r : PlanRec) : Circ :=
  let b := r.body
  let f := fld b 2 1
  { n := fld b 0 2, zigzag := bits f 0 1 == 1, causal := bits f 1 1 == 1, sums := bits f 2 1 == 1
    fwd := bits f 3 1 == 1, slot := fld b 3 1, layer := fld b 4 2, head0 := fld b 6 1, nhead := fld b 7 1
    sblk := fld b 8 4, arrive := bits (fld b 12 2) 0 13, freed := bits (fld b 14 2) 0 13, land := fld b 16 8
    landN := fld b 24 2, tsbase := fld b 26 2, tsN := fld b 28 1, cores := fld b 30 12 }

/-- Slices of a circulation (R292). -/
def Circ.slices (x : Circ) : Nat := if x.zigzag then 2 * x.n else x.n
/-- The position that holds a slice. -/
def Circ.holder (x : Circ) (sl : Nat) : Nat := if sl < x.n then sl else 2 * x.n - 1 - sl
/-- Whether a position receives slice `sl` (R293). -/
def Circ.receives (x : Circ) (sl p : Nat) : Bool :=
  p != x.holder sl && (!x.causal || decide (sl ≤ if x.zigzag then 2 * x.n - 1 - p else p))
/-- Items of a slice. -/
def Circ.items (x : Circ) : Nat := x.sblk * x.nhead

/-- Steps of a plan (R451). -/
def PlanRec.steps (r : PlanRec) : Nat := if r.kind = 2 then 2 else if r.kind = 4 then r.circ.slices else 1

/-- The position that holds shard `i` of a TREE plan (R452). -/
def State.smap (s : State) (c : Nat) (r : PlanRec) (i : Nat) : Nat := s.vfield c (fld r.body 16 8 + 2 * i) 2

/-! ### Multicast (R453, R570) -/

/-- The other positions from `p` on, wrapping. -/
def wrapFrom (n p : Nat) : List Nat := (List.range (n - 1)).map (fun k => (p + 1 + k) % n)

/-- The positions of a multicast in list order, its sender first: the result of a tree in ascending order;
an item of an owner starting after it and wrapping (log 34 for GATHER and CIRC). -/
def State.mcastList (s : State) (c : Nat) (r : PlanRec) (step item : Nat) : List Nat :=
  let n := r.table.1
  let asc (p : Nat) : List Nat := p :: (List.range n).filter (· != p)
  if r.kind = 1 then asc (s.smap c r 0)
  else if r.kind = 2 then (if step = 0 then asc 0 else let p := item % n; p :: wrapFrom n p)
  else if r.kind = 3 then item :: wrapFrom n item
  else
    let x := r.circ
    let p := x.holder step
    p :: (wrapFrom n p).filter (x.receives step)

/-- The nodes that this device sends an item on to: the children of its own positions (R453). -/
def State.children (s : State) (c : Nat) (r : PlanRec) (step item : Nat) : List Nat :=
  let l := s.mcastList c r step item
  let nodes := s.planNodes r
  let f := max 1 (s.get Reg.FAB_CFG_FANOUT)
  ((List.range l.length).flatMap (fun j =>
      if nodes.getD (l.getD j 0) 0 == s.node then
        (List.range f).filterMap (fun k => (l[f * j + 1 + k]?).map (fun p => nodes.getD p 0))
      else [])).filter (· != s.node) |>.eraseDups

/-- The collective of a plan and step. -/
def State.coll (s : State) (plan step : Nat) : Option CollOp :=
  s.colls.find? (fun o => o.plan == plan && o.step == step)

/-- Replace a collective by identity. -/
def State.setColl (s : State) (o : CollOp) : State :=
  { s with colls := s.colls.map (fun q => if q.id = o.id then o else q) }

/-- A frame of an item (R438), with its mark. -/
def collFrame (plan step node item offset : Nat) (mark : CollMark) (bs : List Byte) : Frame :=
  { dataFrame 0x03 node (plan + step % 2 ^ 13 * 2 ^ 16 + item % 2 ^ 32 * 2 ^ 32) offset true bs with
    mark := some mark }

/-- Send part of an item to some nodes; bytes that this device forwards are counted (R463). -/
def State.sendItem (s : State) (c plan step item offset : Nat) (mark : CollMark) (own : Bool) (bs : List Byte)
    (to_ : List Nat) : State :=
  to_.foldl (fun t n =>
    (t.send c n [collFrame plan step n item offset mark bs] (.coll plan step)).bump Reg.FAB_MCAST_FWD_COUNT 0 0
      (if own then 0 else bs.length)) s

/-- Send part of an item on to the children (R453), once to each; `own` is false when it is forwarded. -/
def State.sendOnward (s : State) (c : Nat) (r : PlanRec) (o : CollOp) (item offset stamp : Nat) (bs : List Byte)
    (own : Bool) : State × CollOp :=
  let to_ := (s.children c r o.step item).filter (fun n => !o.sent.contains (item, offset, n))
  let mark : CollMark := { pos := (s.myPositions r).headD 0, result := true, stamp := stamp }
  (s.sendItem c o.plan o.step item offset mark own bs to_,
    { o with sent := to_.map (fun n => (item, offset, n)) ++ o.sent })

/-! ### The gather pool (R364 to R371) -/

/-- The frames of the pool that a window of `n` bytes takes. -/
def poolFrames (n : Nat) : Nat := (n + frameBytes - 1) / frameBytes

/-- Word `w` of a pool entry (R366). -/
def State.poolWord (s : State) (c : Nat) (p : PoolRec) (e w : Nat) : Nat := s.vfield c (p.etab + 32 * e + 8 * w) 8

/-- Write the first two words of a pool entry. -/
def State.setPool (s : State) (c : Nat) (p : PoolRec) (e st : Nat) (keep vvalid : Bool) (version age : Nat) : State :=
  s.store c (p.etab + 32 * e)
    (toBytes 8 (st + (if keep then 8 else 0) + (if vvalid then 16 else 0) + version % 2 ^ 32 * 2 ^ 32)
      ++ toBytes 8 (age % 2 ^ 48))

/-- The first virtual frame of an entry's window. -/
def PoolRec.window (p : PoolRec) (e : Nat) : Nat := (p.vbase + e * p.esize) / frameBytes

/-- The physical frames reserved to a context's pool that no window maps and no outstanding read holds (R369). -/
def State.poolFree (s : State) (c : Nat) : List Nat :=
  let used := (s.ctx c).maps.filterMap (fun e => e.2.map (·.frame)) ++ s.strands.flatMap (fun e =>
    (e.2.held.map (fun h => h.pool.map (·.2))).getD [])
  (s.frames.filter (fun e => e.2 == .pool c)).filterMap (fun e => if used.contains e.1 then none else some e.1)

/-- Reserve the pool's frames when an image is installed: the lowest free HBM frames (R364, log 14). -/
def State.reservePool (s : State) (c : Nat) (img : List Byte) : State :=
  match imgPool img with
  | none => s
  | some p =>
    (List.range p.frames).foldl (fun t _ =>
      match findFrom (fun f => t.frame f == .free) hbmFrames 0 with
      | some f => t.setFrame f (.pool c)
      | none => t) s

/-- Return the frames reserved to a context's pool. -/
def State.dropPool (s : State) (c : Nat) : State :=
  { s with frames := s.frames.filter (fun e => e.2 != .pool c) }

/-- Change the mappings of a context. -/
def State.setMaps (s : State) (c : Nat) (f : Tab (Option Mapping) → Tab (Option Mapping)) : State :=
  let x := s.ctx c
  s.setCtx c { x with maps := f x.maps }

/-- Map `fs` from virtual frame `vf` up: frames of a window. -/
def State.mapWindow (s : State) (c vf : Nat) (fs : List Nat) : State :=
  s.setMaps c (fun m => ((List.range fs.length).zip fs).foldl (fun m e =>
    Tab.set none m (vf + e.1) (some
      { frame := e.2, home := .hbm, tier := .hbm, pin := true, coded := false, ro := false, age := s.beat
        moving := none })) m)

/-- Unmap an entry's window. -/
def State.unmapWindow (s : State) (c : Nat) (p : PoolRec) (e : Nat) : State :=
  s.setMaps c (fun m => (List.range (p.esize / frameBytes)).foldl (fun m k => Tab.set none m (p.window e + k) none) m)

/-- Evict a READY entry: it becomes EMPTY and keeps VERSION and VVALID (R369). -/
def State.evict (s : State) (c : Nat) (p : PoolRec) (e : Nat) : State :=
  let w := s.poolWord c p e 0
  ((s.setPool c p e 0 (bits w 3 1 == 1) (bits w 4 1 == 1) (bits w 32 32) (s.poolWord c p e 1)).unmapWindow c p e).bump
    Reg.UE_GP_EVICT_COUNT

/-- The entry to evict next (R369): READY and not used for two beats; without KEEP first, then lower AGE, then
lower index. -/
def State.victim (s : State) (c : Nat) (p : PoolRec) : Option Nat :=
  let l := (List.range p.nent).filter (fun e =>
    s.poolState p e == 2 && decide (bits (s.poolWord c p e 1) 0 48 + 2 ≤ s.beat))
  let key (e : Nat) : Nat × Nat := (bits (s.poolWord c p e 0) 3 1, bits (s.poolWord c p e 1) 0 48)
  l.foldl (fun b e =>
    match b with
    | none => some e
    | some x => if (key e).1 < (key x).1 ∨ ((key e).1 = (key x).1 ∧ (key e).2 < (key x).2) then some e else some x) none

/-- Evict until `n` frames are free, at most `fuel` entries. -/
def State.makeRoom (c : Nat) (p : PoolRec) (n : Nat) : Nat → State → State
  | 0, s => s
  | fuel + 1, s =>
    if n ≤ (s.poolFree c).length then s
    else
      match s.victim c p with
      | none => s
      | some e => State.makeRoom c p n fuel (s.evict c p e)

/-- A gathered shard is checked against the entry's version (R371). -/
def State.checkVersion (s : State) (c : Nat) (p : PoolRec) (e stamp node : Nat) : State :=
  let w := s.poolWord c p e 0
  if bits w 4 1 = 0 then
    s.setPool c p e (bits w 0 3) (bits w 3 1 == 1) true stamp (s.poolWord c p e 1)
  else if bits w 32 32 = stamp then s
  else
    (((s.contribute 4).bump Reg.UE_VERSKEW_CNT_COUNT).put Reg.UE_STEP_STATUS_VERSKEW 1).event 0x060A
      (e + node * 2 ^ 12)

/-! ### Results that land -/

/-- The record words of phase 1 (R205): MAXP of word 0. -/
def recMaxp (w0 : Nat) : Int := sint10 (bits w0 16 10)

/-- The records of a phase-1 result as they go into one buffer (R205). -/
def phase1Record (klog : Nat) (red own : List Byte) : List Byte :=
  let w := fld red 0 4
  let m := recMaxp w
  let w0 := enc10 (max (m + klog - 62) (-512)) + bits w 10 2 * 2 ^ 10 + enc10 m * 2 ^ 16 + 2 ^ 31
  toBytes 4 w0 ++ (own.drop 4).take 8 ++ toBytes 4 0

/-- Phase 1 has reached this device (R205, R380, R382): every buffer's verdict element and records are
rewritten; the verdict plan gives the reduced verdict. -/
def State.landPhase1 (s : State) (c : Nat) (r : PlanRec) (o : CollOp) (bs : List Byte) : State :=
  let rg := r.regions
  let recs := (List.range rg).map (fun k => (bs.drop (16 + 16 * k)).take 16)
  let s := o.calls.foldl (fun t q =>
    let own := t.vread c (q.buf + 16) (16 * rg)
    let out := ((List.range rg).zip recs).flatMap (fun e =>
      phase1Record r.klog e.2 ((own.drop (16 * e.1)).take 16))
    t.store c q.buf (bs.take 2 ++ List.replicate 14 0 ++ out)) s
  if r.verdict then
    let high := recs.any (fun e => decide (64 < recMaxp (fld e 0 4) + r.klog - 62))
    let v := fld bs 0 2
    let v := if high && v % 2 == 0 then v + 1 else v
    { s with step := { s.step with reduced := some (BitVec.ofNat 16 v) } }
  else s

/-- A saturated region is marked in the record that phase 1 wrote, and NONFINITE contributed (R206). -/
def State.markSat (s : State) (c plan region : Nat) : State :=
  let s := match s.coll plan 0 with
    | none => s
    | some p1 => p1.calls.foldl (fun (t : State) (q : CollCall) =>
        let at_ := q.buf + 16 + 16 * region
        t.store c at_ (toBytes 4 (insBits (t.vfield c at_ 4) 11 1 1))) s
  s.contribute 0

/-- Where a circulation item lies: block and head (R293). -/
def Circ.at_ (x : Circ) (step item : Nat) : Nat × Nat :=
  (step * x.sblk + item / x.nhead, x.head0 + item % x.nhead)

/-- Bytes of a circulation item. -/
def Circ.size (x : Circ) (r : Roots) : Nat := if x.sums then 256 else r.frameSize

/-- A circulation item is delivered (R294): to the landing ring, with FWD its page image, without a scale area (R138,
R267), to the cores named, or to the summary array; ARRIVE is incremented. -/
def State.deliver (s : State) (c : Nat) (r : Roots) (x : Circ) (k step item : Nat) (bs : List Byte) : State :=
  let s := if x.sums then
      let b := x.at_ step item
      let d := s.streamDesc (r.stream x.slot x.layer b.2)
      s.store c (d.2.1 + 256 * b.1) bs
    else
      let s := s.store c (x.land + k % x.landN * r.frameSize) bs
      if x.fwd then
        let image := bs.take (256 * r.rowBytes)
        let unit := x.tsbase + k % x.tsN * (image.length / unitBytes)
        ((List.range 96).filter (fun n => x.cores / 2 ^ n % 2 == 1)).foldl (fun t n =>
          t.twrite n (unit * unitBytes) image) s
      else s
  (s.bump Reg.KVP_CIRC_COUNT).soAdd x.arrive 1

/-- The number of a step's first incoming item on this device, and how many come (R294). -/
def State.circFirst (s : State) (r : PlanRec) (step : Nat) : Nat × Nat :=
  let x := r.circ
  let nodes := s.planNodes r
  let mine := s.myPositions r
  let n (t : Nat) : Nat :=
    if nodes.getD (x.holder t) 0 != s.node && mine.any (x.receives t) then x.items else 0
  (((List.range step).map n).sum, n step)

/-- The whole bytes of a result item that has landed. -/
def CollOp.whole (o : CollOp) (item size : Nat) : Option (List Byte) :=
  let ps := o.parts.filter (fun p => p.result && p.item == item)
  if (ps.map (fun p => p.bytes.length)).sum < size then none
  else some ((ps.stableSort (fun a b => a.offset ≤ b.offset)).flatMap (·.bytes))

/-- Deliver circulation items in ascending order while FREED allows it (R294). -/
def State.circDrain (c plan : Nat) (r : PlanRec) (rt : Roots) : Nat → State → State
  | 0, s => s
  | fuel + 1, s =>
    let x := r.circ
    let k := Tab.get 0 s.circNext plan
    let place := (List.range x.slices).find? (fun t =>
      let f := s.circFirst r t
      decide (f.1 ≤ k ∧ k < f.1 + f.2))
    match place with
    | none => s
    | some step =>
      let item := k - (s.circFirst r step).1
      match (s.coll plan step).bind (fun o => o.whole item (x.size rt)) with
      | none => s
      | some bs =>
        if (s.obj x.freed).count.toNat + min x.landN x.tsN < k + 1 then s
        else
          let s := s.deliver c rt x k step item bs
          State.circDrain c plan r rt fuel { s with circNext := Tab.set 0 s.circNext plan (k + 1) }

/-- Deliver what can be delivered of every circulation. -/
def State.circDrainAll (s : State) : State :=
  match s.roots with
  | none => s
  | some (c, rt) =>
    ((List.range (imgPlans s.img).length).zip (imgPlans s.img)).foldl (fun t e =>
      if e.2.kind = 4 then State.circDrain c e.1 e.2 rt (e.2.circ.slices * e.2.circ.items) t else t) s

/-- Bytes of a result of a step: the whole of TREE and phase 1, a region, a shard, a page. -/
def State.itemBytes (s : State) (r : PlanRec) (step : Nat) : Nat :=
  if r.kind = 1 then 4 * r.elems
  else if r.kind = 2 then (if step = 0 then 16 + 16 * r.regions else 131072)
  else if r.kind = 3 then r.shardBytes
  else match s.roots with
    | some (_, rt) => r.circ.size rt
    | none => 0

/-- Whether part of a result holds a value that is not finite: a NaN or infinity of a TREE, a NaN marker of phase 2. -/
def collBytesNonfin (r : PlanRec) (step : Nat) (bs : List Byte) : Bool :=
  if r.kind = 1 then (words32 bs).any (fun w => !(ofF32 w).isFin)
  else r.kind == 2 && step != 0 &&
    (List.range (bs.length / 8)).any (fun k => BitVec.ofNat 64 (fld bs (8 * k) 8) == nanMarker)

/-- A collective that writes a value that is not finite flags it at the cores that issued it (R210, source 3; log 34). -/
def State.collNonfin (s : State) (r : PlanRec) (step : Nat) (calls : List CollCall) (bs : List Byte) : State :=
  if collBytesNonfin r step bs then
    calls.foldl (fun (t : State) (q : CollCall) => t.nonfin q.site.core.val q.site.strand.val 3 q.idx) s
  else s

/-- Part of a result lands on this device (R442, R451, R452): it is written where the plan says, and counted
once. -/
def State.landResult (s : State) (c : Nat) (r : PlanRec) (o : CollOp) (item offset stamp : Nat)
    (bs : List Byte) : State × CollOp :=
  if o.seen.contains (item, offset) then (s, o)
  else
    let o := { o with seen := (item, offset) :: o.seen, landed := o.landed + bs.length }
    let keep : CollOp :=
      { o with parts := o.parts ++ [{ item := item, pos := 0, result := true, offset := offset, bytes := bs }] }
    let s := s.collNonfin r o.step o.calls bs
    if r.kind = 1 then
      let mine := s.myPositions r
      let local_ := (List.range r.shards).countP (fun i => mine.contains (s.smap c r i))
      (o.calls.foldl (fun t q => t.store c (q.buf + 4 * r.elems * local_ + offset) bs) s, o)
    else if r.kind = 2 then
      if o.step = 0 then
        match keep.whole item (16 + 16 * r.regions) with
        | some all => (s.landPhase1 c r keep all, keep)
        | none => (s, keep)
      else
        let s := o.calls.foldl (fun t q => t.store c (q.buf + 16 + 16 * r.regions + 131072 * item + offset) bs) s
        (if offset = 0 ∧ stamp ≠ 0 then s.markSat c o.plan item else s, o)
    else if r.kind = 3 then
      match imgPool s.img with
      | none => (s, o)
      | some p =>
        let e := r.entry
        let s := if offset = 0 then s.checkVersion c p e stamp ((s.planNodes r).getD item 0) else s
        (s.store c (p.vbase + e * p.esize + item * r.shardBytes + offset) bs, o)
    else (s, keep)

/-- Part of a result begins at this device or passes through it: it lands here and goes on to the children
(R453). -/
def State.spread (s : State) (c : Nat) (r : PlanRec) (o : CollOp) (item stamp : Nat) (local_ own : Bool)
    (off : Nat) (bs : List Byte) : State × CollOp :=
  let a := s.sendOnward c r o item off stamp bs own
  if local_ then a.1.landResult c r a.2 item off stamp bs else a

/-- A whole item begins here: it is cut into packets. -/
def State.spreadItem (s : State) (c : Nat) (r : PlanRec) (o : CollOp) (item stamp : Nat) (local_ : Bool)
    (bs : List Byte) : State × CollOp :=
  (packets 4096 bs).foldl (fun acc q => acc.1.spread c r acc.2 item stamp local_ true q.1 q.2.1) (s, o)

/-! ### Trees (R204, R205, R452) -/

/-- The item number of node q of a level: its lowest leaf and its level. -/
def treeItem (level q : Nat) : Nat := level + 64 * (q * 2 ^ level)

/-- FP32 addition, element by element. -/
def addF32 (a b : List Byte) : List Byte :=
  ((words32 a).zip (words32 b)).flatMap (fun e => toBytes 4 (fadd (ofF32 e.1) (ofF32 e.2)).bits32.toNat)

/-- Two phase-1 values (R205): OR of the verdicts, maximum of MAXP, OR of NONFIN and SAT. -/
def addRecords (a b : List Byte) : List Byte :=
  let v := (BitVec.ofNat 16 (fld a 0 2) ||| BitVec.ofNat 16 (fld b 0 2)).toNat
  let rec_ (k : Nat) : List Byte :=
    let x := fld a (16 + 16 * k) 4
    let y := fld b (16 + 16 * k) 4
    let m := max (recMaxp x) (recMaxp y)
    let f := (BitVec.ofNat 2 (bits x 10 2) ||| BitVec.ofNat 2 (bits y 10 2)).toNat
    toBytes 4 (f * 2 ^ 10 + enc10 m * 2 ^ 16) ++ List.replicate 12 0
  toBytes 2 v ++ List.replicate 14 0 ++ (List.range (a.length / 16 - 1)).flatMap rec_

/-- The node that forms a tree node with lowest leaf `i` (R452). -/
def State.leafNode (s : State) (c : Nat) (r : PlanRec) (i : Nat) : Nat :=
  (s.planNodes r).getD (if r.kind = 1 then s.smap c r i else i) 0

/-- A value of the tree that this device holds. -/
def CollOp.value (o : CollOp) (item : Nat) : Option (List Byte) := (o.values.find? (fun e => e.1 == item)).map (·.2)

/-- Combine at one tree node, or send its value up (R452). -/
def State.treeNode (s : State) (c : Nat) (r : PlanRec) (o : CollOp) (n level q : Nat) : State × CollOp :=
  match o.value (treeItem level q) with
  | none => (s, o)
  | some v =>
    if q % 2 = 1 then
      let up := s.leafNode c r ((q - 1) * 2 ^ level)
      let key := (treeItem level q, 0, up)
      if up = s.node ∨ o.sent.contains key then (s, o)
      else
        let mark : CollMark := { pos := (s.myPositions r).headD 0, result := false, stamp := 0 }
        let s := (packets 4096 v).foldl (fun t p =>
          t.sendItem c o.plan o.step (treeItem level q) p.1 mark true p.2.1 [up]) s
        (s, { o with sent := key :: o.sent })
    else
      let parent := treeItem (level + 1) (q / 2)
      if (o.value parent).isSome then (s, o)
      else if n ≤ (q + 1) * 2 ^ level then (s, { o with values := (parent, v) :: o.values })
      else
        match o.value (treeItem level (q + 1)) with
        | none => (s, o)
        | some w =>
          let x := if r.kind = 1 then addF32 v w else addRecords v w
          (s, { o with values := (parent, x) :: o.values })

/-- The tree advances as far as the values held allow, level by level; the root's holder sends the result. -/
def State.treeRun (s : State) (c : Nat) (r : PlanRec) (o : CollOp) (n : Nat) : State × CollOp :=
  let levels := (List.range 33).find? (fun l => decide (n ≤ 2 ^ l)) |>.getD 33
  let a := (List.range levels).foldl (fun acc l =>
    (List.range ((n + 2 ^ l - 1) / 2 ^ l)).foldl (fun acc q => acc.1.treeNode c r acc.2 n l q) acc) (s, o)
  match a.2.value (treeItem levels 0) with
  | none => a
  | some v =>
    if s.leafNode c r 0 ≠ s.node ∨ a.2.seen ≠ [] then a else a.1.spreadItem c r a.2 0 0 true v

/-- Phase 2 at the owner of a region (R205, R206): with every partial in, the exact sum, saturated, goes out. -/
def State.regionRun (s : State) (c : Nat) (r : PlanRec) (o : CollOp) (region : Nat) : State × CollOp :=
  let n := r.table.1
  let partial_ (p : Nat) : List Byte :=
    ((o.parts.filter (fun q => !q.result && q.item == region && q.pos == p)).stableSort
      (fun a b => a.offset ≤ b.offset)).flatMap (·.bytes)
  let ps := (List.range n).map partial_
  if (s.planNodes r).getD (region % n) 0 ≠ s.node ∨ ps.any (fun p => decide (p.length < 131072))
      ∨ o.seen.any (fun e => e.1 == region) then (s, o)
  else
    let sums := (List.range 16384).map (fun k =>
      let ws := ps.map (fun p => BitVec.ofNat 64 (fld p (8 * k) 8))
      accSum 0 (ws.map (fun w => if w = nanMarker then none else some w.toInt)))
    let first := (List.range 16384).find? (fun k => accOver (sums.getD k none))
    let s := match first with
      | some k => s.event 0x0303 (o.plan % 2 ^ 13 + (region * 16384 + k) % 2 ^ 19 * 2 ^ 13)
      | none => s
    s.spreadItem c r o region (if first.isSome then 1 else 0) true (sums.flatMap (fun v => toBytes 8 (accWord v).toNat))

/-! ### COLL frames (R294, R442, R453) -/

/-- An item arrives for a step that this device has issued: a result lands and is forwarded; a contribution is
combined. `onward` is false for a frame that was held, and forwarded when it came. -/
def State.takeItem (s : State) (c : Nat) (r : PlanRec) (o : CollOp) (x : CollItem) (onward : Bool) : State :=
  let a :=
    if x.result then
      if onward then s.spread c r o x.item x.stamp.toNat true false x.offset x.payload
      else s.landResult c r o x.item x.offset x.stamp.toNat x.payload
    else
      let o := { o with parts := o.parts ++
        [{ item := x.item, pos := x.pos, result := false, offset := x.offset, bytes := x.payload }] }
      if r.kind = 2 ∧ x.step ≠ 0 then s.regionRun c r o x.item
      else
        let ps := o.parts.filter (fun p => !p.result && p.item == x.item)
        if (ps.map (fun p => p.bytes.length)).sum < s.itemBytes r 0 then (s, o)
        else
          let v := (ps.stableSort (fun a b => a.offset ≤ b.offset)).flatMap (·.bytes)
          s.treeRun c r { o with values := (x.item, v) :: o.values } (if r.kind = 1 then r.shards else r.table.1)
  (a.1.setColl a.2).circDrainAll

/-- Hold a COLL frame for a step that this device has not issued, or whose gather still waits. Part of a result is
forwarded as it lands all the same (R453), once. -/
def State.holdItem (s : State) (c : Nat) (r : PlanRec) (node : Nat) (x : CollItem) : State :=
  let again := s.collHeld.any (fun e => e.2.plan == x.plan && e.2.step == x.step && e.2.item == x.item &&
    e.2.offset == x.offset && e.2.result && x.result)
  if again then s
  else
    let s := { s with collHeld := s.collHeld ++ [(node, x)] }
    if x.result then
      s.sendItem c x.plan.toNat x.step.toNat x.item x.offset
        { pos := (s.myPositions r).headD 0, result := true, stamp := x.stamp.toNat } false x.payload
        (s.children c r x.step.toNat x.item)
    else s

/-- A COLL frame takes effect, or is held until this device issues its step. -/
def State.collItem (s : State) (node : Nat) (x : CollItem) : State :=
  match s.running, s.plan x.plan.toNat with
  | some c, some r =>
    match s.coll x.plan.toNat x.step.toNat with
    | some o =>
      if o.waiting || (o.complete && r.kind == 3) then s.holdItem c r node x
      else if o.complete then s
      else s.takeItem c r o x true
    | none => s.holdItem c r node x
  | _, _ => s

/-- Frames held for a step take effect once it is issued. -/
def State.releaseHeld (s : State) (plan step : Nat) : State :=
  let mine := s.collHeld.filter (fun e => e.2.plan.toNat == plan && e.2.step.toNat == step)
  let s := { s with collHeld := s.collHeld.filter (fun e => !(e.2.plan.toNat == plan && e.2.step.toNat == step)) }
  mine.foldl (fun t e =>
    match t.running, t.plan plan, t.coll plan step with
    | some c, some r, some o => t.takeItem c r o e.2 false
    | _, _, _ => t) s

/-! ### COLL (R451) -/

/-- The count of a layer in `UE_SILENT_TAB` (R358). -/
def State.silentCount (s : State) (layer : Nat) : Nat :=
  bits (s.word (Reg.UE_SILENT_TAB_COUNT.off 0 (layer / 4))).toNat (16 * (layer % 4)) 16

/-- `UE_SILENT_CFG.LIMIT`; 0 acts as 1. -/
def State.silentLimit (s : State) : Nat := max 1 (s.get Reg.UE_SILENT_CFG_LIMIT)

/-- The cut (R381): this device's contribution is latched, with SILENT of R355; an update job still held is
VERDICT_EARLY and a program error. -/
def State.cut (s : State) : State :=
  match s.step.cut with
  | some _ => s
  | none =>
    let s := if s.step.watch.any (fun e => e.2 == 1 && decide (s.silentLimit ≤ s.silentCount e.1 + 1))
      then s.contribute 7 else s
    let s := if s.flt.guard then s.contribute 2 else s
    let s := if s.fencePending then s.contribute 3 else s
    let s := { s with step := { s.step with cut := some s.step.contrib, contrib := 0 } }
    match (List.range 12).find? (fun g => !(s.group g).jobs.isEmpty) with
    | some g => ((s.put Reg.UE_STEP_STATUS_EARLY 1).event 0x060E g).programError g 0xFF
    | none => s

/-- The leaf of a position in phase 1 (R205, R380). -/
def State.phase1Leaf (s : State) (c : Nat) (r : PlanRec) (buf : Nat) : List Byte :=
  let v := if r.verdict then ((s.step.cut).getD s.step.contrib).toNat else s.vfield c buf 2
  toBytes 2 v ++ List.replicate 14 0 ++ s.vread c (buf + 16) (16 * r.regions)

/-- A page or summary that this device sends in a circulation (R293, R295): the pad image when its entry is
not VALID. -/
def State.circItem (s : State) (c : Nat) (rt : Roots) (x : Circ) (step item : Nat) : State × List Byte :=
  let b := x.at_ step item
  let stream := rt.stream x.slot x.layer b.2
  if x.sums then (s, s.vread c ((s.streamDesc stream).2.1 + 256 * b.1) 256)
  else
    match s.entry stream b.1 with
    | .frame tier n _ => (s.touchPage tier n, s.pageBytes tier n)
    | _ => (s.noteEntry stream b.1, rt.padImage)

/-- Begin a TREE step: this device's shards are its leaves. -/
def State.beginTree (s : State) (c : Nat) (r : PlanRec) (o : CollOp) (buf : Nat) : State × CollOp :=
  let mine := s.myPositions r
  let own := (List.range r.shards).filter (fun i => mine.contains (s.smap c r i))
  let vals := ((List.range own.length).zip own).map (fun e =>
    (treeItem 0 e.2, s.vread c (buf + 4 * r.elems * e.1) (4 * r.elems)))
  s.treeRun c r { o with values := vals } r.shards

/-- Begin phase 1 for one position. -/
def State.beginPhase1 (s : State) (c : Nat) (r : PlanRec) (o : CollOp) (q : CollCall) : State × CollOp :=
  let s := if r.verdict then s.cut else s
  s.treeRun c r { o with values := (treeItem 0 q.pos, s.phase1Leaf c r q.buf) :: o.values } r.table.1

/-- Begin phase 2 for one position: each partial goes to the owner of its region. -/
def State.beginPhase2 (s : State) (c : Nat) (r : PlanRec) (o : CollOp) (q : CollCall) : State × CollOp :=
  let n := r.table.1
  (List.range r.regions).foldl (fun acc k =>
    let bs := acc.1.vread c (q.buf + 16 + 16 * r.regions + 131072 * k) 131072
    let owner := (acc.1.planNodes r).getD (k % n) 0
    if owner = acc.1.node then
      acc.1.regionRun c r { acc.2 with parts := acc.2.parts ++
        [{ item := k, pos := q.pos, result := false, offset := 0, bytes := bs }] } k
    else
      ((packets 4096 bs).foldl (fun t p =>
          t.sendItem c o.plan o.step k p.1 { pos := q.pos, result := false, stamp := 0 } true p.2.1 [owner]) acc.1,
        acc.2)) (s, o)

/-- The shard of a position taken over from a fenced member, and its stamp (R371, R477, R571): the working copies in
force of the descriptors derived for it, in their order. Bytes that no descriptor gives are free (log 34). -/
def State.takenShard (s : State) (c plan pos n : Nat) : State × List Byte × Nat :=
  let ds := (s.flt.map.derived.filter (fun w => w.plan == plan && w.pos == pos)).map (fun w =>
    updDesc (s.vread c w.desc 192))
  let bs := (ds.flatMap (fun d => s.vread c (gen d.work s.ueStep) (workSize d.wfmt d.n))).take n
  let stamp := match ds with
    | d :: _ => s.vfield c (gen d.state s.ueStep) 4
    | [] => s.ueStep
  if bs.length < n then (s.drawn, bs ++ freeBytes s.draw (n - bs.length), stamp) else (s, bs, stamp)

/-- Fill a pool entry (R367, R371): this device's own shard (`own`) and those of positions taken over from a fenced
member (`taken`) are written and sent to every other member. The shard of a taken position is the working copy that the
recovery service derived for it (R477, R571). -/
def State.fillEntry (s : State) (c : Nat) (r : PlanRec) (o : CollOp) (own taken : Bool) : State × CollOp :=
  let mine (p : Nat) : Bool := r.members0.getD p 0 == s.node
  ((s.myPositions r).filter (fun p => if mine p then own else taken)).foldl (fun acc p =>
    let b := if mine p then
        (acc.1, acc.1.vread c (fld r.body 8 8) r.shardBytes, acc.1.vfield c (fld r.body 16 8) 4)
      else acc.1.takenShard c o.plan p r.shardBytes
    b.1.spreadItem c r acc.2 p b.2.2 true b.2.1) (s, o)

/-- Place a gather that waits (R367, R369): with frames enough, evicting where it may, the window is mapped and
filled. Shards that the recovery service still derives wait for it (R477). -/
def State.placeGather (s : State) (c : Nat) (r : PlanRec) (o : CollOp) : State :=
  match imgPool s.img with
  | none => s
  | some p =>
    let e := r.entry
    let need := poolFrames (r.shardBytes * r.table.1)
    let s := State.makeRoom c p need p.nent s
    let free := s.poolFree c
    if free.length < need then s
    else
      let w := s.poolWord c p e 0
      let s := (s.mapWindow c (p.window e) (free.take need)).setPool c p e 1 r.keep (bits w 4 1 == 1) (bits w 32 32)
        (s.poolWord c p e 1)
      let s := { s with gathers := s.gathers.filter (fun g => g.op != o.id) }
      let a := s.fillEntry c r { o with waiting := false } true !s.flt.map.derive
      (a.1.setColl a.2).releaseHeld o.plan o.step

/-- Try again to place every gather that waits (R369). -/
def State.retryGathers (s : State) : State :=
  s.gathers.foldl (fun t g =>
    match t.running, t.colls.find? (fun o => o.id == g.op) with
    | some c, some o =>
      match t.plan o.plan with
      | some r => t.placeGather c r o
      | none => t
    | _, _ => t) s

/-- Begin a CIRC step: the holder sends its slice, in order of blocks and heads (R293). -/
def State.beginCirc (s : State) (c : Nat) (r : PlanRec) (o : CollOp) : State × CollOp :=
  let x := r.circ
  match s.roots with
  | none => (s, o)
  | some (_, rt) =>
    if (s.planNodes r).getD (x.holder o.step) 0 ≠ s.node then (s, o)
    else
      (List.range x.items).foldl (fun acc i =>
        let it := acc.1.circItem c rt x o.step i
        it.1.spreadItem c r acc.2 i 0 false it.2) (s, o)

/-- The addresses that the collective engine resolves before it moves a byte (R451). -/
def State.collRanges (s : State) (r : PlanRec) (step buf : Nat) : List (Nat × Nat) :=
  if r.kind = 1 then
    let mine := s.myPositions r
    let c := s.running.getD 0
    [(buf, 4 * r.elems * ((List.range r.shards).countP (fun i => mine.contains (s.smap c r i)) + 1))]
  else if r.kind = 2 then [(buf, 16 + 16 * r.regions + (if step = 0 then 0 else 131072 * r.regions))]
  else if r.kind = 3 then [(fld r.body 8 8, r.shardBytes), (fld r.body 16 8, 512)]
  else match s.roots with
    | some (_, rt) => [(r.circ.land, r.circ.landN * rt.frameSize)]
    | none => []

/-- The result bytes that a step brings this device. -/
def State.collExpect (s : State) (r : PlanRec) (step : Nat) : Nat :=
  if r.kind = 2 ∧ step ≠ 0 then 131072 * r.regions
  else if r.kind = 3 then r.shardBytes * r.table.1
  else if r.kind = 4 then (s.circFirst r step).2 * s.itemBytes r step
  else s.itemBytes r step

/-- A new collective. -/
def State.newColl (s : State) (plan step expect : Nat) (calls : List CollCall) (waiting : Bool) : State × CollOp :=
  let o : CollOp :=
    { id := s.nextOp, plan := plan, step := step, calls := calls, parts := [], values := [], sent := [], seen := []
      landed := 0, expect := expect, waiting := waiting, complete := false }
  let rest := s.colls.filter (fun q => !(q.plan == plan && q.step == step))
  ({ s with colls := rest ++ [o], nextOp := s.nextOp + 1 }, o)

/-- A COLL of a GATHER plan (R367). -/
def State.issueGather (s : State) (c : Nat) (r : PlanRec) (plan : Nat) (q : CollCall) : State :=
  match imgPool s.img with
  | none => s
  | some p =>
    let e := r.entry
    let busy := s.colls.find? (fun o => !o.complete && (match s.plan o.plan with
      | some x => x.kind == 3 && x.entry == e
      | none => false))
    match busy with
    | some o => s.setColl { o with calls := o.calls ++ [q] }
    | none =>
      if s.poolState p e = 2 then
        let w := s.poolWord c p e 0
        let s := (s.setPool c p e 2 (bits w 3 1 == 1) (bits w 4 1 == 1) (bits w 32 32) s.beat).bump
          Reg.UE_GP_REUSE_COUNT
        match q.so with
        | some i => s.soAdd i 1
        | none => s
      else
        let a := s.newColl plan 0 (s.collExpect r 0) [q] true
        let g : GatherWait := { op := a.2.id, entry := e, since := s.beat }
        ({ a.1 with gathers := a.1.gathers ++ [g] }).placeGather c r a.2

/-- A COLL takes effect (R451, R571). -/
def State.issueColl (s : State) (c : Nat) (r : PlanRec) (plan step : Nat) (q : CollCall) : State :=
  if r.kind = 3 then s.issueGather c r plan q
  else
    let a := match s.coll plan step with
      | some o => (s, { o with calls := o.calls ++ [q] })
      | none => s.newColl plan step (s.collExpect r step) [q] false
    let s := a.1.setColl a.2
    let b :=
      if r.kind = 1 then s.beginTree c r a.2 q.buf
      else if r.kind = 2 then (if step = 0 then s.beginPhase1 c r a.2 q else s.beginPhase2 c r a.2 q)
      else s.beginCirc c r a.2
    (b.1.setColl b.2).releaseHeld plan step

/-- The position that the next COLL of a step stands for: for an ANCHORED plan the positions held in
ascending order (R571). -/
def State.nextPosition (s : State) (r : PlanRec) (plan step : Nat) : Option Nat :=
  let mine := s.myPositions r
  let k : Nat := ((s.coll plan step).map (fun o => o.calls.length)).getD 0
  if r.kind = 2 then mine[k]? else if r.kind == 3 || k == 0 then some (mine.headD 0) else none

/-- OPERAND of a COLL (R451): no such plan, a POOL plan, a step out of order or beyond the last. -/
def State.collBad (s : State) (plan step : Nat) : Bool :=
  match s.plan plan with
  | none => true
  | some r =>
    r.kind == 5 || decide (r.steps ≤ step) ||
      (r.kind != 3 && (step != Tab.get 0 s.collNext plan || (s.nextPosition r plan step).isNone))

/-- COLL (R451). -/
def execColl (a : Site) (p : Pred) (mop : Mop) (plan : BitVec 16) (step : BitVec 13) (so : BitVec 13)
    (soen : Bool) (s : State) : Host.Outcome State Fault Refusal :=
  let c := s.running.getD 0
  let n := plan.toNat
  let k := step.toNat
  loaded (.coll a p mop plan step so soen) (s.issue a p (fun s =>
    let t := s.strand a
    s.guarded a [(Mop.bad t mop, 0x06), (s.collBad n k, 0x0A)] (fun s =>
      let buf := Mop.addr t mop
      let s := s.advance a
      match s.plan n with
      | none => s
      | some r =>
        if (s.collRanges r k buf).any (fun x => decide (2 ^ 48 < x.1 + x.2) || !s.mapped c x.1 x.2) then
          s.strandErrorAt a 0x06 t.pc.toNat
        else
          let pos := (s.nextPosition r n k).getD 0
          let q : CollCall :=
            { pos := pos, site := a, idx := t.pc.toNat, buf := buf, so := if soen then some so.toNat else none }
          let last := r.kind != 2 || some pos == (s.myPositions r).getLast?
          let s := if last && r.kind != 3 then { s with collNext := Tab.set 0 s.collNext n (k + 1) } else s
          s.issueColl c r n k q)))

/-! ### The end of a step (R369, R570) -/

/-- A step is complete (R570): every item it must receive has landed, every COLL of it has been issued, and
every item it sent is acknowledged. -/
def State.collReady (s : State) (r : PlanRec) (o : CollOp) : Bool :=
  !o.waiting && !o.complete && decide (o.expect ≤ o.landed) && !s.outstanding (.coll o.plan o.step)
    && (r.kind != 2 || o.calls.length == (s.myPositions r).length)

/-- A member completes a COLL step: its completion objects are incremented; a filled entry is READY (R367). -/
def execCollStepComplete (op : Nat) (s : State) : Host.Outcome State Fault Refusal :=
  let s := s.circDrainAll
  .next (match s.running, s.colls.find? (fun o => o.id == op) with
    | some c, some o =>
      match s.plan o.plan with
      | none => s
      | some r =>
        if s.collReady r o then
          let s := s.setColl { o with complete := true }
          let s := if r.kind = 3 then
              match imgPool s.img with
              | some p =>
                let w := s.poolWord c p r.entry 0
                (s.setPool c p r.entry 2 (bits w 3 1 == 1) (bits w 4 1 == 1) (bits w 32 32) s.beat).bump
                  Reg.UE_GP_GATHERS_COUNT
              | none => s
            else s
          o.calls.foldl (fun (t : State) (q : CollCall) => match q.so with
            | some i => t.soAdd i 1
            | none => t) s
        else s
    | _, _ => s)

/-- A gather that has not been placed by the second boundary after it began fails (R369). -/
def execGatherTimeout (op : Nat) (s : State) : Host.Outcome State Fault Refusal :=
  .next (match s.running, s.gathers.find? (fun g => g.op == op), imgPool s.img with
    | some c, some g, some p =>
      if g.since + 2 ≤ s.beat then
        let w := s.poolWord c p g.entry 0
        let s := s.setPool c p g.entry 3 (bits w 3 1 == 1) (bits w 4 1 == 1) (bits w 32 32) (s.poolWord c p g.entry 1)
        let s := { s with gathers := s.gathers.filter (fun x => x.op != op) }
        let s := match s.colls.find? (fun o => o.id == op) with
          | some o => (o.calls.foldl (fun (t : State) (q : CollCall) => match q.so with
              | some i => t.soAdd i 1
              | none => t) s).setColl { o with complete := true }
          | none => s
        ((s.put Reg.UE_STEP_STATUS_NOSPACE 1).event 0x060D g.entry).programError g.entry 0xFF
      else s
    | _, _, _ => s)

/-- At step entry every entry becomes EMPTY with VVALID 0 and every frame returns (R370). -/
def State.emptyPool (s : State) (c : Nat) : State :=
  match (s.ctx c).image.bind imgPool with
  | none => s
  | some p => (List.range p.nent).foldl (fun t e => (t.setPool c p e 0 false false 0 0).unmapWindow c p e) s

end Sys2Proof.Machine
end

