-- ==== Sys2Proof/Machine/Faults.lean ====
section
/-!
DEFINITION. Machine/Faults.lean: shadow sampling (R472), the partner map (R485 to R491), the commit of a device
fence (R477 to R484) and of core fences (R470), and what a self-fence does (R480).
-/

namespace Sys2Proof.Machine

/-! ### Shadow sampling (R472) -/

/-- The rotation indices that sample a group in this step: one outside STRICT, four in STRICT. -/
def State.sampleIndices (s : State) : List Nat :=
  let j := s.get Reg.FLT_SAMPLE_INDEX
  if s.modeInForce = 3 then [j, (j + 16) % 64, (j + 32) % 64, (j + 48) % 64] else [j]

/-- Whether a segment of a strand, by its index within the step, is sampled. -/
def State.sampled (s : State) (a : Site) (seg : Nat) : Bool :=
  s.sampleIndices.any (fun j =>
    decide (a.core.val % 8 = j % 8 ∧ a.strand.val = j / 8 % 4 ∧ seg % 2 = j / 32 % 2))

/-- The step-entry count of the running context. -/
def State.entriesNow (s : State) : Nat := (s.ctx (s.running.getD 0)).entries

/-- SHADOW_CHECK (R472) of a segment that the strand has begun: a second mismatch of the strand, in a replay of the step,
confirms the fault; a match of the segment in the replay settles its mismatch as transient. -/
def execShadowCheck (x : Segment) (mismatch : Bool) (s : State) : Host.Outcome State Fault Refusal :=
  .next (
    let a := x.site
    let seg := x.seg
    let g := groupOf a.core.val
    let gr := s.group g
    let key := siteKey a + 384 * seg.toNat
    let earlier := gr.shadow.any (fun e => e.1 % 384 == siteKey a && e.2 != s.entriesNow)
    if !(s.running.isSome && s.step.active && s.sampled a seg.toNat && decide (seg.toNat ≤ (s.strand a).seg.toNat)) then s
    else if mismatch then
      let s := ((s.contribute 1).bump Reg.FLT_SHADOW_COUNT).event 0x0904
        (a.core.val + a.strand.val * 2 ^ 7 + (if earlier then 2 ^ 9 else 0)) a.core.val
      if earlier then
        (s.setGroup g { s.group g with shadow := gr.shadow.filter (fun e => e.1 % 384 != siteKey a) }).decideFence a.core.val 2
      else if gr.shadow.any (fun e => e.1 == key) then s
      else s.setGroup g { s.group g with shadow := (key, s.entriesNow) :: gr.shadow }
    else s.setGroup g { gr with shadow := gr.shadow.filter (fun e => !(e.1 == key && e.2 != s.entriesNow)) })

/-! ### Feed tags and the partner map (R485 to R487) -/

/-- The feed tag of a node (R487). -/
def State.tagOf (s : State) (n : Nat) : BitVec 4 :=
  if n = s.node then
    if s.flag Reg.FLT_FEED_OVR_EN then BitVec.ofNat 4 (s.get Reg.FLT_FEED_OVR) else s.svc.feed
  else Config.feedTag n

/-- Whether a node permits equal tags (R487). -/
def State.forces (s : State) (n : Nat) : Bool :=
  if n = s.node then s.flag Reg.FLT_FEED_FORCE else Config.feedForce n

/-- Whether the pairing service may make one node the holder of another (R487). -/
def State.mayPair (s : State) (a b : Nat) : Bool := s.tagOf a != s.tagOf b || (s.forces a && s.forces b)

/-- The pairs of R486 and the devices left over: twins first, then in ascending order each with the lowest unpaired
node above it. -/
def State.pairUp (s : State) (twins : Bool) : Nat → List Nat → List (Nat × Nat) × List Nat
  | 0, l => ([], l)
  | _, [] => ([], [])
  | fuel + 1, a :: t =>
    let ok (b : Nat) : Bool := s.mayPair a b && (!twins || Config.twinOf a == some b)
    match t.find? ok with
    | some b =>
      let r := s.pairUp twins fuel (t.filter (fun n => n != b))
      ((a, b) :: r.1, r.2)
    | none =>
      let r := s.pairUp twins fuel t
      (r.1, a :: r.2)

/-- The pairings that the order of `State.pairUp` comes to and passes over for their tags (R487): above each device, the
unpaired devices before its partner; of a D2, its twin. -/
def State.skipsOf (s : State) (twins : Bool) : Nat → List Nat → List (Nat × Nat)
  | 0, _ => []
  | _, [] => []
  | fuel + 1, a :: t =>
    let of (b : Nat) : Bool := !twins || Config.twinOf a == some b
    let skipped := (t.takeWhile (fun b => !(s.mayPair a b && of b))).filter (fun b => of b && !s.mayPair a b)
    let rest := match t.find? (fun b => s.mayPair a b && of b) with
      | some b => t.filter (fun n => n != b)
      | none => t
    skipped.map (fun b => (a, b)) ++ s.skipsOf twins fuel rest

/-- A set with its holders. -/
def newSet (owner : Nat) (holders : List Nat) : PartnerSet :=
  { primary := owner, owner := owner, holders := holders, exposed := none, newHolder := none, nextLayer := 0
    lost := false }

/-- Replace the holders of an owner's set. -/
def setHolders (l : List PartnerSet) (owner : Nat) (hs : List Nat) : List PartnerSet :=
  l.map (fun x => if x.owner = owner then { x with holders := hs } else x)

/-- The partner map of a member set (R486): pairs hold each other's set; a device left over forms a cycle with the
pair formed last. A pairing that the tags forbid is not made, and the set has no holder. -/
def State.formPairs (s : State) (members : List Nat) : List PartnerSet :=
  let tw := s.pairUp true (members.length + 1) members
  let pr := s.pairUp false (members.length + 1) tw.2
  let pairs := tw.1 ++ pr.1
  let held (n : Nat) : List Nat := pairs.filterMap (fun p => if p.1 = n then some p.2 else if p.2 = n then some p.1 else none)
  let sets := members.map (fun n => newSet n (held n))
  match pairs.getLast? with
  | none => sets
  | some (a, b) => pr.2.foldl (fun (l : List PartnerSet) n =>
      let one (owner h : Nat) : List Nat := if s.mayPair owner h then [h] else []
      setHolders (setHolders (setHolders l n (one n a)) a (one a b)) b (one b n)) sets

/-- The nodes whose pairing with this device the service skipped for their tags (R487): those that the order of R486
came to above it, and the holder that the last cycle would give it. -/
def State.skippedPairs (s : State) (members : List Nat) : List Nat :=
  let tw := s.pairUp true (members.length + 1) members
  let pr := s.pairUp false (members.length + 1) tw.2
  let cycle := match (tw.1 ++ pr.1).getLast? with
    | none => []
    | some (a, b) => pr.2.flatMap (fun n => [(n, a), (a, b), (b, n)].filter (fun p => !s.mayPair p.1 p.2))
  let all := s.skipsOf true (members.length + 1) members ++ s.skipsOf false (members.length + 1) tw.2 ++ cycle
  ((all.filter (fun p => p.1 == s.node)).map (·.2)).eraseDups

/-- The copies that a device holds or is to hold (R485, R489). -/
def FaultMap.copies (m : FaultMap) (n : Nat) : Nat :=
  (m.sets.filter (fun x => x.holders.contains n || x.newHolder == some n)).length

/-- The new holder of a set (R489): a live device that is not the owner, with another feed tag and fewer than four
copies; the fewest copies count first, then the ascending order after the owner with wrap. `not` are devices that
already hold the set or leave. -/
def State.chooseHolder (s : State) (m : FaultMap) (owner : Nat) (not : List Nat) : Option Nat :=
  let ok := m.members.filter (fun n => n != owner && !not.contains n && s.tagOf n != s.tagOf owner
    && decide (m.copies n < 4))
  let key (n : Nat) : Nat := m.copies n * 2 ^ 17 + (if owner < n then n else n + 2 ^ 16)
  ok.foldl (fun (b : Option Nat) n =>
    match b with
    | none => some n
    | some x => if key n < key x then some n else some x) none

/-- The sets that a device owns, its primary set first (R485). -/
def FaultMap.owned (m : FaultMap) (n : Nat) : List PartnerSet :=
  m.sets.filter (fun x => x.owner == n && x.primary == n) ++ m.sets.filter (fun x => x.owner == n && x.primary != n)

/-- The places in the partner map. -/
def FaultMap.indices (m : FaultMap) : List Nat := List.range m.sets.length

/-- Replace a set of the map. -/
def FaultMap.setSet (m : FaultMap) (k : Nat) (x : PartnerSet) : FaultMap := { m with sets := m.sets.set k x }

/-- EXPOSED (R489, R502), raised by the owner. -/
def State.exposedEvent (s : State) (m : FaultMap) (x : PartnerSet) : List (Nat × Nat) :=
  if x.owner = s.node then
    [(0x090B, x.owner + 2 ^ 15 * (((m.owned x.owner).map (·.primary)).idxOf x.primary))]
  else []

/-- A set that has just lost a holder or changed its owner: with no holder left it is exposed since beat `b` and a
new holder is chosen (R489); a planned fence exposes no set, since its second holder was refilled before (R492). -/
def State.coverSet (s : State) (m : FaultMap) (k kind b : Nat) (x : PartnerSet) : FaultMap × List (Nat × Nat) :=
  if !x.holders.isEmpty then (m.setSet k x, [])
  else
    let n := s.chooseHolder (m.setSet k { x with newHolder := none }) x.owner []
    match kind == 5, n with
    | true, some h => (m.setSet k { x with holders := [h], newHolder := none, nextLayer := 0 }, [])
    | _, _ =>
      let x := { x with exposed := some (x.exposed.getD b), newHolder := n, nextLayer := 0 }
      (m.setSet k x, s.exposedEvent m x)

/-- A set after the fence of node `f` (R477, R479, R489, R491). The holder of a set of `f` adopts it in place. -/
def State.setAfter (s : State) (f kind b : Nat) (m : FaultMap) (k : Nat) : FaultMap × List (Nat × Nat) :=
  match m.sets[k]? with
  | none => (m, [])
  | some x =>
    if x.lost then (m, [])
    else if x.owner = f then
      match x.holders.filter (fun n => n != f), x.exposed with
      | h :: rest, none =>
        s.coverSet m k kind b { x with owner := h, holders := rest, newHolder := none, nextLayer := 0 }
      | _, _ => (m.setSet k { x with lost := true }, [(0x090D, f)])
    else if x.holders.contains f then
      s.coverSet m k kind b { x with holders := x.holders.filter (fun n => n != f) }
    else if x.newHolder = some f then
      let n := s.chooseHolder (m.setSet k { x with newHolder := none }) x.owner x.holders
      (m.setSet k { x with newHolder := n, nextLayer := 0 }, [])
    else (m, [])

/-! ### Roles (R483, R484) -/

/-- The nearest live member from place `i` of a table in steps of `d` (R483). -/
def nearest (table live : List Nat) (f i d : Nat) : Option Nat :=
  ((List.range (table.length - 1)).map (fun k => table.getD ((i + (k + 1) * d) % table.length) f)).find?
    (fun n => n != f && live.contains n)

/-- LEFT and RIGHT of a failed node: from the lowest-numbered CIRC plan whose member table holds it (R483). -/
def sideRoles (img : List Byte) (m : FaultMap) (f : Nat) : Option Nat × Option Nat :=
  match (imgPlans img).find? (fun r => r.kind == 4 && (r.members m).contains f) with
  | none => (none, none)
  | some r =>
    let t := r.members m
    let i := t.idxOf f
    (nearest t m.members f i (t.length - 1), nearest t m.members f i 1)

/-- A fault map after the fence of `f` at the boundary that opens `b`: the failed node with this device's role mask,
the live members, the partner map. The events name a third fence, lost sets and exposures (R482, R489, R491). -/
def State.failNode (s : State) (img : List Byte) (m : FaultMap) (f kind b : Nat) : FaultMap × List (Nat × Nat) :=
  let lr := sideRoles img m f
  let partner := m.sets.any (fun x => x.owner == f && x.holders.contains s.node)
  let mask := partner.toNat + 2 * (lr.1 == some s.node).toNat + 4 * (lr.2 == some s.node).toNat
  let holder := (m.sets.find? (fun x => x.primary == f && x.owner == f)).bind (fun x => x.holders.head?)
  let rec_ : FailedNode := { node := f, role := BitVec.ofNat 3 mask, left := lr.1, right := lr.2, holder := holder }
  let third := if 2 ≤ m.failed.length then [(0x090A, f)] else []
  let m := { m with
    failed := m.failed ++ [rec_], members := m.members.filter (fun n => n != f), derive := m.derive || partner }
  m.indices.foldl (fun (acc : FaultMap × List (Nat × Nat)) k =>
    let r := s.setAfter f kind b acc.1 k
    (r.1, acc.2 ++ r.2)) (m, third)

/-! ### Commits -/

/-- Sync objects held by a fenced party take FENCED_RELEASE (R106). -/
def releaseObjects (t : Tab SyncObj) (p : SyncObj → Bool) : Tab SyncObj :=
  t.mapv SyncObj.reset (fun o => if p o then { o with status := .fencedRelease } else o)

/-- An object held by a core of a node, or by the node. -/
def SyncObj.heldBy (o : SyncObj) (node : Nat) : Bool := o.valid && o.node.toNat == node

/-- UE_TEE_ABORT for the jobs whose tee to the fenced node is not acknowledged (R357). -/
def State.abortTees (s : State) (f : Nat) : State :=
  (List.range 12).foldl (fun (s : State) g =>
    (s.group g).jobs.foldl (fun (s : State) j =>
      let open_ := s.waitSends.any (fun w => w.node == f && w.tag == .tee g j.id)
        || s.conns.any (fun e => e.2.peer == f && e.2.unacked.any (fun p => p.tag == .tee g j.id))
      if open_ then (s.put Reg.UE_STATUS_TEE_ABORT 1).event 0x0607 (g + f * 2 ^ 4) else s) s) s

/-- Close every connection to a node, and its sessions end (R514); sends that wait for it complete as discarded (R447,
R479). -/
def State.closeTo (s : State) (f : Nat) : State :=
  let s := s.openConns.foldl (fun (s : State) e => if e.2.peer = f then s.closeConn e.1 else s) s
  (s.dropSessions (fun x => x.node == f)).drainSends

/-- Cached pages of a node leave the cache through quarantine (R479, R288). -/
def State.dropCached (s : State) (f : Nat) : State :=
  let gone := s.pages.cache.filter (fun p => p.node == f)
  let s := { s with pages := { s.pages with cache := s.pages.cache.filter (fun p => p.node != f) } }
  gone.foldl State.evictCached s

/-- A node becomes the reference; if it is this device, it is LOCKED (R53, R59). -/
def State.nameReference (s : State) (n : Nat) : State :=
  let bt := { s.bt with refNode := some (BitVec.ofNat 15 n) }
  { s with bt := if n = s.node then { bt with st := .locked, hops := 0 } else bt }

/-- The reference `f` is fenced: the lowest live member is the reference (R53, R59). -/
def State.newReference (s : State) (f : Nat) : State :=
  if s.bt.refNode = some (BitVec.ofNat 15 f) then
    match s.flt.map.members.min? with
    | some n => s.nameReference n
    | none => s
  else s

/-- A spare with a lower node than the reference is the reference from its admission on (R53, R562). -/
def State.lowerReference (s : State) (n : Nat) : State :=
  if s.bt.refNode.any (fun r => decide (n < r.toNat)) then s.nameReference n else s

/-- A suspended or loaded context's saved fault history and sync objects take a commit at once (R504, R511). -/
def State.commitSaved (s : State) (f kind b : Nat) : State :=
  (List.range 16).foldl (fun (s : State) c =>
    let x := s.ctx c
    if s.sec.shown = some c ∨ x.job.isNone ∨ !x.saved.flt.members.contains f then s
    else
      let r := s.failNode (x.image.getD []) x.saved.flt f kind b
      let sv := { x.saved with flt := r.1, so := releaseObjects x.saved.so (fun o => o.heldBy f) }
      r.2.foldl (fun (s : State) e => s.event e.1 e.2) (s.setCtx c { x with saved := sv })) s

/-- The device fence of `f` commits at the boundary that opens the current beat (R477): forced releases, roles,
partner map, reference. The lost sets and a third fence set the action to STOP (R482, R491). -/
def State.commitDevice (s : State) (f kind : Nat) : State :=
  let s := (s.put Reg.FLT_STATUS_DEV_FENCE 1).event 0x0907 (f + kind * 2 ^ 15)
  let s := s.abortTees f
  let img := ((s.sec.shown.bind (fun c => (s.ctx c).image))).getD []
  let b := s.beat
  let s :=
    if s.flt.map.members.contains f then
      let r := s.failNode img s.flt.map f kind b
      let stop := s.flt.stop || r.2.any (fun e => e.1 == 0x090A || e.1 == 0x090D)
      let s := { s with flt := { s.flt with map := r.1, stop := stop } }
      let s := if r.2.any (fun e => e.1 == 0x090D) then s.put Reg.FLT_STATUS_DOUBLE_EXPOSURE 1 else s
      r.2.foldl (fun (s : State) e => s.event e.1 e.2) s
    else s
  let s := s.commitSaved f kind b
  let s := { s with so := releaseObjects s.so (fun o => o.heldBy f), flt := { s.flt with lastFence := some b } }
  (((s.closeTo f).dropCached f).newReference f)

/-- Bits of a core mask set from a list. -/
def coreMask (l : List Nat) : BitVec 96 := l.foldl (fun m c => m ||| BitVec.ofNat 96 (2 ^ c)) 0

/-- The fenced cores of a group (R36). -/
def fencedIn (m : BitVec 96) (g : Nat) : List Nat := (List.range 8).filter (fun k => m.getLsbD (8 * g + k))

/-- The groups that three fenced cores fence as a whole are fenced with all their cores (R36). -/
def State.wholeGroups (s : State) : State :=
  (List.range 12).foldl (fun (s : State) g =>
    if 3 ≤ (fencedIn s.flt.fenced g).length ∨ (s.group g).whole then
      let all := coreMask ((List.range 8).map (8 * g + ·))
      { s.setGroup g { s.group g with whole := true } with flt := { s.flt with fenced := s.flt.fenced ||| all } }
    else s) s

/-- The cause byte of the fence record for the cause of a core fence (R502, R531). -/
def fenceCause (cause : Nat) : Byte := BitVec.ofNat 8 (cause + 2)

/-- One decided core fence commits (R470, R106): its objects are released and the fence record is written. -/
def State.commitCore (s : State) (core cause : Nat) : State :=
  let fenced := s.flt.fenced ||| coreMask [core]
  let mine (o : SyncObj) : Bool := o.heldBy s.node && o.core.toNat == core
  let s := { s with flt := { s.flt with fenced := fenced }, so := releaseObjects s.so mine }
  -- the objects of contexts that the device does not show too (R106, R504)
  let ctxs : Tab Ctx := s.sec.ctxs.mapv Ctx.reset (fun x =>
    { x with saved := { x.saved with so := releaseObjects x.saved.so mine } })
  let s := { s with sec := { s.sec with ctxs := ctxs } }
  let s := s.setCore core { s.core core with fenceDecided := none }
  let s := (s.put Reg.FLT_STATUS_CORE_FENCE 1).event 0x0901 (core + 2 ^ 7 + cause * 2 ^ 8) core
  let s := { s with pins := { s.pins with coreFenceSeen := true } }
  let r := s.fenceRec
  s.writeRecord { r with
    fenced := r.fenced ||| coreMask [core], cause := Tab.set 0 r.cause core (fenceCause cause) }

/-- The groups fenced as a whole. -/
def State.wholeMask (s : State) : BitVec 12 :=
  (List.range 12).foldl (fun m g => if (s.group g).whole then m ||| BitVec.ofNat 12 (2 ^ g) else m) 0

/-- All decided core fences commit (R470). A group that is fenced as a whole during a job is a device fence (R37). -/
def State.commitCores (s : State) : State :=
  let decided := (List.range 96).filterMap (fun c => (s.core c).fenceDecided.map (fun k => (c, k)))
  let before := s.wholeMask
  let s := decided.foldl (fun (s : State) e => s.commitCore e.1 e.2) s
  let s := s.wholeGroups
  if s.wholeMask = before then s
  else (s.writeRecord { s.fenceRec with groups := s.fenceRec.groups ||| s.wholeMask }).selfFence 0

/-! ### Self-fence (R480) -/

/-- The reads that strands hold end: their resolutions of page frames retire (R288). -/
def State.dropHeld (s : State) : State :=
  let fs := s.strands.flatMap (fun e => ((e.2.held.map (fun h => h.frames)).getD []))
  { s with pages := { s.pages with resolutions := fs.foldl List.erase s.pages.resolutions } }

/-- Root computations are forgotten: those of a context, or all. -/
def State.dropRoots (s : State) (c : Option Nat) : State :=
  { s with groups := s.groups.mapv GroupSt.reset (fun g => { g with
      roots := g.roots.filter (fun r => c.any (fun k => r.ctx != k)) }) }

/-- Everything that the strands and engines of the job have in progress ends; a root computation that is done stays one
that a PRECON can be merged with (R349). -/
def State.stopEngines (s : State) : State :=
  let strands := s.strands.mapv Strand.reset (fun t =>
    if t.enabled && t.st != StrandSt.idle then
      { t with st := StrandSt.stopped, soWait := none, fence := none, held := none, kvWait := none }
    else t)
  let groups := s.groups.mapv GroupSt.reset (fun g => { g with
    jobs := [], roots := g.roots.filter (fun r => r.st != RootSt.running), disps := [], holders := [], replays := [] })
  let cores := s.cores.mapv CoreSt.reset (fun c => { c with prods := [], relief := [] })
  let nvme := s.nvme.filter (fun o => o.use == NvmeUse.imageLoad)
  let s := s.dropHeld
  { s with strands := strands, groups := groups, cores := cores, prefetches := [], gathers := [], colls := [], collHeld := []
           nvme := nvme, ingests := [], ckptFlash := [], ckptStore := []
           step := { s.step with active := false } }

/-- Close all connections; nothing waits to be sent. -/
def State.closeAll (s : State) : State :=
  let s := { s with waitSends := [] }
  s.openConns.foldl (fun (s : State) e => s.closeConn e.1) s

/-- The device fences itself (R480): SELF naming the coming beat goes out in markers, cause 14 naming START_BEAT
(R540); strands and engines stop, packets are discarded, connections close, markers stop, the beat unit is DETACHED.
Cause 0 is a group fenced as a whole (R37), for which R480 gives no code: the code in the event is free (log 64). -/
def State.doSelfFence (s : State) (cause named : Nat) : State :=
  let s := (s.put Reg.FLT_STATUS_SELF 1).event 0x0908 (if cause = 0 then (Config.freeByte s.draw 0).toNat else cause)
  let s := if cause = 0 then s.drawn else s
  let s := if s.bt.st = .detached then s else s.sendMarkers none [fenceNotice s.node 4 named]
  let s := (((s.stopEngines).dropRoots none).closeAll).detach
  let st : SvcSt := match s.svc.st with
    | .standby => .standby
    | .unusable => .unusable
    | _ => .selfFenced
  let s := { s with flt := { s.flt with selfCause := none, fencedSelf := true }, svc := { s.svc with st := st } }
  s.abortJoin 1

end Sys2Proof.Machine
end

