-- ==== Sys2Proof/Machine/Tiers.lean ====
section
/-!
DEFINITION. Machine/Tiers.lean: the memory tiers (R391 to R398, R407, R408, R420 to R427, R512): throttling, the
shared pool of frames, mapping changes, scrubbing, retirement and flash.
-/

namespace Sys2Proof.Machine

/-! ### Throttling (R407, R408) -/

/-- The level of a temperature against a threshold. -/
def throttleLevel (t th : Nat) : Nat := if t < th then 0 else min 6 ((t - th) / 2 + 1)

/-- The new level of a stack: it rises at once, and falls by one when T is 1 °C below its lower bound. -/
def nextLevel (old t th : Nat) : Nat :=
  let l := throttleLevel t th
  if old ≤ l then l else if t + 1 ≤ th + 2 * (old - 1) then old - 1 else old

/-- HBM_TEMP_REPORT (R407). -/
def execHbmTempReport (stack : Fin 8) (temp thresh : Byte) (s : State) : Host.Outcome State Fault Refusal :=
  let h := stack.val / 2
  let j := stack.val % 2
  let t := temp.toNat
  let th := thresh.toNat
  .next (
    let old := s.get Reg.MT_THERM_LEVEL h j
    let new := nextLevel old t th
    let s := ((s.put Reg.MT_THERM_TEMP t h j).put Reg.MT_THERM_THRESH th h j).put Reg.MT_THERM_PEAK
      (max t (s.get Reg.MT_THERM_PEAK h j)) h j
    let hot := if th + 15 ≤ t then Tab.get 0 s.hotBeats stack.val + 1 else 0
    let s := { s with hotBeats := Tab.set 0 s.hotBeats stack.val hot }
    if new = old then s
    else ((s.put Reg.MT_THERM_LEVEL new h j).put Reg.MT_STATUS_THROTTLE 1 h).event 0x0701
      (stack.val + new * 2 ^ 3 + t * 2 ^ 8))

/-- STACK_OVERTEMP (R408). -/
def execStackOvertemp (stack : Fin 8) (s : State) : Host.Outcome State Fault Refusal :=
  .next (if 16 ≤ Tab.get 0 s.hotBeats stack.val then
      let s := { s with hotBeats := Tab.set 0 s.hotBeats stack.val 0 }
      (s.event 0x0702 (stack.val + s.get Reg.MT_THERM_TEMP (stack.val / 2) (stack.val % 2) * 2 ^ 8)).selfFence 6
    else s)

/-- At a boundary the levels take effect (R407). -/
def State.latchThrottle (s : State) : State :=
  { s with throttle := (List.range 8).foldl (fun t k => Tab.set 0 t k (s.get Reg.MT_THERM_LEVEL (k / 2) (k % 2))) s.throttle }

/-! ### Physical frames -/

/-- The cells of a table within frame `f`. -/
def frameCells (t : Tab Byte) (f : Nat) : Tab Byte := t.filter (fun e => e.1 / frameBytes == f)

/-- The table with frame `f` zero. -/
def zeroFrame (t : Tab Byte) (f : Nat) : Tab Byte := t.filter (fun e => e.1 / frameBytes != f)

/-- Put the cells of frame `src` at frame `dst`. -/
def putFrame (t : Tab Byte) (cells : Tab Byte) (dst : Nat) : Tab Byte :=
  cells.foldl (fun t e => Tab.set 0 t (dst * frameBytes + e.1 % frameBytes) e.2) (zeroFrame t dst)

/-- The flash frames that mappings hold or move to; frame `f` lies on hub 2 + f mod 2 (log 14). -/
def State.flashUsed (s : State) : List Nat :=
  (List.range 16).flatMap (fun c => ((s.ctx c).maps.filterMap (fun e => e.2)).flatMap (fun (m : Mapping) =>
    (if m.tier = .flash then [m.frame] else []) ++ (match m.moving with
      | some (.flash, f) => [f]
      | _ => [])))

/-- The bytes that checkpoint generations take in flash (R493). -/
def State.genBytes (s : State) : Nat := (s.gens.map (fun g => (g.areas.map (·.2)).sum)).sum

/-- The lowest free frame of a tier (log 14). A flash frame is free when no mapping holds it, its hub is not read-only
(R427) and the usable capacity has room (R426). -/
def State.freeFrame (s : State) (t : Tier) : Option Nat :=
  match t with
  | .hbm => findFrom (fun f => s.frame f == .free) hbmFrames 0
  | .lpddr => findFrom (fun f => s.frame f == .free) lpFrames lpBase
  | .flash =>
    let used := s.flashUsed
    -- two places beyond those in use hold one on either hub
    findFrom (fun f => !used.contains f && !s.flag Reg.MT_FTL_WEAR_READONLY (f % 2)
      && decide ((used.length + 1) * frameBytes + s.genBytes ≤ flashBytes)) (2 * used.length + 2) 0

/-- All mappings: context, virtual frame, mapping. -/
def State.allMaps (s : State) : List (Nat × Nat × Mapping) :=
  (List.range 16).flatMap (fun c => (s.ctx c).maps.filterMap (fun e => e.2.map (fun m => (c, e.1, m))))

/-- Set one mapping of a context. -/
def State.setMap (s : State) (c vf : Nat) (m : Option Mapping) : State :=
  let x := s.ctx c
  s.setCtx c { x with maps := Tab.set none x.maps vf m }

/-- The frames of one context that a mapping holds return through quarantine and scrub (R512); a flash frame is
trimmed. -/
def State.releaseMapping (s : State) (m : Mapping) : State :=
  let s := match m.moving with
    | some (.flash, f) => { s with flash := zeroFrame s.flash f }
    | some (_, f) => s.setFrame f (.quarantine s.beat)
    | none => s
  if m.tier = .flash then { s with flash := zeroFrame s.flash m.frame }
  else if s.frame m.frame == .retired then s else s.setFrame m.frame (.quarantine s.beat)

/-! ### Mapping changes (R395, R507, R508) -/

/-- The virtual frames and attributes that a CTX_MAP maps: with VIEW the ranges of both generations. -/
def MapChange.targets : MapChange → List Nat
  | .map _ vf n _ _ _ _ view g0 g1 =>
    if view then (List.range n).map (g0 + ·) ++ (List.range n).map (g1 + ·) else (List.range n).map (vf + ·)
  | .unmap _ _ _ => []

/-- Whether enough scrubbed frames are free for a mapping. -/
def State.mapReady (s : State) (c : MapChange) : Bool :=
  match c with
  | .map _ _ _ home _ _ _ _ _ _ =>
    let n := c.targets.length
    match home with
    | .hbm => decide (n ≤ hbmFrames - (s.frames.filter (fun e => decide (e.1 < hbmFrames))).length)
    | _ => decide (n ≤ lpFrames - (s.frames.filter (fun e => decide (lpBase ≤ e.1))).length)
  | .unmap _ _ _ => true

/-- Apply a mapping change. -/
def State.applyMap (s : State) (ch : MapChange) : State :=
  match ch with
  | .map c vf n home pin coded ro view g0 g1 =>
    let s := ch.targets.foldl (fun (s : State) v =>
      match s.freeFrame home with
      | some f =>
        (s.setFrame f (.mapped c v)).setMap c v (some
          { frame := f, home := home, tier := home, pin := pin, coded := coded, ro := ro, age := s.beat, moving := none })
      | none => s) s
    if view then
      let x := s.ctx c
      s.setCtx c { x with views := x.views ++ [{ c := vf, g0 := g0, g1 := g1, n := n }] }
    else s
  | .unmap c vf n =>
    let x := s.ctx c
    let gone := x.maps.filterMap (fun e => if vf ≤ e.1 ∧ e.1 < vf + n then e.2 else none)
    let maps := x.maps.filter (fun e => !(decide (vf ≤ e.1) && decide (e.1 < vf + n)))
    let views := x.views.filter (fun v => !(decide (vf ≤ v.c) && decide (v.c + v.n ≤ vf + n)))
    gone.foldl State.releaseMapping (s.setCtx c { x with maps := maps, views := views })

/-- At a boundary the pending mapping changes take effect in order (R395); one that lacks scrubbed frames waits
(R507). The mailbox command ends with its change. -/
def State.applyMapChanges (s : State) : State :=
  s.mapChanges.foldl (fun (s : State) ch =>
    if s.mapReady ch then
      let s := s.applyMap ch
      let s := { s with mapChanges := s.mapChanges.erase ch }
      match s.svc.mbox.job with
      | some (.mapping ch') => if ch' = ch then s.mboxEnd .done 0 else s
      | _ => s
    else s) s

/-! ### Scrubbing and retirement (R474, R512) -/

/-- FRAME_POOL_RETURN (R423, R512): two boundaries after it was released a frame leaves quarantine and waits for its
scrub. While the beat stands still nothing reads it. -/
def execFramePoolReturn (frame : Nat) (s : State) : Host.Outcome State Fault Refusal :=
  .next (match s.frame frame with
    | .quarantine b => if b + 2 ≤ s.beat ∨ s.bt.st = .detached then s.setFrame frame .scrub else s
    | _ => s)

/-- FRAME_SCRUB (R512): the frame is written with zeros and is free. -/
def execFrameScrub (frame : Nat) (s : State) : Host.Outcome State Fault Refusal :=
  .next (match s.frame frame with
    | .scrub => (({ s with mem := zeroFrame s.mem frame }).setFrame frame .free).bump Reg.SEC_SCRUBBED_COUNT
    | _ => s)

/-- A frame with an uncorrectable error is retired at the boundary (R474). Its mapping goes on at the lowest free
frame of its tier, zero, or is lost. -/
def State.retireMapped (s : State) (f : Nat) : State :=
  let s := { s with mem := zeroFrame s.mem f }
  let s := (s.allMaps.filter (fun e => e.2.2.frame == f && e.2.2.tier != .flash)).foldl (fun (s : State) e =>
    let (c, vf, m) := e
    match s.freeFrame m.tier with
    | some g => (s.setFrame g (s.frame f)).setMap c vf (some { m with frame := g })
    | none => s.setMap c vf none) s
  s.retireFrame f

/-- All frames reported since the last boundary. -/
def State.retireAll (s : State) : State :=
  let l := s.flt.retire.eraseDups.filter (fun f => s.frame f != .retired)
  l.foldl State.retireMapped { s with flt := { s.flt with retire := [] } }

/-! ### The shared pool (R420 to R424) -/

/-- Whether a frame of the running context lies in the destination or the watched source of an active prefetch, also
through a view range (R397, R421). -/
def State.prefetchUses (s : State) (vf : Nat) : Bool :=
  let c := s.running.getD 0
  let hits (va n : Nat) : Bool := (framesOf va n).any (fun w => s.viewFrame c w == vf)
  s.prefetches.any (fun p => p.active && (hits p.dst (p.len + p.ra) || (p.watch && hits p.src (p.len + p.ra))))

/-- Whether a mapping may be chosen for a move down (R421). -/
def State.mayAge (s : State) (e : Nat × Nat × Mapping) : Bool :=
  let (c, vf, m) := e
  let run := s.running == some c
  !m.pin && m.moving.isNone && (match s.frame m.frame with
    | .mapped _ _ => true
    | _ => false)
    && !(run && s.prefetchUses vf) && !(run && decide (s.beat ≤ m.age + 1))

/-- Order candidates: oldest AGE first, ties to the lower physical frame; `young` reverses the age. -/
def moveOrder (young : Bool) (l : List (Nat × Nat × Mapping)) : List (Nat × Nat × Mapping) :=
  l.stableSort (fun a b =>
    let x := a.2.2
    let y := b.2.2
    if x.age = y.age then decide (x.frame ≤ y.frame) else if young then decide (y.age ≤ x.age) else decide (x.age ≤ y.age))

/-- Start the move of a mapping to a tier, if it has a free frame. -/
def State.startMove (s : State) (e : Nat × Nat × Mapping) (t : Tier) : Option State :=
  (s.freeFrame t).map (fun f =>
    let s := if t = .flash then s else s.setFrame f (.mapped e.1 e.2.1)
    s.setMap e.1 e.2.1 (some { e.2.2 with moving := some (t, f) }))

/-- Start up to `n` moves; the second component tells whether one found no frame (R424). -/
def State.startMoves (s : State) (t : Tier) (l : List (Nat × Nat × Mapping)) (n : Nat) : State × Bool :=
  (l.take n).foldl (fun (acc : State × Bool) e =>
    match acc.1.startMove e t with
    | some s' => (s', acc.2)
    | none => (acc.1, true)) (s, false)

/-- Free frames of HBM or of LPDDR. -/
def State.freeIn (s : State) (t : Tier) : Nat :=
  if t = .hbm then hbmFrames - (s.frames.filter (fun e => decide (e.1 < hbmFrames))).length
  else lpFrames - (s.frames.filter (fun e => decide (lpBase ≤ e.1))).length

/-- POOL_LOW (R424, R433), once per step: `t` is the tier that is short of frames (log 49). -/
def State.poolLow (s : State) (t : Tier) : State :=
  if s.step.poolLowSent then s
  else
    let s := { s with step := { s.step with poolLowSent := true } }
    (s.put Reg.MT_STATUS_POOL_LOW 1).event 0x0706 ((if t = .hbm then 0 else 1) + s.freeIn t * 2 ^ 8)

/-- The frames of a switch target that lie in flash start to move back (R398, R509). -/
def State.returnTarget (s : State) : State :=
  match s.sec.switchTo with
  | some (t, _) =>
    let l := s.allMaps.filter (fun e => e.2.2.tier == .flash && e.1 == t.val && e.2.2.moving.isNone)
    (l.take (s.get Reg.MT_POOL_CFG_RATE)).foldl (fun (s : State) e =>
      match s.startMove e e.2.2.home with
      | some s' => s'
      | none => s.poolLow e.2.2.home) s
  | none => s

/-- The context that the device switches to, or is to switch to: none of its frames goes to flash (R398). -/
def State.isTarget (s : State) (c : Nat) : Bool :=
  s.sec.switchTo.any (fun t => t.1.val == c) || s.sec.switching.any (fun t => t.1.val == c)

/-- The tier engines at a boundary (R421, R422): down moves below the watermarks, returns above HBM_HIGH, and the
frames of a switch target that lie in flash (R398, R509). -/
def State.agePool (s : State) : State :=
  let rate := s.get Reg.MT_POOL_CFG_RATE
  let inTier (t : Tier) (s : State) : List (Nat × Nat × Mapping) := s.allMaps.filter (fun e => e.2.2.tier == t)
  let s := if s.freeIn .hbm < s.get Reg.MT_POOL_CFG_HBM_LOW then
      let r := s.startMoves .lpddr (moveOrder false ((inTier .hbm s).filter s.mayAge)) rate
      if r.2 then r.1.poolLow .hbm else r.1
    else s
  let s := if s.freeIn .lpddr < s.get Reg.MT_POOL_CFG_LP_LOW then
      let l := (inTier .lpddr s).filter (fun e => s.mayAge e && (s.ctx e.1).st == .suspended && !s.isTarget e.1)
      let r := s.startMoves .flash (moveOrder false l) rate
      if r.2 then r.1.poolLow .lpddr else r.1
    else s
  let s := if s.get Reg.MT_POOL_CFG_HBM_HIGH < s.freeIn .hbm then
      let l := (inTier .lpddr s).filter (fun e =>
        e.2.2.home == .hbm && e.2.2.moving.isNone && s.running == some e.1)
      let r := s.startMoves .hbm (moveOrder true l) rate
      if r.2 then r.1.poolLow .hbm else r.1
    else s
  s.returnTarget

/-- Moves of a context's frames to flash that have not ended are given up, since it runs again (R398, R425). -/
def State.cancelFlash (s : State) (c : Nat) : State :=
  let x := s.ctx c
  let maps := x.maps.map (fun e => (e.1, e.2.map (fun (m : Mapping) =>
    { m with moving := if m.moving.any (fun t => t.1 == .flash) then none else m.moving })))
  s.setCtx c { x with maps := maps }

/-- POOL_MOVE_DONE (R423): the frame's contents are at their new place, the mapping changes TIER, and the old frame
goes into quarantine. A move to a hub that has become read-only does not end: the frame stays (R427). -/
def execPoolMoveDone (frame : Nat) (s : State) : Host.Outcome State Fault Refusal :=
  .next (match s.allMaps.find? (fun e => e.2.2.frame == frame && e.2.2.moving.isSome) with
    | some (c, vf, m) =>
      match m.moving with
      | none => s
      | some (t, f) =>
        if t = .flash ∧ s.flag Reg.MT_FTL_WEAR_READONLY (f % 2) = true then s.setMap c vf (some { m with moving := none })
        else
        let cells := if m.tier = .flash then frameCells s.flash m.frame else frameCells s.mem m.frame
        let s := if t = .flash then { s with flash := putFrame s.flash cells f } else { s with mem := putFrame s.mem cells f }
        let s := s.setMap c vf (some { m with frame := f, tier := t, moving := none })
        let s := if m.tier = .flash then { s with flash := zeroFrame s.flash m.frame }
          else s.setFrame m.frame (.quarantine s.beat)
        let s := if t = .flash then s.bump Reg.MT_FTL_WRITTEN_COUNT (f % 2) 0 frameBytes else s
        if t = .hbm ∧ m.tier = .lpddr then s.bump Reg.MT_POOL_RETURNED_COUNT
        else if m.tier = .flash then s else s.bump Reg.MT_POOL_MOVED_COUNT
    | none => s)

/-! ### Flash (R426, R427) -/

/-- FTL_BACKGROUND_WORK: blocks reclaimed, retired and refreshed, and bytes written. The wear that the reclaims add
is a measurement of the device: a free value no lower than before. -/
def execFtlBackgroundWork (hub3 : Bool) (reclaimed retired refreshed : Nat) (written : Nat) (s : State) :
    Host.Outcome State Fault Refusal :=
  .next (
    let h := hub3.toNat
    let old := s.get Reg.MT_FTL_SPARE_BLOCKS h
    let new := old - retired
    let init := Config.spareBlocks h
    let s := (((s.put Reg.MT_FTL_SPARE_BLOCKS new h).bump Reg.MT_FTL_RETIRED_COUNT h 0 retired).bump
      Reg.MT_FTL_REFRESH_COUNT h 0 refreshed).bump Reg.MT_FTL_WRITTEN_COUNT h 0 written
    let s := if reclaimed = 0 then s
      else s.drawn.put Reg.MT_FTL_WEAR_PCT (max (s.get Reg.MT_FTL_WEAR_PCT h) ((Config.freeWord s.draw).toNat % 256)) h
    let s := if new * 10 < init ∧ init ≤ old * 10 then
        (s.put Reg.MT_STATUS_FTL 1 (2 + h)).event 0x0707 (h + new * 2 ^ 8) else s
    if new = 0 ∧ 0 < old then
      ((s.put Reg.MT_FTL_WEAR_READONLY 1 h).put Reg.MT_STATUS_FTL 1 (2 + h)).event 0x0708 h
    else s)

end Sys2Proof.Machine
end

