-- ==== Sys2Proof/Machine/Entry.lean ====
section
/-!
DEFINITION. Machine/Entry.lean: which context the device shows (R504), step entry (R37, R79 to R98, R567, R568), and
the refills it enables (R490).
-/

namespace Sys2Proof.Machine

/-! ### The context that the device shows (R504) -/

/-- Whether a register keeps a value for each context: UE_STEP, `UE_SEED`, `UE_GSCALE`, `UE_DSTEP`, the clean run and
the silent table. -/
def isCtxReg (off : Nat) : Bool :=
  off == Reg.UE_STEP_STEP.off 0 0 || off == Reg.UE_SEED_SEED.off 0 0 || off == Reg.UE_GSCALE_EXP.off 0 0
    || off == Reg.UE_DSTEP_DSTEP.off 0 0 || off == Reg.UE_CLEAN_RUN_COUNT.off 0 0
    || (decide (Reg.UE_SILENT_TAB_COUNT.off 0 0 ≤ off) && decide (off < Reg.UE_SILENT_TAB_COUNT.off 0 0 + 2048))

/-- Save the values of the context that the device shows. -/
def State.saveShown (s : State) : State :=
  match s.sec.shown with
  | none => s
  | some c =>
    let sv : Saved := { so := s.so, regs := s.regs.filter (fun e => isCtxReg e.1), flt := s.flt.map }
    s.setCtx c { s.ctx c with saved := sv }

/-- Show a context: its sync objects, its registers and its fault history. -/
def State.showCtx (s : State) (c : Nat) : State :=
  if s.sec.shown = some c then s
  else
    let s := s.saveShown
    let sv := (s.ctx c).saved
    let regs := sv.regs.foldl (fun t e => Tab.set 0 t e.1 e.2) (s.regs.filter (fun e => !isCtxReg e.1))
    { s with so := sv.so, regs := regs, flt := { s.flt with map := sv.flt }, sec := { s.sec with shown := some c } }

/-- Set a register of a context, shown or saved. -/
def State.putCtx (s : State) (c : Nat) (f : Fld) (v : Nat) : State :=
  if s.sec.shown = some c then s.put f v
  else
    let x := s.ctx c
    let w := f.ins (Tab.get 0 x.saved.regs (f.off 0 0) ^^^ resetWord (f.off 0 0)) v
    s.setCtx c { x with saved := { x.saved with regs := Tab.set 0 x.saved.regs (f.off 0 0) (w ^^^ resetWord (f.off 0 0)) } }

/-- The fault history of a context, shown or saved. -/
def State.fltOf (s : State) (c : Nat) : FaultMap := if s.sec.shown = some c then s.flt.map else (s.ctx c).saved.flt

/-- Set the fault history of a context. -/
def State.setFlt (s : State) (c : Nat) (m : FaultMap) : State :=
  if s.sec.shown = some c then { s with flt := { s.flt with map := m } }
  else s.setCtx c { s.ctx c with saved := { (s.ctx c).saved with flt := m } }

/-! ### The programs in force (R37, R94, R96, R97, R567) -/

/-- The physical groups that logical groups 0, 1, … of a job are placed on at its first step entry (R37). -/
def State.newPlacement (s : State) : List Nat :=
  ((List.range 12).filter (fun g => !(s.group g).whole)).take (imgGroups s.img)

/-- The physical groups that carry logical groups 0, 1, …: the job's placement, which holds for the whole job (R37). -/
def State.placement (s : State) : List Nat :=
  ((s.running.bind (fun c => (s.ctx c).job)).bind (fun j => j.place)).getD s.newPlacement

/-- The first step entry of a job fixes its placement. -/
def State.fixPlacement (s : State) (c : Nat) : State :=
  let x := s.ctx c
  let place := s.placement
  s.setCtx c { x with job := x.job.map (fun j => { j with place := some place }) }

/-- The role mask of this device for the failed nodes of the job, in the layout of SURVIVOR ROLES (R97). -/
def FaultMap.roleMask (m : FaultMap) : Nat :=
  ((m.failed[0]?).map (fun f => f.role.toNat)).getD 0 + 8 * ((m.failed[1]?).map (fun f => f.role.toNat)).getD 0

/-- The SURVIVOR record in force: its role mask and mode match (R96, R98). -/
def State.survivor (s : State) : Option Overlay :=
  let m := s.flt.map.roleMask
  if m = 0 then none
  else (survivorOvls s.img).find? (fun o => fld o.head 0 2 == m && fld o.head 2 1 == s.modeInForce.toNat)

/-- Whether the role mask has no SURVIVOR record (R98). -/
def State.survivorMissing (s : State) : Bool := s.flt.map.roleMask != 0 && s.survivor.isNone

/-- The MODE_OVL record of the mode in force (R91). -/
def State.modeOvl (s : State) : Option Overlay :=
  if s.modeInForce = 0 then none else (modeOvls s.img).find? (fun o => fld o.head 0 1 == s.modeInForce.toNat)

/-- The fenced cores of a physical group as a mask. -/
def State.groupMask (s : State) (g : Nat) : Nat := ((fencedIn s.flt.fenced g).map (fun k => 2 ^ k)).sum

/-- The entry of an overlay or of the base programs for a core and a strand. -/
def findEntry (l : List ProgEntry) (core strand : Nat) : Option ProgEntry :=
  l.find? (fun e => e.core == core && e.strand == strand)

/-- The FENCE_OVL record of logical group `gl` on physical group `g` (R94); ROLES is the survivor's role mask when the
survivor record holds an entry for a core of the group (R567). -/
def State.fenceOvl (s : State) (gl g : Nat) : Option Overlay :=
  let roles := match s.survivor with
    | some o => if o.entries.any (fun e => e.core / 8 == gl) then s.flt.map.roleMask else 0
    | none => 0
  (fenceOvls s.img).find? (fun o => fld o.head 0 1 == gl && fld o.head 1 1 == s.groupMask g
    && fld o.head 2 1 == s.modeInForce.toNat && fld o.head 14 2 == roles)

/-- The physical core that hosts a logical core under the overlays in force (R88, R93). DESIGN CHOICE (log 76): R88 names
no source for it in a group with fenced cores, and the model takes LMAP of the fence overlay. -/
def State.hostCore (s : State) (core : Nat) : Nat :=
  let gl := core / 8
  let g := s.placement.getD gl gl
  if s.groupMask g = 0 then 8 * g + core % 8
  else match s.fenceOvl gl g with
    | some o => 8 * g + fld o.head (6 + core % 8) 1
    | none => 8 * g + core % 8

/-- The programs of a logical group on a physical one: physical core, strand, entry (R567). None when the group needs a
record that the image does not hold. -/
def State.groupPrograms (s : State) (gl g : Nat) : Option (List (Nat × Nat × ProgEntry)) :=
  let sites := (List.range 32).map (fun k => (k / 4, k % 4))
  let at_ (pick : Nat → Nat → Option ProgEntry) : List (Nat × Nat × ProgEntry) :=
    sites.filterMap (fun q => (pick q.1 q.2).bind (fun e => if e.enable then some (8 * g + q.1, q.2, e) else none))
  if s.groupMask g = 0 then
    let surv := (s.survivor.map (fun o => o.entries)).getD []
    let mode := (s.modeOvl.map (fun o => o.entries)).getD []
    let base := basePrograms s.img
    some (at_ (fun k n => (findEntry surv (8 * gl + k) n).or ((findEntry mode (8 * gl + k) n).or
      (findEntry base (8 * gl + k) n))))
  else (s.fenceOvl gl g).map (fun o => at_ (fun k n => findEntry o.entries k n))

/-- A strand under its program: the init block, then the failed nodes of the survivor record (R72, R87, R97). -/
def State.enterStrand (s : State) (e : ProgEntry) : Strand :=
  let r : List (Nat × W64) × List (Nat × W64) := match e.init with
    | some o => initRegs s.img o
    | none => ([], [])
  let sreg : Tab W64 := r.1.foldl (fun t x => Tab.set 0 t x.1 x.2) []
  let areg : Tab W64 := r.2.foldl (fun t x => Tab.set 0 t x.1 x.2) []
  let node (k : Nat) : W64 := match s.flt.map.failed[k]? with
    | some f => BitVec.ofNat 64 f.node
    | none => 0x8000
  let sreg := match s.survivor with
    | some o => Tab.set 0 (Tab.set 0 sreg (fld o.head 3 1) (node 0)) (fld o.head 3 1 + 1) (node 1)
    | none => sreg
  { Strand.reset with sreg := sreg, areg := areg, pc := BitVec.ofNat 32 e.entry, st := .run, enabled := true }

/-- The overlays of a step entry (R80 step 1, R94): each placed group shows its fence overlay, every other group none; a
group whose record the image does not hold is treated as fenced as a whole (R37). -/
def State.showOverlays (s : State) : State :=
  let s := (List.range 12).foldl (fun (t : State) g => t.setGroup g { t.group g with ovl := 0, ovlMode := 0 }) s
  ((List.range s.placement.length).zip s.placement).foldl (fun (t : State) q =>
    if (t.groupPrograms q.1 q.2).isNone then t.selfFence 0
    else
      let mask := t.groupMask q.2
      t.setGroup q.2 { t.group q.2 with
        ovl := BitVec.ofNat 8 mask, ovlMode := if mask = 0 then 0 else t.modeInForce }) s

/-- Start the strands of one logical group. -/
def State.enterGroup (s : State) (gl g : Nat) : State :=
  ((s.groupPrograms gl g).getD []).foldl (fun (t : State) q =>
    { t with strands := Tab.set Strand.reset t.strands (4 * q.1 + q.2.1) (s.enterStrand q.2.2) }) s

/-! ### What step entry ends (R80, R297, R313, R329, R349, R415, R443, R568) -/

/-- A product that step entry stops: the accumulators it was writing and their marks hold undefined contents (R568). -/
def State.stopProduct (s : State) (core : Nat) (p : Product) : State :=
  p.pending.foldl (fun (t : State) r =>
    let bs := freeBytes t.draw (r.2 * unitBytes)
    let w := Config.freeWord t.draw
    let mark : Option Int := if w.getLsbD 63 then none else some (w.setWidth 10).toInt
    ((t.drawn.twrite core (r.1 * unitBytes) bs).setMarks core r.1 r.2 mark)) s

/-- A core at step entry: its array is empty, products and relief replays are stopped, and its step flags are clear. -/
def State.enterCore (s : State) (core : Nat) : State :=
  let s := ((s.core core).prods ++ (s.core core).relief.map (·.2)).foldl (fun (t : State) p => t.stopProduct core p) s
  let s := s.setCore core { s.core core with
    cur := 0, left := false, stat := none, prods := [], relief := [], nonfinSent := false, emptySent := false, missSent := false
    dropSent := false, posted := 0 }
  if s.get Reg.CORE_NUM_FLAGS_STEP_FLAG core = 0 then s else s.put Reg.CORE_NUM_FLAGS_STEP_FLAG 0 core

/-- A group at step entry: its update jobs and dispatches are discarded; PRECON jobs go on. -/
def State.enterGroupUnits (s : State) (g : Nat) : State :=
  s.setGroup g { s.group g with
    jobs := [], disps := [], holders := [], replays := [], dropSent := false, nanSent := false, satSent := false }

/-- A connection of the context at step entry (R443). -/
def Conn.restart (c : Conn) : Conn :=
  { c with txPsn := 0, txMsg := 0, rxNext := 0, rxSeen := [], rxHeld := [], unacked := [], ackDue := 0 }

/-- Prefetches, dispatches, collectives, the page cache and unacknowledged traffic of the context end. -/
def State.dropStep (s : State) (c : Nat) : State :=
  let gone := s.pages.cache
  let s := s.dropHeld
  let s := { s with pages := { s.pages with cache := [], frees := [] } }
  let s := gone.foldl State.evictCached s
  let conns : Tab Conn := s.conns.mapv Conn.reset (fun x => if x.ctx = c then x.restart else x)
  let s := { s with
    conns := conns, waitSends := s.waitSends.filter (fun w => w.ctx != c), prefetches := [], gathers := [], colls := []
    collNext := [], circNext := [], collHeld := [], strands := [] }
  let s := (List.range 12).foldl State.enterGroupUnits s
  let s := (List.range 96).foldl State.enterCore s
  s.emptyPool c

/-- Write the sync objects that the image's sync table names (R80, R88). DESIGN CHOICE (log 76): a record with neither
HOLD nor RHOLD, whose object is FREE, leaves holder NODE 0 and CORE 0x7F. -/
def State.writeSyncTable (s : State) (c : Nat) : State :=
  (syncRecs s.img).foldl (fun (t : State) r =>
    let o : SyncObj :=
      { count := BitVec.ofNat 32 r.count, thresh := BitVec.ofNat 32 r.thresh
        node := BitVec.ofNat 15 (if r.hold then t.node else if r.rhold then r.node else 0)
        valid := r.hold || r.rhold, core := if r.hold then BitVec.ofNat 7 (t.hostCore r.core) else 0x7F
        status := if r.hold || r.rhold then .held else .free, ctx := BitVec.ofNat 4 c }
    t.setObj r.index o) s

/-! ### Modes and the cap (R90 to R92, R556) -/

/-- Whether an image supports a mode (R91). -/
def imgHasMode (img : List Byte) (mode : Nat) : Bool :=
  mode == 0 || (modeOvls img).any (fun o => fld o.head 0 1 == mode)

/-- The pending mode and cap come into force; a mode that the image does not support is refused (R92). -/
def State.takeMode (s : State) : State :=
  let req := s.get Reg.PWR_MODE_REQ
  let cap := max 900 (min 1500 (s.get Reg.PWR_CAP_WATTS))
  let pend := s.modePend
  let s := { s with capInForce := cap, modePend := false }
  if pend = false ∨ req = s.modeInForce.toNat then s
  else if imgHasMode s.img req then { s with modeInForce := BitVec.ofNat 2 req }
  else s.event 0x0B21 req

/-! ### Refills (R489, R490, R492) -/

/-- A set whose new holder is still being refilled. -/
def PartnerSet.refilling (x : PartnerSet) : Bool := x.newHolder.isSome && !x.lost

/-- The order in which an owner serves its sets: oldest exposure first. -/
def FaultMap.refillOrder (m : FaultMap) (owner : Nat) : List Nat :=
  let l := m.indices.filter (fun k => (m.sets[k]?).any (fun x => x.refilling && x.owner == owner))
  l.stableSort (fun a b =>
    let age (k : Nat) : Nat := ((m.sets[k]?).bind (fun x => x.exposed)).getD (2 ^ 64)
    decide (age a ≤ age b))

/-- The layers from `k` up that fit a budget of bytes. -/
def layersFit (bytes : Tab Nat) : Nat → Nat → Nat → Nat × Nat
  | 0, k, budget => (k, budget)
  | fuel + 1, k, budget =>
    let n := Tab.get 0 bytes k
    if n ≤ budget then layersFit bytes fuel (k + 1) (budget - n) else (k, budget)

/-- At step entry each owner enables the tee of the next layers (R490); the layers' bytes are those of the last
complete step on this device. -/
def State.enableRefills (s : State) (m : FaultMap) : FaultMap :=
  let budget := max 1 (s.get Reg.FLT_REFILL_MIB) * 2 ^ 20
  let owners := (m.sets.filter PartnerSet.refilling).map (·.owner) |>.eraseDups
  owners.foldl (fun (m : FaultMap) o =>
    ((m.refillOrder o).foldl (fun (acc : FaultMap × Nat) k =>
      match acc.1.sets[k]? with
      | none => acc
      | some x =>
        let r := layersFit m.layers (1024 - x.nextLayer) x.nextLayer acc.2
        (acc.1.setSet k { x with nextLayer := r.1 }, r.2)) (m, budget)).1) m

/-! ### Step entry (R80) -/

/-- GS at the first step entry after image load (R387). -/
def State.gsRange (s : State) : Int × Int :=
  let lo := (BitVec.ofNat 8 (s.get Reg.UE_GS_CFG_MIN)).toInt
  let hi := (BitVec.ofNat 8 (s.get Reg.UE_GS_CFG_MAX)).toInt
  (lo, max lo hi)

/-- A value clamped into the range of GS. -/
def State.clampTo (s : State) (v : Int) : Int := max s.gsRange.1 (min s.gsRange.2 v)

/-- GS. -/
def State.gs (s : State) : Int := (BitVec.ofNat 8 (s.get Reg.UE_GSCALE_EXP)).toInt

/-- Set GS of a context. -/
def State.initGs (s : State) (c : Nat) : State :=
  s.putCtx c Reg.UE_GSCALE_EXP (BitVec.ofInt 8 (s.clampTo (BitVec.ofNat 8 (s.get Reg.UE_GS_CFG_INIT)).toInt)).toNat

/-- The members that joined as spares are admitted at the step entry (R562, R569): the assignment of marker peers and the
reference follow the members. -/
def State.admitSpares (s : State) : State :=
  let m := s.flt.map
  let new := s.svc.spares.filter (fun n => n != s.node && !m.members.contains n && !s.isFenced n)
  if new.isEmpty then s
  else
    let s := { s with flt := { s.flt with map := { m with members := (m.members ++ new).stableSort (· ≤ ·) } } }
    let s := match pairing s.peerSet s.bt.assign with
      | some f => s.assign f s.bt.assign
      | none => s
    new.foldl State.lowerReference s

/-- Step entry of the running context at the boundary that opens the current beat (R79, R80, R443). The step-entry
count is 0 at the job's first step entry; a spare goes on from the count of its formation exchange. -/
def State.stepEntry (s : State) : State :=
  match s.running with
  | none => s
  | some c =>
    match (s.ctx c).job with
    | none => s
    | some j =>
      let first := !j.entered
      let x := s.ctx c
      let s := s.setCtx c { x with
        newImage := false, job := some { j with entered := true }, entries := if first && !j.spare then 0 else x.entries + 1 }
      let s := if (first || x.newImage) && !j.spare then s.initGs c else s
      -- what arose after the cut counts in this step (R383), and so does a supply guard that is active as it begins (R379)
      let late := if s.step.cut.isSome then s.step.contrib else 0
      let contrib := if s.flt.guard then late ||| 4 else late
      let s := s.dropStep c
      let s := s.admitSpares
      let map := s.enableRefills s.flt.map
      let s := { s with
        flt := { s.flt with map := map, layerBytes := [], discardSent := [], dbgSent := [] }
        step := { StepUnit.reset with
          active := true, seed := s.word (Reg.UE_SEED_SEED.off 0 0)
          firstBeat := s.beat, beats := imgStepBeats s.img s.modeInForce.toNat, contrib := contrib } }
      -- a spare runs no programs (R562)
      if j.spare then s
      else
      let s := (s.writeSyncTable c).resetRing
      ((List.range s.placement.length).zip s.placement).foldl (fun (t : State) q => t.enterGroup q.1 q.2) s

end Sys2Proof.Machine
end

