-- ==== Sys2Proof/Machine/Action.lean ====
section
/-!
DEFINITION. Machine/Action.lean: the action at a step's end (R385 to R390) and what hangs on it: loss scaling, the
silent-layer watch (R355), refills (R490), checkpoints (R494).
-/

namespace Sys2Proof.Machine

/-- The action of a step end (R385). -/
inductive StepAction where
  | commit | skip | replay | stop
deriving DecidableEq, Repr

/-- Its code in `UE_LAST.ACTION` (R389). -/
def stepActionCode : StepAction → Nat
  | .commit => 0
  | .skip => 1
  | .replay => 2
  | .stop => 3

/-- The action that a verdict selects (R385). -/
def actionOf (v : W16) : StepAction :=
  if v.getLsbD 5 then .stop
  else if v.getLsbD 1 || v.getLsbD 2 || v.getLsbD 3 || v.getLsbD 4 then .replay
  else if v.getLsbD 0 then .skip
  else .commit

/-- The action at a boundary that ends a step: `fence` says that a device or core fence commits here. The second
component tells that the verdict is missing (R481). -/
def State.chooseAction (s : State) (fence : Bool) : StepAction × Bool :=
  if s.flt.stop then (.stop, false)
  else if fence then (.replay, false)
  else match s.step.reduced with
    | none => (.stop, true)
    | some v => (actionOf v, false)

/-! ### Loss scaling (R386 to R388) -/

/-- Set GS of the running context. -/
def State.putGs (s : State) (v : Int) : State := s.put Reg.UE_GSCALE_EXP (BitVec.ofInt 8 v).toNat

/-- A GS outside its range is first clamped, and the clean run restarts (R387). -/
def State.clampGs (s : State) : State :=
  if s.clampTo s.gs = s.gs then s else (s.putGs (s.clampTo s.gs)).put Reg.UE_CLEAN_RUN_COUNT 0

/-- The bits of 2^GS as FP32. -/
def pow2Bits (g : Int) : Nat :=
  if -126 ≤ g then (g + 127).toNat * 2 ^ 23 else 2 ^ (g + 149).toNat

/-- The GS record (R388). -/
def State.writeGs (s : State) (c : Nat) : State :=
  if s.flag Reg.UE_GS_ADDR_EN then
    s.store c (s.get Reg.UE_GS_ADDR_ADDR) (toBytes 4 (BitVec.ofInt 32 s.gs).toNat ++ toBytes 4 (pow2Bits s.gs))
  else s

/-- A commit lengthens the clean run and may raise GS (R386). -/
def State.growGs (s : State) : State :=
  let run := s.get Reg.UE_CLEAN_RUN_COUNT + 1
  if s.get Reg.UE_SCALE_CFG_GROWTH ≤ run ∧ s.gs < s.gsRange.2 then
    (s.putGs (s.gs + 1)).put Reg.UE_CLEAN_RUN_COUNT 0
  else s.put Reg.UE_CLEAN_RUN_COUNT run

/-- A skip lowers GS, or raises GS_FLOOR (R386, R387). -/
def State.lowerGs (s : State) : State :=
  let s' := if s.gs ≤ s.gsRange.1 then
      (s.put Reg.UE_STEP_STATUS_GS_FLOOR 1).event 0x060C (s.get Reg.UE_GSCALE_EXP)
    else s.putGs (s.gs - 1)
  s'.put Reg.UE_CLEAN_RUN_COUNT 0

/-! ### The silent-layer watch (R355) -/

/-- Set the silent count of a layer. -/
def State.setSilent (s : State) (layer n : Nat) : State :=
  let off := Reg.UE_SILENT_TAB_COUNT.off 0 (layer / 4)
  let w := (s.word off).toNat
  s.setWord off (BitVec.ofNat 64 (w - bits w (16 * (layer % 4)) 16 * 2 ^ (16 * (layer % 4)) + n * 2 ^ (16 * (layer % 4))))

/-- The counts at a commit. -/
def State.commitSilent (s : State) : State :=
  s.step.watch.foldl (fun (s : State) e =>
    if e.2 = 1 then
      let old := s.silentCount e.1
      let n := min 65535 (old + 1)
      let s := s.setSilent e.1 n
      if old < s.silentLimit ∧ s.silentLimit ≤ n then
        (s.put Reg.UE_STATUS_SILENT 1).event 0x0604 (e.1 + n * 2 ^ 16)
      else s
    else s.setSilent e.1 0) s

/-! ### Refills at a commit (R490, R540) -/

/-- A set all of whose layers are refilled gets its new holder. The owner raises REFILL_DONE. -/
def State.commitSet (s : State) (acc : FaultMap × List (Nat × Nat)) (k : Nat) : FaultMap × List (Nat × Nat) :=
  match acc.1.sets[k]? with
  | none => acc
  | some x =>
    match x.newHolder with
    | some h =>
      if 1024 ≤ x.nextLayer ∧ x.lost = false then
        let x' := { x with holders := x.holders ++ [h], newHolder := none, nextLayer := 0, exposed := none }
        (acc.1.setSet k x', acc.2 ++ (if x.owner = s.node then [(0x090C, x.owner + h * 2 ^ 15)] else []))
      else acc
    | none =>
      -- a set that has counted as exposed since a FRESH or STORE start is complete at its holder
      if x.exposed.isSome ∧ x.holders ≠ [] ∧ x.lost = false then (acc.1.setSet k { x with exposed := none }, acc.2)
      else acc

/-- The partner map at a commit. -/
def State.commitRefills (s : State) : State :=
  let r := s.flt.map.indices.foldl s.commitSet (s.flt.map, [])
  let s := { s with flt := { s.flt with map := { r.1 with layers := s.flt.layerBytes } } }
  r.2.foldl (fun (s : State) e => s.event e.1 e.2) s

/-! ### Checkpoints (R494) -/

/-- Checkpoints still incomplete at the step end are abandoned: CKPT_LATE, and DONE is incremented. -/
def State.ckptLate (s : State) : State :=
  let fl := s.ckptFlash
  let st := s.ckptStore
  let nvme := s.nvme.filter (fun o => o.use != NvmeUse.ckptStore)
  let s := { s with ckptFlash := [], ckptStore := [], nvme := nvme }
  let s := fl.foldl (fun (s : State) (j : CkptJob) => (s.event 0x0B60 0).soAdd j.done 1) s
  st.foldl (fun (s : State) (j : CkptJob) => (s.event 0x0B60 1).soAdd j.done 1) s

/-! ### The action takes effect (R386 to R388) -/

/-- What each action does to UE_STEP, DSTEP, GS, the clean run, the counters and the pending FREE commands. -/
def State.actionRegs (s : State) (a : StepAction) : State :=
  let s := s.clampGs
  match a with
  | .commit =>
    let s := s.applyFrees
    ((((s.bump Reg.UE_STEP_STEP).bump Reg.UE_DSTEP_DSTEP).growGs).put Reg.UE_REPLAY_RUN_COUNT 0)
  | .skip =>
    (((s.bump Reg.UE_DSTEP_DSTEP).bump Reg.UE_SKIPS_COUNT).lowerGs).put Reg.UE_REPLAY_RUN_COUNT 0
  | .replay => (s.bump Reg.UE_REPLAYS_COUNT).bump Reg.UE_REPLAY_RUN_COUNT
  | .stop => s.put Reg.UE_REPLAY_RUN_COUNT 0

/-- A replay beyond the limit of consecutive replays becomes STOP (R387). -/
def State.limitReplay (s : State) (a : StepAction) : State × StepAction :=
  let run := s.get Reg.UE_REPLAY_RUN_COUNT
  match a with
  | .replay =>
    if max 1 (s.get Reg.UE_REPLAY_CFG_LIMIT) ≤ run then
      ((s.put Reg.UE_STEP_STATUS_REPLAY_LIMIT 1).event 0x060B run, .stop)
    else (s, .replay)
  | _ => (s, a)

/-- The shadow rotation advances at COMMIT and SKIP (R472). -/
def State.advanceSample (s : State) (a : StepAction) : State :=
  match a with
  | .commit | .skip =>
    let groups := s.groups.mapv GroupSt.reset (fun g => { g with shadow := [] })
    ({ s with groups := groups }).bump Reg.FLT_SAMPLE_INDEX
  | _ => s

/-- The action of a step end, with its record, its event, the pool and the GS record (R386 to R390). -/
def State.applyAction (s : State) (c : Nat) (a : StepAction) (v : Nat) : State × StepAction :=
  let r := s.limitReplay a
  let a := r.2
  let old := r.1.ueStep
  let s := r.1.actionRegs a
  let s := { s with pages := { s.pages with frees := [] } }
  let s := match a with
    | .commit => (s.commitSilent).commitRefills
    | _ => s
  let s := s.advanceSample a
  let s := ((s.put Reg.UE_LAST_VERDICT v).put Reg.UE_LAST_ACTION (stepActionCode a)).put Reg.UE_LAST_STEP old
  let s := match a with
    | .commit => s
    | _ => s.event 0x0609 (v % 2 ^ 16 + stepActionCode a * 2 ^ 16)
  let s := s.ckptLate
  ((s.emptyPool c).writeGs c, a)

end Sys2Proof.Machine
end

