-- ==== Sys2Proof/Machine/Routing.lean ====
section
/-!
DEFINITION. Machine/Routing.lean: RTOPK, DISP and CMB (R140, R300 to R315, R319 to R321) and the count and
grant frames of a dispatch. A frame from this device to itself is taken at once.
-/

namespace Sys2Proof.Machine

/-! ### RTOPK (R300 to R302) -/

/-- The order of ranks: descending logit, NaN below −∞, ties to the lower expert (R301). -/
def ranksBefore (x y : Fv × Nat) : Bool :=
  if y.1.isNan then !x.1.isNan || decide (x.2 ≤ y.2)
  else if x.1.isNan then false
  else if y.1.lt x.1 then true
  else if x.1.lt y.1 then false else decide (x.2 ≤ y.2)

/-- A logit that can be claimed: neither −∞ nor NaN (R301). -/
def claimable (x : Fv) : Bool := !x.isNan && x != .inf true

/-- The 16 best-ranked experts of a row, each with its logit. -/
def rankRow (row : List Fv) : List (Fv × Nat) :=
  ((row.zip (List.range row.length)).stableSort ranksBefore).take 16

/-- The weights of the choices as FP32 codes (R302). -/
def routeWeights (norm k : Nat) (row : List Fv) (ranks : List (Fv × Nat)) : List Fv :=
  let xs := (ranks.take k).map (·.1)
  let top := (ranks.headD (.inf true, 0)).1
  let e (x : Fv) : Fv := if claimable x then expSub x top else fzero
  let total := if norm = 0 then treeFold fadd 13 (xs.map e) else treeFold fadd 13 (row.map e)
  xs.map (fun x =>
    if !claimable x then fzero else if norm = 2 then x else fdiv (e x) total)

/-- A selection entry (R300); the expert field of a rank beyond E is free (log 2). -/
def selEntry (draw t k : Nat) (ranks : List (Fv × Nat)) (ws : List Fv) : List Byte :=
  let rank (j : Nat) : Nat :=
    match ranks[j]? with
    | some r => r.2 + (if claimable r.1 then 2 ^ 15 else 0)
    | none => ofBytes [Config.freeByte draw (32 * t + 2 * j), Config.freeByte draw (32 * t + 2 * j + 1)] % 2 ^ 12
  (List.range 16).flatMap (fun j => toBytes 2 (rank j))
    ++ (List.range 8).flatMap (fun j => toBytes 4 (if j < k then outCode 8 (ws.getD j fzero) else 0))

/-- RT_NAN_LOGIT, once per router unit per step (R301, R321). -/
def State.nanLogit (s : State) (a : Site) (token : Nat) : State :=
  let g := groupOf a.core.val
  let s := s.put Reg.RT_STATUS_NAN_LOGIT 1
  if (s.group g).nanSent then s
  else
    let s := s.setGroup g { s.group g with nanSent := true }
    s.event 0x0502 (token + a.strand.val * 2 ^ 12 + a.core.val * 2 ^ 14) a.core.val

/-- RTOPK (R140, R300 to R302). -/
def execRtopk (a : Site) (p : Pred) (tsl tsd : Tsop) (e1 : BitVec 12) (k1 : BitVec 3) (ntok : BitVec 13)
    (norm : BitVec 2) (hw : HwReport) (s : State) : Host.Outcome State Fault Refusal :=
  let i := Instr.rtopk a p tsl tsd e1 k1 ntok norm hw
  loaded i (s.issue a p (fun s =>
    if s.conflict a i.regions then s
    else
      let t := s.strand a
      let e := e1.toNat + 1
      let k := k1.toNat + 1
      let n := ntok.toNat
      -- a logit region beyond the tile store is OPERAND, not TSO_RANGE (R319)
      let big := decide (tileUnits * unitBytes < Tsop.addr t tsl + 4 * e * n)
      let d : Region := { op := tsd, units := unitsOf (64 * n), use := .write }
      s.guarded a ((big, 0x0A) :: regionCauses t [d]) (fun s =>
        let core := a.core.val
        let b := s.tread core (Tsop.addr t tsl) (4 * e * n)
        let rows := (List.range n).map (fun r => (List.range e).map (fun x => ofF32 (fld b (4 * (e * r + x)) 4)))
        let ranked := rows.map (fun r => (r, rankRow r))
        let ws := ranked.map (fun r => routeWeights norm.toNat k r.1 r.2)
        let bs := ((List.range n).zip (ranked.zip ws)).flatMap (fun r => selEntry s.draw r.1 k r.2.1.2 r.2.2)
        let nan := rows.findIdx? (fun r => r.any Fv.isNan)
        let bad := ws.any (fun r => r.any (fun x => x.isNan)) || nan.isSome
        let s := ((s.drawn).twrite core (Tsop.addr t tsd) bs).bump Reg.RT_TOKENS_COUNT 0 0 n
        let s := match nan with
          | some r => s.nanLogit a r
          | none => s
        let s := if bad then s.nonfin core a.strand.val 2 t.pc.toNat else s
        (s.report a hw).advance a)))

/-! ### Dispatch descriptors (R303) -/

/-- Read a DISP descriptor; the flag says that a reserved byte is not 0. -/
def dispHead (b : List Byte) : DispHead × Bool :=
  ({ e := fld b 0 2, k := fld b 2 1, dir := fld b 3 1, nrounds := fld b 4 1, did := fld b 8 2, pos := fld b 10 2
     m := fld b 12 4, tokbase := fld b 16 6, rowB := fld b 24 4, src := fld b 32 8, expbuf := fld b 40 8
     recv := fld b 48 8, fills := fld b 56 8, retbuf := fld b 64 8, emap := fld b 72 8, mtab := fld b 80 8 },
   fld b 5 3 != 0 || fld b 22 2 != 0 || fld b 28 4 != 0 || fld b 88 40 != 0)

/-- The OPERAND conditions of a header (R303, R319). -/
def DispHead.bad (h : DispHead) (next : Bool) : Bool :=
  decide (2 < h.dir) || decide (h.e < 1 ∨ 4096 < h.e) || decide (h.k < 1 ∨ 8 < h.k)
  || (next && decide (h.nrounds < 1 ∨ 8 < h.nrounds)) || decide (h.m < 1 ∨ 32768 < h.m) || decide (h.m ≤ h.pos)
  || decide (h.rowB % 32 ≠ 0 ∨ h.rowB < 32 ∨ 65536 < h.rowB) || (h.dir == 1 && decide (h.rowB % 256 ≠ 0))

/-- The word of expert `e` in the expert map. -/
def State.emapWord (s : State) (c : Nat) (h : DispHead) (e : Nat) : Nat := s.vfield c (h.emap + 4 * e) 4

/-- Holder and local index of an expert (R303); the holder of its primary set stands for a fenced one (R484). -/
def State.emapAt (s : State) (c : Nat) (h : DispHead) (e : Nat) : Nat × Nat :=
  let w := s.emapWord c h e
  (s.flt.map.failed.foldl (replaceNode false) (bits w 0 15), bits w 16 12)

/-- A reserved bit of the expert map is not 0. -/
def State.emapBad (s : State) (c : Nat) (h : DispHead) : Bool :=
  (List.range h.e).any (fun e => bits (s.emapWord c h e) 15 1 != 0 || bits (s.emapWord c h e) 28 4 != 0)

/-- The holders that the expert map names. -/
def State.holdersOf (s : State) (c : Nat) (h : DispHead) : List Nat :=
  ((List.range h.e).map (fun e => (s.emapAt c h e).1)).eraseDups

/-- Rank `j` of token `t` in the selection entries at a unit: expert, and VALID. -/
def State.rankAt (s : State) (core unit t j : Nat) : Nat × Bool :=
  let w := ofBytes (s.tread core (unit * unitBytes + 64 * t + 2 * j) 2)
  (bits w 0 12, bits w 15 1 == 1)

/-- A valid rank names an expert at or beyond E (R319). -/
def State.selBad (s : State) (core unit ntok e : Nat) : Bool :=
  (List.range ntok).any (fun t => (List.range 16).any (fun j =>
    (s.rankAt core unit t j).2 && decide (e ≤ (s.rankAt core unit t j).1)))

/-! ### Rows (R309, R310) -/

/-- Increment a sync object of a node: this device's at once, another's by a SOINC frame. -/
def State.soincAt (s : State) (c node index amount : Nat) : State :=
  if node = s.node then s.soAdd index amount
  else s.send c node [dataFrame 0x02 node (index + amount * 2 ^ 16) 0 true []] .none

/-- The group whose router unit takes the frames of a DID (R311). -/
def unitOfDid (did : Nat) : Nat := did % 12

/-- The holder side of a dispatch. -/
def State.holder (s : State) (did : Nat) : Option HolderDisp :=
  (s.group (unitOfDid did)).holders.find? (fun h => h.first.did.toNat == did)

/-- Replace the holder side of a dispatch. -/
def State.setHolder (s : State) (h : HolderDisp) : State :=
  let g := unitOfDid h.first.did.toNat
  let x := s.group g
  let l := if x.holders.any (fun y => y.first.did == h.first.did) then
      x.holders.map (fun y => if y.first.did == h.first.did then h else y)
    else x.holders ++ [h]
  s.setGroup g { x with holders := l }

/-- The holder side of a REPLAY. -/
def State.replay (s : State) (did : Nat) : Option ReplayHold :=
  (s.group (unitOfDid did)).replays.find? (fun x => x.did == did)

/-- Replace the holder side of a REPLAY. -/
def State.setReplay (s : State) (x : ReplayHold) : State :=
  let g := unitOfDid x.did
  let gr := s.group g
  s.setGroup g { gr with replays := gr.replays.filter (fun y => y.did != x.did) ++ [x] }

/-- The dispatches of all groups, with their group. -/
def State.allDisps (s : State) : List (Nat × Dispatch) :=
  (List.range 12).flatMap (fun g => (s.group g).disps.map (fun d => (g, d)))

/-- Whether two dispatches are the same position of one DID. -/
def Dispatch.same (d e : Dispatch) : Bool :=
  d.head.did == e.head.did && d.head.pos == e.head.pos && d.head.dir == e.head.dir

/-- Replace a dispatch of a group. -/
def State.setDisp (s : State) (g : Nat) (d : Dispatch) : State :=
  let x := s.group g
  s.setGroup g { x with disps := x.disps.map (fun e => if e.same d then d else e) }

/-- Remove a dispatch from its group. -/
def State.dropDisp (s : State) (g : Nat) (d : Dispatch) : State :=
  let x := s.group g
  s.setGroup g { x with disps := x.disps.filter (fun e => !e.same d) }

/-- A dispatch whose completion object a holder's increment names, while this member still rewrites its entries or sends
(R310). -/
def State.dispOf (s : State) (c node index : Nat) : Option (Nat × Dispatch) :=
  s.allDisps.find? (fun e => e.2.head.dir != 1 && e.2.so == index && !e.2.early.contains node
    && (s.holdersOf c e.2.head).contains node)

/-- A node increments a sync object of this device: a holder's increment of a dispatch that this device has not ended
counts when it ends (R310, log 24). -/
def State.takeInc (s : State) (c node index amount : Nat) : State :=
  match (if amount = 1 then s.dispOf c node index else none) with
  | some (g, d) => s.setDisp g { d with early := d.early ++ [node] }
  | none => s.soAdd index amount

/-- Slots used over all local experts. -/
def HolderDisp.total (h : HolderDisp) : Nat := (h.used.map (·.2)).sum

/-- The local experts of a holder, from its count frames. -/
def HolderDisp.experts (h : HolderDisp) : List Nat := h.first.counts.map (·.1)

/-- The slots used by local expert. -/
def HolderDisp.fill (h : HolderDisp) : List (Nat × Nat) := h.experts.map (fun l => (l, Tab.get 0 h.used l))

/-- The nodes of the positions, in order. -/
def HolderDisp.nodes (h : HolderDisp) : List Nat :=
  (List.range h.first.members).filterMap (fun p => (h.frames.find? (fun e => e.2.pos == p)).map (·.1))

/-- The last row of a FORWARD or REPLAY has landed at its holder (R310): FILL and the rows of +0 of each local expert, then
the increments of the members and of its own object. -/
def State.finishRows (s : State) (c fills expbuf cap rowB so : Nat) (fill : List (Nat × Nat)) (nodes : List Nat) : State :=
  let s := fill.foldl (fun (t : State) e =>
    (t.store c (fills + 4 * e.1) (toBytes 4 e.2)).store c (expbuf + (e.1 * cap + e.2) * rowB)
      (List.replicate (((e.2 + 127) / 128 * 128 - e.2) * rowB) 0)) s
  let s := nodes.foldl (fun t n => if n = t.node then t.takeInc c n so 1 else t.soincAt c n so 1) s
  s.soAdd so 1

/-- A holder's last row of a FORWARD has landed. -/
def State.finishHolder (s : State) (c : Nat) (h : HolderDisp) : State :=
  let f := h.first
  (s.finishRows c f.fills f.expbuf f.cap f.rowB f.so h.fill h.nodes).setHolder { h with landed := 0, done := true }

/-- Finish a holder's dispatch when its rounds have ended and every row has landed. -/
def State.checkHolder (s : State) (c : Nat) (h : HolderDisp) : State :=
  if h.finished && h.landed == h.total * h.first.rowB then s.finishHolder c h else s

/-- What a REPLAY fills at this holder, and its members: as the FORWARD of the step left them, or else by the FILL words
and tables that this device's own DISP names (R309, log 69). -/
def State.replayFill (s : State) (c : Nat) (x : ReplayHold) : Option (List (Nat × Nat) × List Nat) :=
  match s.holder x.did, x.head with
  | some h, _ => if h.done then some (h.fill, h.nodes) else none
  | none, some d =>
    let locals := (List.range d.e).filterMap (fun e =>
      let m := s.emapAt c d e
      if m.1 = s.node then some m.2 else none)
    if locals.isEmpty then none
    else some (locals.map (fun l => (l, s.vfield c (x.fills + 4 * l) 4)),
      (List.range d.m).map (fun p => bits (s.vfield c (d.mtab + 2 * p) 2) 0 15))
  | none, none => none

/-- The last row of a REPLAY has landed. -/
def State.checkReplay (s : State) (c : Nat) (x : ReplayHold) : State :=
  let s := s.setReplay x
  match s.replayFill c x with
  | none => s
  | some (fill, nodes) =>
    if x.done || x.landed != (fill.map (·.2)).sum * x.rowB then s
    else (s.finishRows c x.fills x.expbuf x.cap x.rowB x.so fill nodes).setReplay { x with done := true }

/-- The holder side that a row of a REPLAY belongs to: the one in progress, or a new one. -/
def State.replayFor (s : State) (r : RowInfo) : ReplayHold :=
  let new : ReplayHold :=
    { did := r.did.toNat, cap := r.cap, rowB := r.rowB, expbuf := r.expbuf, fills := r.fills, so := r.so, head := none
      own := [], landed := 0, done := false }
  match s.replay r.did.toNat with
  | some x => if x.done then new else x
  | none => new

/-- This device issues a DISP of a REPLAY: what its header says of the holder side is known from now on. -/
def State.replayOwn (s : State) (c : Nat) (d : Dispatch) : State :=
  let h := d.head
  let new : ReplayHold :=
    { did := h.did, cap := d.cap, rowB := h.rowB, expbuf := h.expbuf, fills := h.fills, so := d.so, head := some h
      own := [h.pos], landed := 0, done := false }
  match s.replay h.did with
  | some x => if x.own.contains h.pos then s.checkReplay c new
    else s.checkReplay c { x with head := some h, own := x.own ++ [h.pos] }
  | none => s.checkReplay c new

/-- Bytes of a row have landed from a node (R309): its receive-list entry, its count, the end of the
dispatch. A row that RETURN brings is counted with its last chunk. -/
def State.rowLanded (s : State) (c node : Nat) (r : RowInfo) (n : Nat) (last : Bool) : State :=
  if r.dir = 1 then (if last && r.chunk + 1 == r.rowB / 256 then s.bump Reg.RT_ROWS_IN_COUNT else s) else
  let w := node + 2 ^ 15 + r.token % 2 ^ 12 * 2 ^ 16 + r.choice % 8 * 2 ^ 28 + (r.ntok - 1) % 2 ^ 12 * 2 ^ 32
    + (r.k - 1) % 16 * 2 ^ 44
  let s := s.store c (r.recv + 8 * (r.expert * r.cap + r.slot)) (toBytes 8 w)
  let s := if last then s.bump Reg.RT_ROWS_IN_COUNT else s
  if r.dir = 2 then
    let x := s.replayFor r
    s.checkReplay c { x with landed := x.landed + n }
  else match s.holder r.did.toNat with
  | none => s
  | some h =>
    let h := { h with landed := h.landed + n }
    (s.setHolder h).checkHolder c h

/-- Send one row to a node; a row of this device lands at once. -/
def State.sendRow (s : State) (c node addr : Nat) (tag : PktTag) (r : RowInfo) (bs : List Byte) : State :=
  let s := s.bump Reg.RT_ROWS_OUT_COUNT
  if node = s.node then (s.store c addr bs).rowLanded c node r bs.length true
  else
    s.send c node ((packets 4096 bs).map (fun q => dataFrame 0x01 node (addr + q.1) bs.length q.2.2 q.2.1)) tag

/-! ### The rounds (R306 to R308) -/

/-- A frame that this device takes from itself. -/
inductive DispMsg where
  | count (node : Nat) (f : CountFrame)
  | grant (g : GrantFrame)
deriving DecidableEq, Repr

/-- The bytes of a count frame: 64 and 2 per local expert (log 23). -/
def countBytes (f : CountFrame) : List Byte :=
  toBytes 2 f.did.toNat ++ toBytes 4 f.pos ++ toBytes 4 f.members ++ toBytes 2 f.experts ++ toBytes 1 f.k
    ++ toBytes 2 f.cap ++ toBytes 1 f.nrounds ++ toBytes 6 f.tokBase ++ toBytes 2 f.ntok
    ++ List.replicate 40 0 ++ f.counts.flatMap (fun c => toBytes 2 c.2)

/-- The bytes of a grant frame. -/
def grantBytes (g : GrantFrame) : List Byte :=
  toBytes 2 g.did.toNat ++ toBytes 4 g.pos ++ List.replicate 58 0
    ++ g.grants.flatMap (fun c => toBytes 2 c.2.1 ++ toBytes 2 c.2.2)

/-- ADDR of a count or grant frame (R438). -/
def dispAddr (did pos round : Nat) : Nat := did + pos % 2 ^ 15 * 2 ^ 16 + round % 8 * 2 ^ 32

/-- The count frame of a round for one holder. -/
def State.countFrame (s : State) (c : Nat) (d : Dispatch) (holder : Nat) : CountFrame :=
  let locals := (List.range d.head.e).filter (fun e => (s.emapAt c d.head e).1 == holder)
  { did := BitVec.ofNat 16 d.head.did, pos := d.head.pos, members := d.head.m, round := d.round
    experts := d.head.e, k := d.head.k, cap := d.cap, nrounds := if d.next then d.head.nrounds else 1
    tokBase := d.head.tokbase, ntok := d.ntok, rowB := d.head.rowB, expbuf := d.head.expbuf, recv := d.head.recv
    fills := d.head.fills, so := d.so
    counts := locals.map (fun e =>
      ((s.emapAt c d.head e).2, d.claims.countP (fun x => x.st == .open_ && x.expert == e))) }

/-- Begin a round: one count frame to every holder (R306 step 1). -/
def State.beginRound (s : State) (c g : Nat) (d : Dispatch) : State × List DispMsg :=
  let hs := s.holdersOf c d.head
  let s := s.bump Reg.RT_CLAIMS_COUNT 0 0 (d.claims.countP (fun x => x.st == .open_))
  let s := s.setDisp g { d with waitHolders := hs, grants := [] }
  let fs := hs.map (fun h => (h, s.countFrame c d h))
  let s := (fs.filter (fun x => x.1 != s.node)).foldl (fun t x =>
    t.send c x.1 [dataFrame 0x06 x.1 (dispAddr d.head.did d.head.pos d.round) 0 true (countBytes x.2)] .none) s
  (s, (fs.filter (fun x => x.1 == s.node)).map (fun x => .count x.1 x.2))

/-- RT_MISMATCH (R312): the holder fences itself as under R113. -/
def State.rtMismatch (s : State) (did node : Nat) : State :=
  let detail := did + node * 2 ^ 16
  ((s.event 0x0503 detail).put Reg.RT_STATUS_MISMATCH 1).programErrorAs detail 0xFF 7

/-- A count frame does not fit the frames of its DID (R312). -/
def HolderDisp.mismatch (h : HolderDisp) (f : CountFrame) : Bool :=
  decide (f.experts ≠ h.first.experts) || decide (f.k ≠ h.first.k) || decide (f.cap ≠ h.first.cap)
  || decide (f.nrounds ≠ h.first.nrounds)
  || h.frames.any (fun e => e.2.pos == f.pos && e.2.round == f.round)
  || h.frames.any (fun e => decide (e.2.pos < f.pos ∧ f.tokBase < e.2.tokBase + e.2.ntok)
      || decide (f.pos < e.2.pos ∧ e.2.tokBase < f.tokBase + f.ntok))

/-- Grant one expert over the positions in ascending order (R306 step 2): the amounts with their base slots,
and the slots used after them. -/
def grantExpert (cap : Nat) : Nat → List Nat → List (Nat × Nat) × Nat
  | used, [] => ([], used)
  | used, n :: ns =>
    let g := min n (cap - used)
    let r := grantExpert cap (used + g) ns
    ((g, used) :: r.1, r.2)

/-- All positions of the round are in: the grants, by position (R306 steps 2 and 3). -/
def HolderDisp.grantAll (h : HolderDisp) : HolderDisp × List (Nat × GrantFrame) :=
  let fs := (List.range h.first.members).filterMap (fun p =>
    h.frames.find? (fun e => e.2.pos == p && e.2.round == h.round))
  let per := h.experts.map (fun l =>
    (l, grantExpert h.first.cap (Tab.get 0 h.used l)
      (fs.map (fun e => ((e.2.counts.find? (fun x => x.1 == l)).map (·.2)).getD 0))))
  let used := per.foldl (fun t x => Tab.set 0 t x.1 x.2.2) h.used
  let out := (fs.zip (List.range fs.length)).map (fun e =>
    (e.1.1, ({ did := h.first.did, pos := e.1.2.pos, round := h.round, holder := 0
               grants := per.map (fun x => (x.1, (x.2.1.getD e.2 (0, 0)).1, (x.2.1.getD e.2 (0, 0)).2)) } : GrantFrame)))
  ({ h with used := used, round := h.round + 1, finished := decide (h.first.nrounds ≤ h.round + 1) }, out)

/-- The holder side that a count frame belongs to: the one of its DID, or a new one when the DID is not in
flight (R311). -/
def State.holderFor (s : State) (f : CountFrame) : HolderDisp :=
  let new : HolderDisp :=
    { first := f, round := 0, frames := [], used := [], finished := false, landed := 0, done := false }
  match s.holder f.did.toNat with
  | some h => if h.done && f.round == 0 then new else h
  | none => new

/-- A holder takes a count frame and grants once the frames of all positions are in (R306, R312). -/
def State.takeCount (s : State) (c node : Nat) (f : CountFrame) : State × List DispMsg :=
  let h := s.holderFor f
  if h.mismatch f then (s.rtMismatch f.did.toNat node, [])
  else
    let h := { h with frames := h.frames ++ [(node, f)] }
    let s := s.setHolder h
    if h.frames.countP (fun e => e.2.round == h.round) < h.first.members then (s, [])
    else
      let r := h.grantAll
      let gs := r.2.map (fun e => (e.1, { e.2 with holder := BitVec.ofNat 15 s.node }))
      let s := (gs.filter (fun e => e.1 != s.node)).foldl (fun t e =>
        t.send c e.1 [dataFrame 0x07 e.1 (dispAddr f.did.toNat e.2.pos e.2.round) 0 true (grantBytes e.2)] .none)
        (s.setHolder r.1)
      let s := s.checkHolder c r.1
      (s, (gs.filter (fun e => e.1 == s.node)).map (fun e => .grant e.2))

/-- Accept or refuse the claims on one expert: the first `g` open ones at slots from `base` (R306 step 4). -/
def acceptClaims (round e : Nat) : Nat → Nat → List Claim → List Claim
  | _, _, [] => []
  | g, base, x :: xs =>
    if x.st = .open_ ∧ x.expert = e ∧ g ≠ 0 then
      { x with st := .accepted round base } :: acceptClaims round e (g - 1) (base + 1) xs
    else x :: acceptClaims round e g base xs

/-- The next untried valid alternate of a token: its rank and expert (R307). -/
def State.nextAlternate (s : State) (d : Dispatch) (tried : List (Nat × Nat)) (t : Nat) : Option (Nat × Nat) :=
  (List.range 16).findSome? (fun j =>
    let r := s.rankAt d.site.core.val d.sel t j
    if d.head.k ≤ j ∧ r.2 ∧ !tried.contains (t, j) then some (j, r.1) else none)

/-- The fate of the claims that a round left open (R307). -/
def State.refuse (s : State) (d : Dispatch) : Dispatch :=
  let last := !d.next || decide (d.head.nrounds ≤ d.round + 1)
  let r := d.claims.foldl (fun (acc : List Claim × List (Nat × Nat)) x =>
    if x.st ≠ .open_ then (acc.1 ++ [x], acc.2)
    else if last then (acc.1 ++ [{ x with st := .dropped }], acc.2)
    else match s.nextAlternate d acc.2 x.token with
      | some (j, e) => (acc.1 ++ [{ x with expert := e }], (x.token, j) :: acc.2)
      | none => (acc.1 ++ [{ x with st := .dropped }], acc.2)) ([], d.tried)
  { d with claims := r.1, tried := r.2 }

/-- The list entry and the final rank of choice (t, j) (R308). ROUND, SLOT and NODE of a choice that was not
accepted are free (log 2). -/
def State.listEntry (s : State) (c draw : Nat) (d : Dispatch) (t j : Nat) : Nat × Nat :=
  let k := t * d.head.k + j
  let junk := ofBytes ((List.range 5).map (fun n => Config.freeByte draw (5 * k + n))) % 2 ^ 34 * 2 ^ 13
  match d.claims.find? (fun x => x.token == t && x.choice == j) with
  | none =>
    let e := (s.rankAt d.site.core.val d.sel t j).1
    (e + junk, e)
  | some x =>
    match x.st with
    | .accepted round slot =>
      (x.expert + 2 ^ 12 + round * 2 ^ 13 + slot * 2 ^ 16 + (s.emapAt c d.head x.expert).1 * 2 ^ 32, x.expert + 2 ^ 15)
    | _ => (x.expert + junk, x.expert)

/-- RT_DROP, once per router unit per step (R321). -/
def State.noteDrops (s : State) (g : Nat) (d : Dispatch) : State :=
  match d.claims.find? (fun x => x.st == .dropped) with
  | none => s
  | some x =>
    let s := (s.bump Reg.RT_DROPPED_COUNT 0 0 (d.claims.countP (fun x => x.st == .dropped))).put Reg.RT_STATUS_DROP 1
    if (s.group g).dropSent then s
    else
      (s.setGroup g { s.group g with dropSent := true }).event 0x0501 (d.head.did + x.expert * 2 ^ 16)

/-- The row of a token for an expert's slot (R309). -/
def State.rowInfo (s : State) (c : Nat) (d : Dispatch) (e slot t j : Nat) : RowInfo :=
  { did := BitVec.ofNat 16 d.head.did, dir := d.head.dir, chunk := 0, expert := (s.emapAt c d.head e).2, slot := slot, token := t
    choice := j, ntok := d.ntok, k := d.head.k, cap := d.cap, rowB := d.head.rowB, expbuf := d.head.expbuf, recv := d.head.recv
    fills := d.head.fills, so := d.so }

/-- Send rows (expert, slot, token, choice, source address) to their holders (R309). Rows in a frame that
may not be read raise ADDR (R396). -/
def State.sendRows (s : State) (c : Nat) (d : Dispatch) (rows : List (Nat × Nat × Nat × Nat × Nat)) : State :=
  if rows.any (fun r => !s.accessOk c r.2.2.2.2 d.head.rowB false) then s.strandErrorAt d.site 0x06 d.idx
  else rows.foldl (fun t r =>
    let info := t.rowInfo c d r.1 r.2.1 r.2.2.1 r.2.2.2.1
    let addr := d.head.expbuf + (info.expert * d.cap + r.2.1) * d.head.rowB
    (t.touch c r.2.2.2.2 d.head.rowB).sendRow c (t.emapAt c d.head r.1).1 addr (.dispatch d.head.did d.head.pos) info
      (t.vread c r.2.2.2.2 d.head.rowB)) s

/-- The dispatch of this device ends once its sends are acknowledged: the increments that holders have made count now; a
RETURN increments its completion object (R310, log 24). One that an error has stopped does not (R107, R113). -/
def State.endDisp (s : State) (g : Nat) (d : Dispatch) : State :=
  match (s.group g).disps.find? (fun e => e.same d) with
  | none => s
  | some d =>
    if d.ranking || s.outstanding (.dispatch d.head.did d.head.pos) || (s.strand d.site).st == .stopped then s
    else (s.dropDisp g d).soAdd d.so (if d.head.dir = 1 then 1 else d.early.length)

/-- The dispatches end whose last packet has been acknowledged or discarded. -/
def State.endDisps (s : State) : State := s.allDisps.foldl (fun t e => t.endDisp e.1 e.2) s

/-- The last round has ended (R308, R309): the entries rewritten, the list written, the rows sent. -/
def State.endRounds (s : State) (c g : Nat) (d : Dispatch) : State :=
  let core := d.site.core.val
  let draw := s.draw
  let cells := (List.range d.ntok).flatMap (fun t => (List.range d.head.k).map (fun j => (t, j, s.listEntry c draw d t j)))
  let s := s.drawn.noteDrops g d
  let s := cells.foldl (fun t x => t.twrite core (d.sel * unitBytes + 64 * x.1 + 2 * x.2.1) (toBytes 2 x.2.2.2)) s
  let s := s.store c d.list (cells.flatMap (fun x => toBytes 8 x.2.2.1))
  let rows := d.claims.filterMap (fun x => match x.st with
    | .accepted _ slot => some (x.expert, slot, x.token, x.choice, d.head.src + d.head.rowB * x.token)
    | _ => none)
  ((s.setDisp g { d with ranking := false }).sendRows c d rows).endDisp g d

/-- A member takes a grant frame; with all of the round in, it accepts and refuses, and runs the next round
or sends its rows (R306 step 4, R307 to R309). -/
def State.takeGrant (s : State) (c : Nat) (f : GrantFrame) : State × List DispMsg :=
  match s.allDisps.find? (fun e => e.2.head.did == f.did.toNat && e.2.head.pos == f.pos && e.2.head.dir == 0
      && e.2.round == f.round && e.2.waitHolders.contains f.holder.toNat) with
  | none => (s, [])
  | some (g, d) =>
    let d := { d with grants := d.grants ++ [f], waitHolders := d.waitHolders.erase f.holder.toNat }
    if d.waitHolders ≠ [] then (s.setDisp g d, [])
    else
      let granted (e : Nat) : Nat × Nat :=
        let h := s.emapAt c d.head e
        (d.grants.findSome? (fun x => if x.holder.toNat = h.1 then
          (x.grants.find? (fun y => y.1 == h.2)).map (·.2) else none)).getD (0, 0)
      let claims := (List.range d.head.e).foldl (fun l e =>
        acceptClaims d.round e (granted e).1 (granted e).2 l) d.claims
      let new := claims.countP (fun x => match x.st with
        | .accepted r _ => r == d.round
        | _ => false)
      let s := s.bump (if d.round = 0 then Reg.RT_ACCEPT_FIRST_COUNT else Reg.RT_ACCEPT_NEXT_COUNT) 0 0 new
      let s := s.bump Reg.RT_ROUNDS_COUNT
      let d := s.refuse { d with claims := claims }
      if d.next && decide (d.round + 1 < d.head.nrounds) then
        let d := { d with round := d.round + 1 }
        (s.setDisp g d).beginRound c g d
      else (s.endRounds c g d, [])

/-- Take the frames that this device sends to itself, in order, with the frames they cause. -/
def State.dispLoop (c : Nat) : Nat → List DispMsg → State → State
  | 0, _, s => s
  | _, [], s => s
  | n + 1, m :: ms, s =>
    let r := match m with
      | .count node f => s.takeCount c node f
      | .grant f => s.takeGrant c f
    State.dispLoop c n (ms ++ r.2) r.1

/-- The bound of the frames of one dispatch on one device: rounds × positions × 2. -/
def dispFuel : Nat := 2 ^ 20

/-! ### DISP -/

/-- The claims of a dispatch: its valid choices in the order of R305. -/
def State.claimsOf (s : State) (core unit ntok k : Nat) : List Claim :=
  (List.range ntok).flatMap (fun t => (List.range k).filterMap (fun j =>
    let r := s.rankAt core unit t j
    if r.2 then some { token := t, choice := j, expert := r.1, st := .open_ } else none))

/-- The rows that a REPLAY sends, by the dispatch list (R309). -/
def State.replayRows (s : State) (c : Nat) (d : Dispatch) : List (Nat × Nat × Nat × Nat × Nat) :=
  (List.range (d.ntok * d.head.k)).filterMap (fun n =>
    let w := s.vfield c (d.list + 8 * n) 8
    if bits w 12 1 = 1 then
      some (bits w 0 12, bits w 16 16, n / d.head.k, n % d.head.k, d.head.src + d.head.rowB * n)
    else none)

/-- RETURN (R309): the holder's rows go back to their members in chunks of 256 B, by the receive list. -/
def State.returnRows (s : State) (c : Nat) (d : Dispatch) : State :=
  let h := d.head
  let locals := ((List.range h.e).filterMap (fun e =>
    let m := s.emapAt c h e
    if m.1 = s.node then some m.2 else none)).stableSort (· ≤ ·)
  let rows := locals.flatMap (fun l => (List.range (min d.cap (s.vfield c (h.fills + 4 * l) 4))).filterMap (fun k =>
    let w := s.vfield c (h.recv + 8 * (l * d.cap + k)) 8
    if bits w 15 1 = 1 then some (w, h.src + (l * d.cap + k) * h.rowB, l, k) else none))
  if rows.any (fun r => !s.accessOk c r.2.1 h.rowB false) then s.strandErrorAt d.site 0x06 d.idx
  else rows.foldl (fun t r =>
    let w := r.1
    let node := bits w 0 15
    let ntok := bits w 32 12 + 1
    let k := bits w 44 4 + 1
    let t := (t.touch c r.2.1 h.rowB).bump Reg.RT_ROWS_OUT_COUNT
    (List.range (h.rowB / 256)).foldl (fun t ch =>
      let addr := h.retbuf + ch * ntok * k * 256 + 256 * (bits w 16 12 * k + bits w 28 3)
      let bs := t.vread c (r.2.1 + 256 * ch) 256
      let info : RowInfo :=
        { did := BitVec.ofNat 16 h.did, dir := 1, chunk := ch, expert := r.2.2.1, slot := r.2.2.2, token := bits w 16 12
          choice := bits w 28 3, ntok := ntok, k := k, cap := d.cap, rowB := h.rowB, expbuf := h.expbuf, recv := h.recv
          fills := h.fills, so := d.so }
      if node = t.node then (t.store c addr bs).rowLanded c node info 256 true
      else t.send c node [dataFrame 0x01 node addr 256 true bs] (.dispatch h.did h.pos)) t) s

/-- The causes of a DISP: ADDR and OPERAND (R396, R319). -/
def State.dispCauses (s : State) (a : Site) (tssel : Tsop) (mop list : Mop) (policy : Bool) (ntok : Nat) :
    List (Bool × Nat) :=
  let c := s.running.getD 0
  let t := s.strand a
  let va := Mop.addr t mop
  let la := Mop.addr t list
  let h := (dispHead (s.vread c va 128)).1
  let bad := (dispHead (s.vread c va 128)).2 || h.bad policy
  let readable := s.accessOk c va 128 false
  let maps := bad || s.accessOk c h.emap (4 * h.e) false
  let lists := bad || h.dir == 1 || s.accessOk c la (8 * ntok * h.k) (h.dir == 0)
  [(Mop.bad t mop || Mop.bad t list || !readable || !maps || !lists, 0x06),
   (bad || s.emapBad c h || (h.dir != 1 && s.selBad a.core.val (Tsop.unit t tssel) ntok h.e), 0x0A)]
  ++ (if h.dir = 1 then [] else regionCauses t [{ op := tssel, units := unitsOf (64 * ntok), use := .both }])

/-- A DISP begins (R306, R309). -/
def State.beginDisp (s : State) (c g : Nat) (d : Dispatch) : State :=
  let s := s.setGroup g { s.group g with disps := (s.group g).disps ++ [d] }
  match d.head.dir with
  | 0 =>
    let r := s.beginRound c g d
    State.dispLoop c dispFuel r.2 r.1
  | 1 => (s.returnRows c d).endDisp g d
  | _ => ((s.replayOwn c d).sendRows c d (s.replayRows c d)).endDisp g d

/-- DISP (R140, R303 to R311). -/
def execDisp (a : Site) (p : Pred) (tssel : Tsop) (mop list : Mop) (cap : BitVec 16) (policy : Bool)
    (ntok : BitVec 13) (so : BitVec 13) (s : State) : Host.Outcome State Fault Refusal :=
  let i := Instr.disp a p tssel mop list cap policy ntok so
  loaded i (s.issue a p (fun s =>
    let c := s.running.getD 0
    let g := groupOf a.core.val
    let n := ntok.toNat
    let head := (dispHead (s.vread c (Mop.addr (s.strand a) mop) 128)).1
    -- RETURN does not read TSSEL (R309)
    if head.dir ≠ 1 ∧ s.conflict a i.regions then s
    else s.guarded a (s.dispCauses a tssel mop list policy n) (fun s =>
      let t := s.strand a
      if 16 ≤ (s.group g).disps.length then s.put Reg.RT_STATUS_FULL 1
      else
        let sel := Tsop.unit t tssel
        let d : Dispatch :=
          { site := a, idx := t.pc.toNat, head := head, cap := cap.toNat, next := policy, ntok := n, sel := sel
            list := Mop.addr t list, so := so.toNat, round := 0
            claims := if head.dir = 0 then s.claimsOf a.core.val sel n head.k else []
            tried := [], grants := [], waitHolders := [], ranking := head.dir == 0, early := [] }
        (((s.touch c (Mop.addr t mop) 128).advance a).beginDisp c g d))))

/-! ### CMB (R314, R315) -/

/-- The 256-byte rows of memory that a CMB reads: those of the choices that were not dropped (R314). -/
def State.cmbRanges (s : State) (core sel base n k : Nat) : List (Nat × Nat) :=
  (List.range n).flatMap (fun tok => (List.range k).filterMap (fun j =>
    if (s.rankAt core sel tok j).2 then some (base + 256 * (tok * k + j), 256) else none))

/-- CMB (R140, R314, R315): its reads are demand reads, which wait for a prefetch, are served in place under DIRECT, and
fetch STALE bytes again or stop on them (R413, R414, R419). -/
def execCmb (a : Site) (p : Pred) (tsd tssel : Tsop) (mop : Mop) (ntok : BitVec 13) (k1 : BitVec 3)
    (ofmt : BitVec 4) (hw : HwReport) (s : State) : Host.Outcome State Fault Refusal :=
  let i := Instr.cmb a p tsd tssel mop ntok k1 ofmt hw
  let k := k1.toNat + 1
  let n := ntok.toNat
  let c := s.running.getD 0
  let core := a.core.val
  let ranges (t : Strand) : List (Nat × Nat) := s.cmbRanges core (Tsop.unit t tssel) (Mop.addr t mop) n k
  loaded i (s.onTile a p i
    (fun t => [(Mop.bad t mop || (ranges t).any (fun r => !s.accessOk c r.1 r.2 false || !s.directOk c r.1 r.2), 0x06)])
    (fun s =>
      let t := s.strand a
      let base := Mop.addr t mop
      let sel := Tsop.unit t tssel
      let rs := ranges t
      match rs.findSome? (fun r => s.staleFault r.1 r.2) with
      | some q => s.staleError a c q
      | none =>
      if rs.any (fun r => s.readWaits r.1 r.2) then s
      else
      let s := rs.foldl (fun u r => (u.refetchAll c r.1 r.2).touch c r.1 r.2) s
      let s := s.portTraffic (groupOf core) 1 false (256 * rs.length) (wideRequests rs)
      let weight (tok j : Nat) : Fv := ofF32 (ofBytes (s.tread core (sel * unitBytes + 64 * tok + 32 + 4 * j) 4))
      let row (tok : Nat) : List VecElem :=
        let rs := (List.range k).map (fun j =>
          if (s.rankAt core sel tok j).2 then
            let bs := s.demandBytes c (base + 256 * (tok * k + j)) 256
            (weight tok j, (List.range 128).map (fun x => (fmtOf 0).decode (fld bs (2 * x) 2)))
          else (fzero, List.replicate 128 fzero))
        (List.range 128).map (fun x =>
          (treeFold fadd 4 (rs.map (fun r => if r.2.getD x fzero == fzero && r.1 == fzero then fzero else fmul r.1 (r.2.getD x fzero))),
           rs.any (fun r => r.1.isInf || (r.2.getD x fzero).isInf)))
      let rows := (List.range n).map row
      let bs := rows.flatMap (fun r => packRow ofmt.toNat (r.map (fun e => outCode ofmt.toNat e.1)))
      let bad := (rows.map (fun r => r.countP (flagged ofmt.toNat))).sum
      let s := s.twrite core (Tsop.addr t tsd) (spoil bs hw.wrong)
      let s := s.bump Reg.CORE_VEC_BUSY_COUNT core 0 (n * k / 2)
      let s := if bad = 0 then s
        else (s.bump Reg.CORE_VEC_NONFIN_COUNT core 0 bad).nonfin core a.strand.val 2 t.pc.toNat
      (s.report a hw true).advance a))

end Sys2Proof.Machine
end

