-- ==== Sys2Proof/Machine/Fabric.lean ====
section
/-!
DEFINITION. Machine/Fabric.lean: the receiving side of the Bilaiham transport (R434 to R449), its ports and timers,
and the frames beside it (R460).
-/

namespace Sys2Proof.Machine

/-! ### Ports (R435, R448) -/

/-- A transport frame with `n` bytes of payload is received at a port. -/
def State.rxBytes (s : State) (port n : Nat) : State := s.rxRaw port (wireBytes n)

/-- A PFC frame for the DATA priority (R448). -/
def State.sendPfc (s : State) (port : Nat) (xoff : Bool) : State :=
  s.emitOn port (controlFrame 0x104 0 0 xoff.toNat 0)

/-- A DATA frame enters a port's receive buffer: at 8,192 B the port sends XOFF (R448). -/
def State.bufferIn (s : State) (port n : Nat) : State :=
  if 16 ≤ port then s
  else
  let q := s.port port
  let q := { q with rxbuf := q.rxbuf + wireBytes n }
  let s := (s.setPort port q).put Reg.FAB_PORT_RXBUF_PEAK (max q.rxbuf (s.get Reg.FAB_PORT_RXBUF_PEAK port)) port
  if 8192 ≤ q.rxbuf ∧ q.xoff = false then
    ((s.setPort port { q with xoff := true }).bump Reg.FAB_PORT_XOFF_TX_COUNT port).sendPfc port true
  else s

/-- RXBUF_XON (R448): the buffer has drained by some bytes; at 4,096 B the port sends XON. -/
def execRxbufXon (port : Fin 16) (bytes : Nat) (s : State) : Host.Outcome State Fault Refusal :=
  .next (
    let q := s.port port.val
    let q := { q with rxbuf := q.rxbuf - bytes }
    if q.rxbuf ≤ 4096 ∧ q.xoff = true then (s.setPort port.val { q with xoff := false }).sendPfc port.val false
    else s.setPort port.val q)

/-- PFC_RECEIVE (R448): the port sends no DATA while it is paused; what waited for it is sent when it may again. -/
def execPfcReceive (port : Fin 16) (xoff : Bool) (s : State) : Host.Outcome State Fault Refusal :=
  .next (
    let q := s.port port.val
    let s := (s.rxRaw port.val 64).setPort port.val { q with paused := xoff, pausedBeat := q.pausedBeat && xoff }
    if xoff then s else s.drainSends)

/-- The code of a cause (R464). -/
def portCauseCode : PortCause → Nat
  | .lock => 0
  | .fec => 1
  | .pause => 2
  | .disabled => 3
  | .link => 4

/-- Send an unacknowledged packet again on another port, with RETX and a new XSN (R446): none leaves while no port can
take it. -/
def State.resend (s : State) (i : Nat) (p : Packet) (tries : Nat) : State :=
  match s.portAgain p.frame with
  | none => s
  | some port =>
    let c := s.conn i
    let x := s.takeXsn c.peer (some c.ctx)
    let f := s.framed port { p.frame with retx := true, xsn := x.2 }
    let put (r : Packet) : Packet := if r.frame.psn = f.psn then { r with frame := f, tries := tries } else r
    ((x.1.emitOn port f).bump Reg.FAB_RETX_COUNT).setConn i
      { c with lastBeat := s.beat, unacked := c.unacked.map put }

/-- Send the unacknowledged packets that last left on a port again on other ports (R435, R446). -/
def State.resprayPort (s : State) (port : Nat) : State :=
  s.conns.foldl (fun (s : State) e =>
    e.2.unacked.foldl (fun (s : State) p => if p.frame.port = port then s.resend e.1 p p.tries else s) s) s

/-- A port leaves the spray set (R435). -/
def State.leaveSpray (s : State) (port : Nat) (cause : PortCause) : State :=
  let q := s.port port
  let was := q.spray
  let s := s.setPort port { q with spray := false, leave := none, clean := 0 }
  if was then
    ((s.put Reg.FAB_STATUS_PORT_DOWN 1).event 0x0801 (port + portCauseCode cause * 2 ^ 4)).resprayPort port
  else s

/-- A port may belong to the spray set (R435). -/
def State.portGood (s : State) (port : Nat) : Bool :=
  let q := s.port port
  q.link && q.lock == 15 && s.flag Reg.FAB_PORT_CTRL_EN port && q.leave.isNone

/-- A port breaks a condition of the spray set (R435): it leaves at the next boundary; while the beat stands still, at
once. The first cause stands. -/
def State.breakPort (s : State) (port : Nat) (cause : PortCause) : State :=
  let q := s.port port
  let s := s.setPort port { q with leave := some (q.leave.getD cause), clean := 0 }
  if s.bt.st = .detached then s.leaveSpray port cause else s

/-- LINK_STATE_CHANGE (R435): the link and the lanes that hold lock; a link that is down, a lane without lock or a beat of
FEC errors breaks a condition, and one that is up again does not undo it. A port whose link first comes up joins at once. -/
def execLinkStateChange (port : Fin 16) (up : Bool) (lock : BitVec 4) (cause : PortCause) (s : State) :
    Host.Outcome State Fault Refusal :=
  let p := port.val
  .next (
    let q := s.port p
    let down := match cause with
      | .link => true
      | .disabled => true
      | _ => false
    let s := s.setPort p { q with link := up || (q.link && !down), lock := lock }
    if up && lock == 15 then
      if s.portGood p && !q.spray && decide (131072 ≤ q.clean) then s.setPort p { s.port p with spray := true } else s
    else s.breakPort p (if up then .lock else cause))

/-- PORT_REJOIN (R435): at the boundary after 131,072 clean beats. -/
def execPortRejoin (port : Fin 16) (s : State) : Host.Outcome State Fault Refusal :=
  let p := port.val
  .next (if s.portGood p && !(s.port p).spray && decide (131072 ≤ (s.port p).clean) then
      (s.setPort p { s.port p with spray := true }).event 0x0802 p
    else s)

/-- At a boundary: ports leave, ports paused for a whole beat leave, whole clean beats since a port left are counted
(R435), and what was handed to a port in the beat has left it (log 19). -/
def State.portsAtBoundary (s : State) : State :=
  (List.range 16).foldl (fun (s : State) p =>
    let q := s.port p
    let paused := q.paused && q.pausedBeat
    let bad := q.leave.isSome || paused || !s.flag Reg.FAB_PORT_CTRL_EN p || !q.link || q.lock != 15
    let s := match q.leave with
      | some c => s.leaveSpray p c
      | none => if paused then s.leaveSpray p .pause else s
    let q := s.port p
    s.setPort p { q with pausedBeat := q.paused, clean := if bad then 0 else min 131072 (q.clean + 1), txq := 0 }) s

/-! ### Acknowledgements (R446) -/

/-- The 32-byte bitmap of PSN + 1 to PSN + 256 after the next PSN expected (R438). -/
def Conn.bitmap (c : Conn) : Nat :=
  ((List.range 256).map (fun k => if c.rxSeen.contains ((c.rxNext + 1 + k) % 2 ^ 32) then 2 ^ k else 0)).sum

/-- Send an ACK on a connection. -/
def State.sendAck (s : State) (i : Nat) (notrun : Bool) : State :=
  let c := s.conn i
  let s := s.setConn i { c with ackDue := 0, lastBeat := s.beat }
  s.emitIn c.peer (some c.ctx) (controlFrame 0x08 c.peer c.dcid c.rxNext notrun.toNat (toBytes 32 c.bitmap))

/-- ACK_TIMER (R446): 1 µs after the first packet not yet acknowledged. -/
def execAckTimer (conn : BitVec 13) (s : State) : Host.Outcome State Fault Refusal :=
  .next (if (s.conn conn.toNat).opened ∧ 0 < (s.conn conn.toNat).ackDue then s.sendAck conn.toNat false else s)

/-- FAB_CTX_MISMATCH (R444, R480). -/
def State.ctxMismatch (s : State) (peer ctx : Nat) : State :=
  let detail := peer + ctx * 2 ^ 16
  ((s.event 0x0807 detail).put Reg.FAB_STATUS_MISMATCH 1).programErrorAs detail 0xFF 8

/-- Whether PSN `p` is acknowledged by the next PSN expected and the bitmap. -/
def acked (next : Nat) (bitmap : BitVec 256) (p : Nat) : Bool :=
  let d := (p + 2 ^ 32 - next) % 2 ^ 32
  decide (2 ^ 31 ≤ d) || (decide (1 ≤ d ∧ d ≤ 256) && bitmap.getLsbD (d - 1))

/-- RETRANSMIT_TIMEOUT (R446): the packet goes out again on another port with RETX; past the limit the peer is
reported as unreachable, and the packet is sent again every 8 × RTO. -/
def execRetransmitTimeout (conn : BitVec 13) (psn : BitVec 32) (s : State) : Host.Outcome State Fault Refusal :=
  let i := conn.toNat
  let c := s.conn i
  .next (match c.unacked.find? (fun p => p.frame.psn == psn.toNat) with
    | none => s
    | some p =>
      let limit := max 1 (s.get Reg.FAB_CFG_RETX_MAX)
      let report (s : State) : State :=
        match s.portOf c.peer with
        | some k => s.setPeer k ((s.peer k).map (fun q => { q with unreach := true }))
        | none => s
      if p.limited then report (s.resend i p p.tries)
      else if p.tries < limit then s.resend i p (p.tries + 1)
      else
        let spent (r : Packet) : Packet := if r.frame.psn = psn.toNat then { r with limited := true } else r
        report (((s.put Reg.FAB_STATUS_RETX_LIMIT 1).event 0x0803 c.peer).setConn i
          { c with unacked := c.unacked.map spent }))

/-- SESSION_REKEY (R459): the session of a connection gets new keys, and XSN starts again. -/
def execSessionRekey (conn : BitVec 13) (s : State) : Host.Outcome State Fault Refusal :=
  let c := s.conn conn.toNat
  .next (match c.opened, s.session c.peer (some c.ctx) with
    | true, some x => s.rekey x
    | _, _ => s)

/-! ### Receiving (R438 to R444, R459) -/

/-- A frame that fails authentication is dropped and counted; sixteen in a row on a connection close it (R459). -/
def State.authFail (s : State) (h : Hdr) : State :=
  let i := h.dcid.toNat
  let s := s.bump Reg.FAB_AUTH_DROP_COUNT
  let c := s.conn i
  if c.opened then
    if 16 ≤ c.authFails + 1 then
      ((s.closeConn i).put Reg.FAB_STATUS_AUTH 1).event 0x0804 (c.peer + i * 2 ^ 16)
    else s.setConn i { c with authFails := c.authFails + 1 }
  else s

/-- The connection that a frame names: open, of its generation and its sender. -/
def State.rxConn (s : State) (h : Hdr) : Option Nat :=
  let i := h.dcid.toNat
  let c := s.conn i
  if c.opened && c.dgen == h.dgen && c.peer == h.snode.toNat then some i else none

/-- The next PSN expected after those that have come, and the ones beyond it. -/
def rxAdvance : Nat → Nat → List Nat → Nat × List Nat
  | 0, next, seen => (next, seen)
  | fuel + 1, next, seen =>
    if seen.contains next then rxAdvance fuel ((next + 1) % 2 ^ 32) (seen.erase next) else (next, seen)

/-- Note a PSN (R441, R442). -/
def Conn.note (c : Conn) (psn : Nat) : Conn :=
  let r := rxAdvance (c.rxSeen.length + 1) c.rxNext (psn :: c.rxSeen)
  { c with rxNext := r.1, rxSeen := r.2 }

/-- Whether a PSN has been received. -/
def Conn.seen (c : Conn) (psn : Nat) : Bool :=
  decide (2 ^ 31 ≤ (psn + 2 ^ 32 - c.rxNext) % 2 ^ 32) || c.rxSeen.contains psn

/-- A strand whose held read waits for a page tag. -/
def State.tagOwner (s : State) (tag : Nat) : Option Site :=
  allSites.find? (fun a => (s.strand a).held.any (fun h => h.tags.any (fun t => t.1 == tag)))

/-- A packet of a page answer (R296, R297): with the last one the page is known, a full page is cached, and a view
read whose pages have all come ends. -/
def State.pageAnswer (s : State) (node tag offset : Nat) (pad fail full last : Bool) (bs : List Byte) : State :=
  match s.tagOwner tag, s.roots with
  | some a, some (_, r) =>
    match (s.strand a).held with
    | none => s
    | some h =>
      let pg := ((h.tags.find? (fun t => t.1 == tag)).map (·.2)).getD 0
      let old := ((h.got.find? (fun e => e.1 == pg)).map (·.2)).getD []
      let img := if pad || fail then r.padImage else (old.take offset) ++ bs
      let got := h.got.filter (fun e => e.1 != pg) ++ [(pg, img)]
      if !last then s.setStrand a { s.strand a with held := some { h with got := got } }
      else
        let h := { h with got := got, tags := h.tags.filter (fun t => t.1 != tag) }
        let s := s.setStrand a { s.strand a with held := some h }
        let s := if fail then
            ((s.bump Reg.KVP_REMOTE_FAIL_COUNT).event 0x0408 node).put Reg.KVP_STATUS_REMOTE_FAIL 1 else s
        let v := pg * 65536
        let s := match viewEntry s.img (bits v 33 12), full && !pad && !fail with
          | some (slot, layer, head), true => s.cachePage node (r.stream slot layer head) (bits v 16 17) img
          | _, _ => s
        if h.tags.isEmpty then
          match h.instr with
          | .ldt _ _ _ _ _ _ _ => s.finishHeld a h
          | _ => s
        else s
  | _, _ => s

/-- The holder answers a page request (R296): its entry's frame, or the pad image. -/
def State.answerPage (s : State) (c node slot layer head block tag : Nat) : State :=
  match s.roots with
  | none => s
  | some (_, r) =>
    let stream := r.stream slot layer head
    let addr := slot + layer * 2 ^ 8 + head * 2 ^ 18 + block * 2 ^ 24
    let inside := decide (layer < r.layers ∧ head < r.heads) && decide (block < (s.streamDesc stream).2.2.1)
    let short (s : State) (flags : Nat) : State :=
      s.send c node [dataFrame 0x05 node addr (tag + flags * 2 ^ 48) true []] .none
    let entry : PageEntry := if inside then s.entry stream block else .invalid false
    match entry with
    | .frame tier n _ =>
      let bs := s.pageBytes tier n
      (s.touchPage tier n).send c node ((packets 4096 bs).map (fun q =>
        dataFrame 0x05 node addr (tag + q.1 / 32 * 2 ^ 32) q.2.2 q.2.1)) .none
    | .remote n =>
      let s := ((s.bump Reg.KVP_REMOTE_FAIL_COUNT).event 0x0408 n).put Reg.KVP_STATUS_REMOTE_FAIL 1
      short s 3
    | .invalid _ => short (if inside then s.noteEntry stream block else s) 1

/-- An effect takes its place in MSG order (R442). -/
def State.rxApply (s : State) (c node : Nat) (e : RxEffect) : State :=
  match e with
  | .soinc index amount => s.takeInc c node index amount
  | .row r n last => s.rowLanded c node r n last
  | .count f =>
    let r := s.takeCount c node f
    State.dispLoop c dispFuel r.2 r.1
  | .grant g =>
    let r := s.takeGrant c g
    State.dispLoop c dispFuel r.2 r.1
  | .pageReq slot layer head block tag => s.answerPage c node slot layer head block tag
  | .pageAns tag offset pad fail full last bs => s.pageAnswer node tag offset pad fail full last bs

/-- Apply the effects whose earlier packets have all arrived, in order of their PSN. -/
def State.rxDrain (i : Nat) : Nat → State → State
  | 0, s => s
  | fuel + 1, s =>
    let c := s.conn i
    match c.rxHeld.find? (fun e => decide (2 ^ 31 ≤ (e.1 + 2 ^ 32 - c.rxNext) % 2 ^ 32)) with
    | none => s
    | some e =>
      let due := c.rxHeld.filter (fun x => decide (2 ^ 31 ≤ (x.1 + 2 ^ 32 - c.rxNext) % 2 ^ 32))
      let first := due.foldl (fun (b : Nat × RxEffect) x =>
        if (x.1 + 2 ^ 32 - c.rxNext) % 2 ^ 32 < (b.1 + 2 ^ 32 - c.rxNext) % 2 ^ 32 then x else b) e
      let s := s.setConn i { c with rxHeld := c.rxHeld.filter (fun x => x.1 != first.1) }
      State.rxDrain i fuel (s.rxApply c.ctx c.peer first.2)

/-- Receive a DATA-class frame (R440 to R444, R459): authentication, DGEN and sender, the running context, EPOCH and
duplicates are judged in turn; then its payload lands at once, and its effect in MSG order. -/
def State.rxData (s : State) (h : Hdr) (len : Nat) (land : State → State) (eff : List RxEffect) : State :=
  let s := (s.rxBytes h.port.val len).bufferIn h.port.val len
  if s.isFenced h.snode.toNat then s
  else if !h.auth then s.authFail h
  else
    match s.rxConn h with
    | none => s.bump Reg.FAB_DUP_DROP_COUNT
    | some i =>
      let c := { s.conn i with authFails := 0, lastBeat := s.beat }
      let s := s.setConn i c
      if s.running ≠ some c.ctx then s.sendAck i true
      else if h.epoch.toNat ≠ (s.ctx c.ctx).entries % 256 then s.bump Reg.FAB_DUP_DROP_COUNT
      else
        let dup := c.seen h.psn.toNat
        let c := { c with ackDue := c.ackDue + 1 }
        let s := if dup then (s.setConn i c).bump Reg.FAB_DUP_DROP_COUNT
          else
            let held := c.rxHeld ++ eff.map (fun e => (h.psn.toNat, e))
            let s := land (s.setConn i { c.note h.psn.toNat with rxHeld := held })
            State.rxDrain i ((s.conn i).rxHeld.length + 1) s
        if 16 ≤ (s.conn i).ackDue ∧ (s.conn i).opened then s.sendAck i false else s

/-- DATA_RECEIVE (R442, R310): the bytes of an XFER, a tee or a row of a dispatch. -/
def execDataReceive (h : Hdr) (addr : W64) (bytes : List Byte) (row : Option RowInfo) (s : State) :
    Host.Outcome State Fault Refusal :=
  .next (s.rxData h bytes.length
    (fun t => match t.running with
      | some c => t.store c addr.toNat bytes
      | none => t)
    (match row with
      | some r => [.row r bytes.length h.last]
      | none => []))

/-- SOINC_FRAME_RECEIVE (R102, R104, R438). -/
def execSoincFrameReceive (h : Hdr) (index : BitVec 13) (amount : BitVec 16) (s : State) :
    Host.Outcome State Fault Refusal :=
  .next (s.rxData h 0 (fun t => t) [.soinc index.toNat amount.toNat])

/-- COLL_FRAME_RECEIVE (R294, R438, R451 to R453): the item lands on arrival. -/
def execCollFrameReceive (h : Hdr) (c : CollItem) (s : State) : Host.Outcome State Fault Refusal :=
  .next (s.rxData h c.payload.length (fun t => t.collItem h.snode.toNat c) [])

/-- NREQ_RECEIVE (R296). -/
def execNreqReceive (h : Hdr) (slot : BitVec 8) (layer : BitVec 10) (head : BitVec 6) (block : BitVec 17)
    (tag : BitVec 32) (s : State) : Host.Outcome State Fault Refusal :=
  .next (s.rxData h 0 (fun t => t) [.pageReq slot.toNat layer.toNat head.toNat block.toNat tag.toNat])

/-- NRESP_RECEIVE (R296, R297). -/
def execNrespReceive (h : Hdr) (tag : BitVec 32) (offset : BitVec 16) (pad fail full : Bool) (bytes : List Byte)
    (s : State) : Host.Outcome State Fault Refusal :=
  .next (s.rxData h bytes.length (fun t => t) [.pageAns tag.toNat (32 * offset.toNat) pad fail full h.last bytes])

/-- DCOUNT_RECEIVE (R306). -/
def execDcountReceive (h : Hdr) (c : CountFrame) (s : State) : Host.Outcome State Fault Refusal :=
  .next (s.rxData h (countBytes c).length (fun t => t) [.count c])

/-- DGRANT_RECEIVE (R306). -/
def execDgrantReceive (h : Hdr) (g : GrantFrame) (s : State) : Host.Outcome State Fault Refusal :=
  .next (s.rxData h (grantBytes g).length (fun t => t) [.grant g])

/-- A CONTROL frame of a connection is received: `none` when it is dropped. -/
def State.rxControl (s : State) (h : Hdr) (len : Nat) : State × Option Nat :=
  let s := s.rxBytes h.port.val len
  if s.isFenced h.snode.toNat then (s, none)
  else if !h.auth then (s.authFail h, none)
  else
    match s.rxConn h with
    | none => (s.bump Reg.FAB_DUP_DROP_COUNT, none)
    | some i => (s.setConn i { s.conn i with authFails := 0 }, some i)

/-- ACK_RECEIVE (R441, R444, R446): acknowledged packets retire, and what waited for their places is sent. -/
def execAckReceive (h : Hdr) (next : BitVec 32) (bitmap : BitVec 256) (notrun : Bool) (s : State) :
    Host.Outcome State Fault Refusal :=
  .next (
    let r := s.rxControl h 32
    match r.2 with
    | none => r.1
    | some i =>
      let s := r.1
      let c := s.conn i
      if notrun then s.ctxMismatch c.peer c.ctx
      else
        (s.setConn i { c with
          lastBeat := s.beat
          unacked := c.unacked.filter (fun p => !acked next.toNat bitmap p.frame.psn) }).drainSends.endDisps)

/-- SESSION_FAIL (R515). -/
def State.sessionFail (s : State) (peer ctx : Nat) : State :=
  (s.put Reg.SEC_STATUS_SESSION 1).event 0x0A04 (peer + ctx * 2 ^ 15)

/-- A connection opens (R439, R515): its peer's context and generation are known, its session and the peer's device
session are there, and `FAB_CTX.PEAK` follows (R463). -/
def State.opens (s : State) (i : Nat) (c : Conn) (theirs : BitVec 16) : State :=
  let n := theirs.toNat
  let new := { c with
    opened := true, pendingOpen := false, theirs := n % 2 ^ 13, theirGen := BitVec.ofNat 3 (n / 2 ^ 13), lastBeat := s.beat }
  let s := ((s.setConn i new).addSession c.peer (some c.ctx)).addSession c.peer none
  s.put Reg.FAB_CTX_PEAK (max (s.get Reg.FAB_CTX_PEAK) s.connsOpen)

/-- CONNECT_RECEIVE (R439, R515): with a good certificate the session and the connection are made and ACCEPT is
sent. A connection asked for from both sides is one. -/
def execConnectReceive (h : Hdr) (ctx : BitVec 4) (theirs : BitVec 16) (certOk : Bool) (s : State) :
    Host.Outcome State Fault Refusal :=
  let peer := h.snode.toNat
  let c := ctx.toNat
  .next (
    let s := s.rxBytes h.port.val 0
    if s.isFenced peer || s.bt.st == .detached || (s.ctx c).st == .free then s
    else if !certOk then s.sessionFail peer c
    else
      let place : Option (Nat × Bool) := match s.connOf c peer with
        | some i => some (i, false)
        | none => s.freeConn
      match place with
      | none => s
      | some (i, recycle) =>
        let s := if recycle then s.recycle i else s
        let old := s.conn i
        let new := if old.peer = peer ∧ old.ctx = c ∧ (old.opened ∨ old.pendingOpen) then old
          else { Conn.reset with peer := peer, ctx := c, dgen := old.dgen }
        let s := s.opens i new theirs
        (s.emitIn peer (some c) (controlFrame 0x0A peer (s.conn i).dcid (s.ownCid i) c)).drainSends)

/-- ACCEPT_RECEIVE (R439, R515): the connection opens and what waited for it is sent. -/
def execAcceptReceive (h : Hdr) (theirs : BitVec 16) (certOk : Bool) (s : State) : Host.Outcome State Fault Refusal :=
  let i := h.dcid.toNat
  .next (
    let s := s.rxBytes h.port.val 0
    let c := s.conn i
    if !c.pendingOpen || c.peer != h.snode.toNat || c.dgen != h.dgen || s.isFenced c.peer then s
    else if !certOk then s.sessionFail c.peer c.ctx
    else
      (s.opens i c theirs).drainSends)

/-- CLOSE_RECEIVE (R440). -/
def execCloseReceive (h : Hdr) (s : State) : Host.Outcome State Fault Refusal :=
  .next (
    let r := s.rxControl h 0
    match r.2 with
    | none => r.1
    | some i => (r.1.closeConn i).drainSends)

/-- BAD_FRAME_RECEIVE (R434, R438): the frame is dropped; a bad FCS is counted at its port, and an untagged frame is
not counted. -/
def execBadFrameReceive (port : Fin 16) (bad : BadFrame) (s : State) : Host.Outcome State Fault Refusal :=
  let s := s.rxRaw port.val bad.bytes
  .next (match bad.why with
    | .fcs => s.bump Reg.FAB_PORT_FCSERR_COUNT port.val
    | .untagged => s
    | .reservedType => s.bump Reg.FAB_BAD_DROP_COUNT
    | .reservedField => s.bump Reg.FAB_BAD_DROP_COUNT
    | .length => s.bump Reg.FAB_BAD_DROP_COUNT)

/-! ### The NVMe/TCP host's network (R460) -/

/-- ICMP_ECHO_REQUEST: answered with the same bytes. -/
def execIcmpEchoRequest (port : Fin 16) (src : BitVec 128) (bytes : List Byte) (s : State) :
    Host.Outcome State Fault Refusal :=
  let s := s.rxRaw port.val (netFrame 0x101 src bytes).length
  .next (if s.flag Reg.FAB_IP_CFG_EN then s.emitOn port.val (netFrame 0x101 src bytes) else s)

/-- NEIGHBOUR_DISCOVERY_RECEIVE: the sender is learned, and a router that advertises itself (ICMPv6 type 134); a
solicitation (type 135) is answered. What waited for the address goes on. -/
def execNeighbourDiscoveryReceive (port : Fin 16) (kind : Byte) (src : BitVec 128) (mac : BitVec 48) (s : State) :
    Host.Outcome State Fault Refusal :=
  let s := s.rxRaw port.val (netFrame 0x102 src []).length
  .next (if s.flag Reg.FAB_IP_CFG_EN then
      let s := if kind.toNat ∈ [134, 135, 136] then s.learn src mac else s
      let s := if kind = 134 then { s with router := some src } else s
      let s := if kind = 135 then s.emitOn port.val (netFrame 0x102 src []) else s
      s.nvmeDriveAll
    else s)

/-- ARP_RECEIVE: the sender is learned; a request for this device's IPv4-mapped address is answered. -/
def execArpReceive (port : Fin 16) (request : Bool) (src : BitVec 32) (target : BitVec 32) (mac : BitVec 48)
    (s : State) : Host.Outcome State Fault Refusal :=
  let from_ := BitVec.ofNat 128 (mapped4 src.toNat)
  let s := s.rxRaw port.val (netFrame 0x103 from_ []).length
  .next (if s.flag Reg.FAB_IP_CFG_EN then
      let s := s.learn from_ mac
      let s := if request && s.ipAddr == mapped4 target.toNat then s.emitOn port.val (netFrame 0x103 from_ []) else s
      s.nvmeDriveAll
    else s)

end Sys2Proof.Machine
end

