-- ==== Sys2Proof/Machine/RegRead.lean ====
section
/-!
DEFINITION. Machine/RegRead.lean: what a register of the window reads (R12 to R16): the stored word with the
fields that show other state of the device, and the block of SUMMARY (R542).
-/

namespace Sys2Proof.Machine

/-! ### Codes of the registers -/

/-- `CORE_STRAND.STATE` (R114). -/
def StrandSt.code : StrandSt → Nat
  | .idle => 0
  | .run => 1
  | .parkNarrow => 2
  | .waitSo => 3
  | .waitFence => 4
  | .waitBeat => 5
  | .stopped => 6

/-- STATUS of a sync object (R99). -/
def SoStatus.code : SoStatus → Nat
  | .free => 0
  | .held => 1
  | .fencedRelease => 2

/-- `SVC_STATE` (R543). -/
def SvcSt.code : SvcSt → Nat
  | .standby => 0
  | .rails => 1
  | .bist => 2
  | .ready => 3
  | .joining => 4
  | .running => 5
  | .selfFenced => 6
  | .unusable => 7

/-- STATE of `SVC_MBOX_STATUS` (R543). -/
def MboxSt.code : MboxSt → Nat
  | .idle => 0
  | .busy => 1
  | .done => 2
  | .refused => 3

/-- STATE of a context (R524). -/
def CtxSt.code : CtxSt → Nat
  | .free => 0
  | .loaded => 1
  | .running => 2
  | .suspended => 3

/-- The two's complement of an integer in `n` bits. -/
def twos (n : Nat) (v : Int) : Nat := (v % (2 : Int) ^ n).toNat

/-- Core cycles of a beat (R48): the mode in force and the period. -/
def beatCycles (mode sel : Nat) : Nat :=
  let full := if mode = 1 then 2800 else if mode = 2 then 2400 else 3200
  full * 2 ^ sel

/-! ### Computed fields, block by block -/

/-- A field with what it shows at an instance. -/
abbrev Shown := List (Fld × (Nat → Nat → Nat))

/-- A node ID with its valid bit. -/
def nodeWord : Option Nat → Nat
  | some n => n % 2 ^ 15 + 2 ^ 15
  | none => 0

/-- The holder of a set as `FLT_HOLDER` shows it (R501). -/
def holderWord (l : List PartnerSet) (k : Nat) : Nat :=
  nodeWord ((l[k]?).bind (fun x => x.holders.head?))

/-- The sets whose copies this device holds (R501). -/
def State.heldSets (s : State) : List PartnerSet := s.flt.map.sets.filter (fun x => x.holders.contains s.node && !x.lost)

/-- The sets that this device owns, the primary one first. -/
def State.ownSets (s : State) : List PartnerSet := (s.flt.map.owned s.node).filter (fun x => !x.lost)

/-- The beats since which its own sets are exposed, oldest first. -/
def State.exposedSince (s : State) : List Nat := (s.ownSets.filterMap (·.exposed)).stableSort (· ≤ ·)

/-- A forced pairing in force (R487). -/
def State.pairForcedNow (s : State) : Bool :=
  s.flt.map.sets.any (fun x => (x.owner == s.node || x.holders.contains s.node)
    && x.holders.any (fun h => s.tagOf h == s.tagOf x.owner))

/-- Nodes packed 15 bits each (R501). -/
def packNodes (l : List Nat) : Nat :=
  ((l.take 4).zip (List.range 4)).foldl (fun a e => a + e.1 % 2 ^ 15 * 2 ^ (15 * e.2)) 0

/-- Marker peers with a property, ascending. -/
def State.peersWith (s : State) (f : Peer → Bool) : List Nat :=
  (((List.range 17).filterMap (fun p => (s.peer p).bind (fun q => if f q then some q.node.toNat else none))).eraseDups).stableSort
    (· ≤ ·)

/-- Owners of held copies, four entries of 16 bits (R501). -/
def State.heldWord (s : State) : Nat :=
  ((s.heldSets.take 4).zip (List.range 4)).foldl (fun a e => a + nodeWord (some e.1.owner) * 2 ^ (16 * e.2)) 0

/-- SVC block. -/
def State.svcShown (s : State) : Shown :=
  let m := s.svc.mbox
  let fails (lo hi : Nat) : List Nat := s.svc.bist.failed.filter (fun k => decide (lo ≤ k ∧ k < hi))
  let mask (lo : Nat) (l : List Nat) : Nat := (l.eraseDups.map (fun k => 2 ^ (k - lo))).sum
  [(Reg.SVC_ID_REV, fun _ _ => Config.revision.toNat), (Reg.SVC_ID_TWIN, fun _ _ => Config.deviceB.toNat),
   (Reg.SVC_STATE_STATE, fun _ _ => s.svc.st.code), (Reg.SVC_BIST_HUB, fun _ _ => mask 108 (fails 108 112)),
   (Reg.SVC_BIST_FABRIC, fun _ _ => (fails 112 113).length), (Reg.SVC_BIST_GROUP, fun _ _ => mask 96 (fails 96 108)),
   (Reg.SVC_BIST_CORES, fun _ _ => (fails 0 96).length), (Reg.SVC_MBOX_STATUS_STATE, fun _ _ => m.st.code),
   (Reg.SVC_MBOX_STATUS_TAG, fun _ _ => m.tag.toNat), (Reg.SVC_MBOX_STATUS_RESULT, fun _ _ => m.result.toNat),
   (Reg.SVC_MBOX_STATUS_LEN, fun _ _ => m.len), (Reg.SVC_MBOX_RESP_RESP, fun _ j => ofBytes (Tab.range 0 m.resp (8 * j) 8))]

/-- BT block. -/
def State.btShown (s : State) : Shown :=
  let b := s.bt
  let peer (p : Nat) (f : Peer → Nat) (d : Nat) : Nat := match s.peer p with
    | some q => f q
    | none => d
  [(Reg.BT_CTRL_STATE, fun _ _ => b.st.code), (Reg.BT_CTRL_OVR_FAULT, fun _ _ => (imgOvrFault s.img).toNat),
   (Reg.BT_CTRL_IS_REF, fun _ _ => (b.refNode == some (BitVec.ofNat 15 s.node)).toNat),
   (Reg.BT_PERIOD_SEL, fun _ _ => b.sel.toNat),
   (Reg.BT_PERIOD_CYCLES, fun _ _ => beatCycles s.modeInForce.toNat b.sel.toNat),
   (Reg.BT_COUNT_COUNT, fun _ _ => b.count.toNat), (Reg.BT_REF_NODE, fun _ _ => (b.refNode.getD 0).toNat),
   (Reg.BT_REF_VALID, fun _ _ => b.refNode.isSome.toNat), (Reg.BT_REF_HOPS, fun _ _ => b.hops.toNat),
   (Reg.BT_PEER_NODE, fun _ j => peer j (·.node.toNat) 0), (Reg.BT_PEER_VALID, fun _ j => (s.peer j).isSome.toNat),
   (Reg.BT_PEER_WATCHER, fun _ j => peer j (·.watcher.toNat) 0), (Reg.BT_PEER_WATCHED, fun _ j => peer j (·.watched.toNat) 0),
   (Reg.BT_PEER_HOPS, fun _ j => peer j (·.hops.toNat) 7), (Reg.BT_PEER_TWIN_NODE, fun _ _ => peer 16 (·.node.toNat) 0),
   (Reg.BT_PEER_TWIN_VALID, fun _ _ => (s.peer 16).isSome.toNat)]

/-- PWR block (R561, R564). -/
def State.pwrShown (s : State) : Shown :=
  let hard := match s.svc.st with
    | .selfFenced => true
    | .unusable => true
    | _ => s.svc.bist.failed.any (fun k => decide (108 ≤ k ∧ k < 112))
  let fault := if hard then 2 else if s.pins.coreFenceSeen then 1 else 0
  let ok := if s.pins.okSteady then 2 else if s.flt.removal ≠ 0 then 1 else 0
  [(Reg.PWR_MODE_CUR, fun _ _ => s.modeInForce.toNat), (Reg.PWR_MODULE_LATCH, fun _ _ => s.pins.latchClosed.toNat),
   (Reg.PWR_MODULE_ATTN, fun _ _ => s.pins.button.toNat), (Reg.PWR_MODULE_SEAT, fun _ _ => s.pins.seated.toNat),
   (Reg.PWR_MODULE_FAULT, fun _ _ => fault), (Reg.PWR_MODULE_OK2RM, fun _ _ => ok)]

/-- FLT block. -/
def State.fltShown (s : State) : Shown :=
  let f := s.flt
  let failed (k : Nat) : Option FailedNode := f.map.failed[k]?
  let next := (s.ownSets.find? (fun x => x.exposed == s.exposedSince.head? && x.exposed.isSome)).map (·.nextLayer)
  [(Reg.FLT_STATUS_EXPOSED, fun _ _ => (!s.exposedSince.isEmpty).toNat), (Reg.FLT_STATUS_GUARD, fun _ _ => f.guard.toNat),
   (Reg.FLT_STATUS_PAIR_FORCED, fun _ _ => s.pairForcedNow.toNat),
   (Reg.FLT_FENCED_LO_CORES, fun _ _ => f.fenced.toNat % 2 ^ 64), (Reg.FLT_FENCED_HI_CORES, fun _ _ => f.fenced.toNat / 2 ^ 64),
   (Reg.FLT_FAILED_NODE0, fun _ _ => ((failed 0).map (·.node)).getD 0), (Reg.FLT_FAILED_V0, fun _ _ => (failed 0).isSome.toNat),
   (Reg.FLT_FAILED_NODE1, fun _ _ => ((failed 1).map (·.node)).getD 0), (Reg.FLT_FAILED_V1, fun _ _ => (failed 1).isSome.toNat),
   (Reg.FLT_FAILED_ROLE0, fun _ _ => ((failed 0).map (·.role.toNat)).getD 0),
   (Reg.FLT_FAILED_ROLE1, fun _ _ => ((failed 1).map (·.role.toNat)).getD 0),
   (Reg.FLT_WATCHED_NODES, fun _ _ => packNodes (s.peersWith (·.watched))),
   (Reg.FLT_WATCHERS_NODES, fun _ _ => packNodes (s.peersWith (·.watcher))),
   (Reg.FLT_HOLDER_PRIMARY, fun _ _ => holderWord s.ownSets 0), (Reg.FLT_HOLDER_TAKE0, fun _ _ => holderWord s.ownSets 1),
   (Reg.FLT_HOLDER_TAKE1, fun _ _ => holderWord s.ownSets 2), (Reg.FLT_HELD_OWNERS, fun _ _ => s.heldWord),
   (Reg.FLT_EXPOSE_SETS, fun _ _ => s.exposedSince.length), (Reg.FLT_EXPOSE_SINCE, fun _ _ => s.exposedSince.headD 0),
   (Reg.FLT_REFILL_NEXT, fun _ _ => next.getD 0), (Reg.FLT_FEED_STRAP, fun _ _ => s.svc.feed.toNat),
   (Reg.FLT_REMOVE_STATE, fun _ _ => f.removal)]

/-- SEC and DBG blocks. -/
def State.secShown (s : State) : Shown :=
  let x := s.sec
  let d := s.get Reg.DBG_CTRL_CTX
  [(Reg.SEC_CTX_RUN, fun _ _ => s.running.getD 0), (Reg.SEC_CTX_RUN_VALID, fun _ _ => s.running.isSome.toNat),
   (Reg.SEC_CTX_SWITCHING, fun _ _ => x.switching.isSome.toNat),
   (Reg.SEC_CTX_STATE_STATE, fun _ _ => ((List.range 16).map (fun c => (s.ctx c).st.code * 4 ^ c)).sum),
   (Reg.SEC_SWITCH_TARGET, fun _ _ => (x.switchTo.map (·.1.val)).getD 0), (Reg.SEC_SWITCH_VALID, fun _ _ => x.switchTo.isSome.toNat),
   (Reg.SEC_SWITCH_BEAT, fun _ _ => (x.switchTo.map (·.2)).getD 0), (Reg.SEC_SESSIONS_OPEN, fun _ _ => x.sessions.length),
   (Reg.SEC_SCRUB_PENDING, fun _ _ => (s.frames.filter (fun e => e.2 == FrameSt.scrub)).length),
   (Reg.SEC_DEBUG_BITS, fun _ j => (s.ctx j).dbgBits.toNat), (Reg.DBG_STATUS_HALTED, fun _ _ => (x.halted.contains d).toNat),
   (Reg.DBG_STATUS_BUSY, fun _ _ => x.dbgBusy.toNat), (Reg.DBG_STATUS_HALT_PEND, fun _ _ => (x.haltPend.any (fun h => h.1 == d)).toNat)]

/-- UE and RT blocks. -/
def State.ueShown (s : State) : Shown :=
  let st := s.step
  let count (g : Nat) (p : UpdJob → Bool) : Nat := ((s.group g).jobs.filter p).length
  let pool := imgPool s.img
  [(Reg.UE_QUEUE_JOBS, fun i _ => count i (fun _ => true)),
   (Reg.UE_QUEUE_GATED, fun i _ => count i (fun j => j.phase == .waiting && !s.gateOpen j)),
   (Reg.UE_QUEUE_RUNNING, fun i _ => count i (fun j => j.phase != .waiting)),
   (Reg.UE_QUEUE_PRECON, fun i _ => ((s.group i).roots.filter (fun r => r.st == .running)).length),
   (Reg.UE_VERDICT_LOCAL, fun _ _ => (st.cut.getD st.contrib).toNat), (Reg.UE_VERDICT_CUT, fun _ _ => st.cut.isSome.toNat),
   (Reg.UE_VERDICT_REDUCED, fun _ _ => st.reduced.isSome.toNat), (Reg.UE_VERDICT_VALUE, fun _ _ => (st.reduced.getD 0).toNat),
   (Reg.UE_GP_FRAMES_FREE, fun _ _ => match s.running, pool with
     | some c, some _ => (s.poolFree c).length
     | _, _ => 0),
   (Reg.UE_GP_FRAMES_TOTAL, fun _ _ => (pool.map (·.frames)).getD 0),
   (Reg.RT_INFLIGHT_COUNT, fun _ _ => s.allDisps.length)]

/-- The KV frames of the running context in a state (R272). -/
def State.pagesIn (s : State) (tier st : Nat) : Nat :=
  match s.roots with
  | some (_, r) => ((List.range (r.extent tier)).filter (fun n => s.frState tier n == st)).length
  | none => 0

/-- KVP block. -/
def State.kvpShown (s : State) : Shown :=
  let total (tier : Nat) : Nat := match s.roots with
    | some (_, r) => r.extent tier
    | none => 0
  [(Reg.KVP_POOL_HBM_FREE, fun _ _ => s.freePages 0), (Reg.KVP_POOL_HBM_TOTAL, fun _ _ => total 0),
   (Reg.KVP_POOL_LP_FREE, fun _ _ => s.freePages 1), (Reg.KVP_POOL_LP_TOTAL, fun _ _ => total 1),
   (Reg.KVP_QUAR_FRAMES, fun _ _ => s.pagesIn 0 2 + s.pagesIn 1 2)]

/-- Free frames of a tier: `n` frames from `base` less those in some state. -/
def State.freeFrames (s : State) (base n : Nat) : Nat :=
  n - (s.frames.filter (fun e => decide (base ≤ e.1 ∧ e.1 < base + n))).length

/-- The pool serves frames once the power-on tests have passed; before that `MT_POOL_HBM` and `MT_POOL_LP` show their
reset value (R431, log 67). -/
def State.poolUp (s : State) : Bool :=
  match s.svc.st with
  | .standby => false
  | .rails => false
  | .bist => false
  | _ => s.pins.rails

/-- MT and GRP blocks. -/
def State.mtShown (s : State) : Shown :=
  [(Reg.MT_WATCH_USED, fun i _ => match s.running with
     | some c => s.watchUsed c i (fun _ => true)
     | none => 0),
   (Reg.MT_POOL_HBM_FREE, fun _ _ => if s.poolUp then s.freeFrames 0 hbmFrames else 0),
   (Reg.MT_POOL_LP_FREE, fun _ _ => if s.poolUp then s.freeFrames lpBase lpFrames else 0),
   (Reg.GRP_STATE_FENCED, fun i _ => s.flt.fenced.toNat / 2 ^ (8 * i) % 2 ^ 8),
   (Reg.GRP_STATE_WHOLE, fun i _ => (s.group i).whole.toNat), (Reg.GRP_STATE_OVL, fun i _ => (s.group i).ovl.toNat),
   (Reg.GRP_STATE_OVL_MODE, fun i _ => (s.group i).ovlMode.toNat)]

/-- FAB block: a port's MAC is 02-B1-pp-00-nh-nl (R436); which end of `FAB_PORT_MAC` its first byte takes is open, and the
model puts 02 in [47:40] and nl in [7:0] (DESIGN CHOICE, log 73). -/
def State.fabShown (s : State) : Shown :=
  let p (i : Nat) : Port := s.port i
  [(Reg.FAB_PORT_STATUS_LINK, fun i _ => (p i).link.toNat), (Reg.FAB_PORT_STATUS_SPRAY, fun i _ => (p i).spray.toNat),
   (Reg.FAB_PORT_STATUS_PAUSED, fun i _ => (p i).paused.toNat), (Reg.FAB_PORT_STATUS_LOCK, fun i _ => (p i).lock.toNat),
   (Reg.FAB_PORT_MAC_MAC, fun i _ => 0x02B1 * 2 ^ 32 + i * 2 ^ 24 + s.node), (Reg.FAB_PORT_RXBUF_NOW, fun i _ => (p i).rxbuf),
   (Reg.FAB_CTX_USED, fun _ _ => s.connsOpen), (Reg.FAB_UNACKED_COUNT, fun _ _ => s.unackedCount)]

/-- SO block. -/
def State.soShown (s : State) : Shown :=
  [(Reg.SO_COUNT_COUNT, fun _ j => (s.obj j).count.toNat), (Reg.SO_COUNT_THRESH, fun _ j => (s.obj j).thresh.toNat),
   (Reg.SO_HOLDER_NODE, fun _ j => (s.obj j).node.toNat), (Reg.SO_HOLDER_VALID, fun _ j => (s.obj j).valid.toNat),
   (Reg.SO_HOLDER_CORE, fun _ j => (s.obj j).core.toNat), (Reg.SO_HOLDER_STATUS, fun _ j => (s.obj j).status.code),
   (Reg.SO_HOLDER_CTX, fun _ j => (s.obj j).ctx.toNat)]

/-- CORE block. -/
def State.coreShown (s : State) : Shown :=
  let t (i j : Nat) : Strand := Tab.get Strand.reset s.strands (4 * i + j)
  let st (i j : Nat) : StrandSt := if (t i j).st != .idle && s.frozenAt i j then .stopped else (t i j).st
  let stat (i : Nat) (f : StatTile → Nat) : Nat := match (s.core i).stat with
    | some x => f x
    | none => 0
  let int (v : Option Int) : Nat := match v with
    | some x => twos 10 x
    | none => 0
  [(Reg.CORE_STRAND_PC, fun i j => (t i j).pc.toNat), (Reg.CORE_STRAND_STATE, fun i j => (st i j).code),
   (Reg.CORE_STRAND_ENABLED, fun i j => (t i j).enabled.toNat), (Reg.CORE_STRAND_SEG, fun i j => (t i j).seg.toNat),
   (Reg.CORE_ARR_STATE_OWNER, fun i _ => stat i (·.owner)), (Reg.CORE_ARR_STATE_STAT_VALID, fun i _ => (s.core i).stat.isSome.toNat),
   (Reg.CORE_ARR_STATE_STAT_FMT, fun i _ => stat i (·.fmt)), (Reg.CORE_ARR_STATE_STAT_SPARSE, fun i _ => stat i (·.sparse)),
   (Reg.CORE_ARR_STATE_QUEUE, fun i _ => min 2 (s.arrayQueue i)),
   (Reg.CORE_SCALE_CUR, fun i j => int (t i j).cur), (Reg.CORE_SCALE_CUR_VALID, fun i j => (t i j).cur.isSome.toNat),
   (Reg.CORE_SCALE_PREV, fun i j => int (t i j).prev), (Reg.CORE_SCALE_PREV_VALID, fun i j => (t i j).prev.isSome.toNat),
   (Reg.CORE_SCALE_TSX, fun i j => ((t i j).lastTsx).getD 0)]

/-- The computed fields of the block that an offset lies in (R13). -/
def State.shown (s : State) (off : Nat) : Shown :=
  if off < 0x010000 then s.svcShown else
  if off < 0x020000 then s.btShown else
  if off < 0x030000 then s.pwrShown else
  if off < 0x040000 then s.fltShown else
  if off < 0x050000 then s.secShown else
  if off < 0x070000 then s.ueShown else
  if off < 0x080000 then s.kvpShown else
  if off < 0x090000 then s.mtShown else
  if off < 0x0A0000 then s.fabShown else
  if off < 0x0C0000 then s.soShown else
  if off < 0x200000 then s.mtShown else
  if off < 0x300000 then s.coreShown else
  s.secShown

/-! ### A register read (R14 to R16) -/

/-- In the windows of engines 1 to 11 the offsets 0x000 to 0x0FF and 0x800 to 0xFFF show engine 0 (R358). -/
def aliasOf (off : Nat) : Nat :=
  if 0x051000 ≤ off ∧ off < 0x05C000 ∧ (off % 0x1000 < 0x100 ∨ 0x800 ≤ off % 0x1000) then 0x050000 + off % 0x1000
  else off

/-- The outer and inner instance at an offset. -/
def Fld.inst (f : Fld) (off : Nat) : Nat × Nat :=
  let i := if f.n2 ≤ 1 then 0 else (off - f.base) / f.s2
  let r := off - f.base - f.s2 * i
  (i, if f.n1 ≤ 1 then 0 else r / f.s1)

/-- An event record as its 16 bytes (R18). -/
def EvtRec.bytes (r : EvtRec) : List Byte :=
  toBytes 2 r.code.toNat ++ toBytes 2 r.node.toNat ++ [r.core]
    ++ toBytes 1 (match r.ctx with
      | some c => c.toNat + 16
      | none => 0)
    ++ toBytes 6 r.beat.toNat ++ toBytes 4 r.detail.toNat

/-- The place in the ring, newest first, of record `k` modulo 1,024 (R543). -/
def State.ringPlace (s : State) (k : Nat) : Nat := (s.get Reg.SVC_EVT_COUNT_COUNT + 1024 - 1 - k % 1024) % 1024

/-- Whether an offset lies in `SVC_EVT_RING`. -/
def inRing (off : Nat) : Bool := decide (0x4000 ≤ off ∧ off < 0x8000)

/-- One of the two registers of a ring record. -/
def State.ringWord (s : State) (off : Nat) : Nat :=
  match s.svc.ring[s.ringPlace ((off - 0x4000) / 16)]? with
  | some r => ofBytes ((r.1.bytes.drop (off % 16)).take 8)
  | none => 0

/-- The tags in use, with the tags that there are (R25, R399). -/
def tagGauges : List (Fld × Nat) :=
  [(Reg.CORE_TAGS_WIDE, 512), (Reg.CORE_TAGS_NARROW, 256), (Reg.MT_TAGS_WIDE, 8192), (Reg.MT_TAGS_NARROW, 4096)]

/-- The counters that time, arbitration, translation walks and the line move: cycles of the stall causes, misses, aged
grants, busy cycles, FEC codewords, cycles paused or throttled; those of the narrow path beside what its known requests
add (R348, R359, R395, R405, R428 to R432, R462). -/
def timedCounters : List Fld :=
  [Reg.UE_GATE_WAIT_COUNT, Reg.UE_PRECON_LATE_COUNT, Reg.CORE_STALL_COUNT, Reg.MT_THROTTLE_CYC_COUNT, Reg.MT_NARROW_COUNT,
   Reg.GRP_ARB0_COUNT, Reg.GRP_ARB_AGED_COUNT, Reg.GRP_XLAT_MISS_COUNT, Reg.GRP_SEL_BUSY_COUNT, Reg.GRP_RT_BUSY_COUNT,
   Reg.FAB_PORT_FECCORR_COUNT, Reg.FAB_PORT_FECUNC_COUNT, Reg.FAB_PORT_PAUSED_COUNT, Reg.PMC_STALL_COUNT]

/-- Whether stall cause `k` applies to engine `e` (R429, R431, log 68): the array holds up only the update engines, the
fabric only the engines that send over it, and the causes of strands no engine. -/
def pmcApplies (e k : Nat) : Bool :=
  match k with
  | 1 => true
  | 2 => true
  | 3 => decide (e < 12)
  | 4 => decide (e < 16 ∨ 20 ≤ e)
  | _ => false

/-- What a field of time shows: nothing has moved it while the main rails are down; else a gauge shows a free value within
its bound, and a counter what it held and a free amount more (log 7). -/
def State.timedNow (s : State) (f : Fld) (i j : Nat) : Nat :=
  let free := (Config.timing (64 * f.off i j + f.lo) s.draw).toNat
  if !s.pins.rails || (f == Reg.PMC_STALL_COUNT && !pmcApplies i j) then s.get f i j
  else match tagGauges.find? (fun e => e.1 == f) with
    | some e => free % (e.2 + 1)
    | none => (s.get f i j + free) % 2 ^ f.w

/-- Whether time moves a field. -/
def timedField (f : Fld) : Bool := timedCounters.contains f || tagGauges.any (fun e => e.1 == f)

/-- What the counters of a register have come to stays (log 7). -/
def State.keepTimed (s : State) (off : Nat) : State :=
  (timedCounters.filter (fun f => f.isAt off)).foldl (fun (t : State) f =>
    t.put f (s.timedNow f (f.inst off).1 (f.inst off).2) (f.inst off).1 (f.inst off).2) s

/-- Whether an offset holds a field of time. -/
def isTimed (off : Nat) : Bool :=
  !decide (off < 0x050000) && (timedCounters ++ tagGauges.map (·.1)).any (fun f => f.isAt (aliasOf off))

/-- The value of an aligned register: unassigned offsets, reserved bits and WO fields read 0 (R15, R16). -/
def State.regRead (s : State) (off : Nat) : W64 :=
  if inRing off then BitVec.ofNat 64 (s.ringWord off)
  else
    let o := aliasOf off
    let sh := s.shown o
    (fieldsAt o).foldl (fun (w : W64) f =>
      let v := match f.acc with
        | .wo => 0
        | _ => match sh.find? (fun e => e.1 == f) with
          | some e => e.2 (f.inst o).1 (f.inst o).2
          | none =>
            if timedField f then s.timedNow f (f.inst o).1 (f.inst o).2 else f.ext (s.word o).toNat
      w ||| BitVec.ofNat 64 (v % 2 ^ f.w * 2 ^ f.lo)) 0

/-! ### Blocks of bytes -/

/-- `n` bytes with parts placed at offsets, 0 elsewhere. -/
def layoutBytes (n : Nat) (parts : List (Nat × List Byte)) : List Byte :=
  Tab.range 0 (parts.foldl (fun t p => Tab.setRange 0 t p.1 p.2) []) 0 n

/-- CONTEXTS of R519: 16 entries of 8 bytes. -/
def State.contextsBytes (s : State) : List Byte :=
  (List.range 16).flatMap (fun c =>
    let x := s.ctx c
    let slots := ((List.range 8).map (fun k => if (Tab.get none x.slots k).isSome then 2 ^ k else 0)).sum
    toBytes 8 (x.st.code + slots * 4 + x.unsealed.toNat * 2 ^ 10))

/-- SERIAL and DIG_BOOT to DIG_TABLES (R519). -/
def serialBytes : List Byte := (List.range 16).map Config.serial
/-- The six digests of microcode and tables. -/
def digestsBytes : List Byte := (List.range 288).map Config.digests

/-- `FLT_HOLDER`, then `FLT_HELD`. -/
def State.partnerBytes (s : State) : List Byte :=
  toBytes 8 (s.regRead 0x030038).toNat ++ toBytes 8 (s.regRead 0x030040).toNat

/-- Feed tags of the holders of its own sets and of the owners of the held copies (R542). -/
def State.ptagsWord (s : State) : Nat :=
  let tag : Option Nat → Nat
    | some n => (s.tagOf n).toNat
    | none => 0
  let own := (List.range 3).map (fun k => tag ((s.ownSets[k]?).bind (fun x => x.holders.head?)))
  let held := (List.range 4).map (fun k => tag ((s.heldSets[k]?).map (·.owner)))
  ((own ++ held).zip (List.range 7)).foldl (fun a e => a + e.1 * 16 ^ e.2) 0

/-- EXPOSURE of one own set. -/
def exposureWord : Option PartnerSet → Nat
  | some x => match x.exposed with
    | some b => b % 2 ^ 48 + x.nextLayer % 1024 * 2 ^ 48 + 2 ^ 63
    | none => 0
  | none => 0

/-- COUNTERS (R542), with the hub counters summed. -/
def State.countersList (s : State) : List Nat :=
  let hubs (f : Fld) (n : Nat) : Nat := ((List.range n).map (fun h => s.get f h)).sum
  [s.get Reg.FLT_ECC_CORR_COUNT, s.get Reg.FLT_ECC_UNC_COUNT, s.get Reg.FLT_RELIEF_OK_COUNT, s.get Reg.FLT_RELIEF_NO_COUNT,
   s.get Reg.FLT_RESIDUE_COUNT, s.get Reg.FLT_SHADOW_COUNT, s.get Reg.FLT_RETIRED_COUNT, s.get Reg.FLT_GUARDS_COUNT,
   s.get Reg.BT_STRETCH_GRANTED, s.get Reg.UE_SKIPS_COUNT, s.get Reg.UE_REPLAYS_COUNT, s.get Reg.UE_VERSKEW_CNT_COUNT,
   s.get Reg.ATT_EMPTYROWS_COUNT, s.get Reg.KVP_REMOTE_FAIL_COUNT, s.get Reg.RT_DROPPED_COUNT, s.get Reg.FAB_RETX_COUNT]
  ++ [s.get Reg.FAB_DISCARD_COUNT, s.get Reg.FAB_AUTH_DROP_COUNT, s.get Reg.FAB_BAD_DROP_COUNT, hubs Reg.MT_PF_MISS_COUNT 4,
   hubs Reg.MT_PF_DROP_COUNT 4, hubs Reg.MT_PF_STALE_COUNT 4, s.get Reg.MT_POOL_MOVED_COUNT, hubs Reg.MT_FTL_RETIRED_COUNT 2,
   s.get Reg.SVC_EVT_COUNT_COUNT, s.get Reg.SVC_EVT_LOST_COUNT, s.get Reg.BT_STRETCH_RAISED]

/-- The part of SUMMARY whose source is the main domain. -/
def State.summaryMain (s : State) : List (Nat × List Byte) :=
  let run : List Byte := match s.running with
    | some c => imgDigestField ((s.ctx c).image.getD [])
    | none => []
  let therm := (List.range 8).flatMap (fun k => toBytes 1 (s.get Reg.MT_THERM_TEMP (k / 2) (k % 2))
    ++ toBytes 1 (s.get Reg.MT_THERM_LEVEL (k / 2) (k % 2)))
  let peaks := (List.range 8).flatMap (fun k => toBytes 1 (s.get Reg.MT_THERM_PEAK (k / 2) (k % 2)))
  let throttle := ((List.range 4).map (fun h => s.timedNow Reg.MT_THROTTLE_CYC_COUNT h 0)).sum
  [(8, toBytes 8 s.beat), (21, toBytes 1 s.modeInForce.toNat), (22, toBytes 1 (s.bt.st.code + 4 * s.bt.sel.toNat)),
   (24, toBytes 2 (s.get Reg.PWR_CAP_WATTS)), (336, run), (544, toBytes 1 (s.running.getD 0 + 16 * s.running.isSome.toNat)),
   (548, toBytes 4 s.ueStep), (552, toBytes 8 (s.get Reg.UE_DSTEP_DSTEP)),
   (560, toBytes 2 (s.get Reg.UE_LAST_VERDICT) ++ toBytes 1 (s.get Reg.UE_LAST_ACTION) ++ toBytes 1 (s.get Reg.UE_GSCALE_EXP)),
   (564, toBytes 4 (s.get Reg.UE_CLEAN_RUN_COUNT)),
   (568, toBytes 2 (s.node + 2 ^ 15 * s.get Reg.FAB_NODE_VALID) ++ toBytes 2 (nodeWord (s.bt.refNode.map (·.toNat)))
     ++ toBytes 1 s.bt.hops.toNat),
   (596, s.partnerBytes), (612, toBytes 4 s.ptagsWord), (616, toBytes 8 (s.regRead 0x030020).toNat)]
  ++ [(624, toBytes 8 (s.regRead 0x030030).toNat ++ toBytes 8 (s.regRead 0x030028).toNat),
   (640, toBytes 8 (exposureWord s.ownSets[0]?) ++ toBytes 8 (exposureWord s.ownSets[1]?) ++ toBytes 8 (exposureWord s.ownSets[2]?)),
   (848, toBytes 1 (s.get Reg.MT_FTL_WEAR_PCT 0) ++ toBytes 1 (s.get Reg.MT_FTL_WEAR_PCT 1)
     ++ toBytes 4 (s.get Reg.MT_FTL_SPARE_BLOCKS 0) ++ toBytes 4 (s.get Reg.MT_FTL_SPARE_BLOCKS 1)
     ++ toBytes 1 (s.get Reg.MT_FTL_WEAR_READONLY 0 + 2 * s.get Reg.MT_FTL_WEAR_READONLY 1)),
   (960, therm ++ peaks), (984, toBytes 8 throttle), (1280, s.countersList.flatMap (toBytes 8))]

/-- The 4,096 bytes of SUMMARY (R542): what is not powered reads 0. -/
def State.summaryBytes (s : State) : List Byte :=
  let main := s.pins.rails
  let locked := s.bt.st == .locked
  let job := s.sec.ctxs.any (fun e => e.2.job.isSome)
  let valid := main.toNat + 2 * locked.toNat + 4 * s.running.isSome.toNat + 8 * job.toNat + 16 * s.svc.progErr.isSome.toNat
  let hubs := (s.svc.bist.failed.filter (fun k => decide (108 ≤ k))).eraseDups.map (fun k => 2 ^ (k - 108))
  let prog : List Byte := match s.svc.progErr with
    | some e => toBytes 4 e.detail.toNat ++ [e.core, 0, 0, 0] ++ toBytes 8 e.beat.toNat
    | none => []
  let feed := (s.tagOf s.node).toNat + 16 * s.get Reg.FLT_FEED_FORCE + 2 ^ 8 * s.pairForcedNow.toNat + 2 ^ 12 * s.svc.feed.toNat
  let gen (g : FlashGen) : List Byte :=
    toBytes 4 g.stamp.toNat ++ toBytes 8 g.tag.toNat ++ toBytes 4 (g.own.toNat + 2 * g.heldCopies.toNat + 4)
  let store : List Byte := match s.svc.storeGen with
    | some (st, r, b) => toBytes 4 st.toNat ++ toBytes 4 r.toNat ++ toBytes 8 b.toNat
    | none => []
  let sup (e : SupplyEvt) : List Byte :=
    toBytes 6 e.beat.toNat ++ [e.kind] ++ toBytes 2 e.lowest.toNat ++ toBytes 4 e.length.toNat ++ [0, 0, 0]
  layoutBytes 4096 ((if main then s.summaryMain else []) ++
    [(0, toBytes 4 0x4D4D5553 ++ toBytes 2 1 ++ toBytes 2 4096), (16, toBytes 4 valid), (20, toBytes 1 s.svc.st.code),
     (32, serialBytes), (48, digestsBytes), (384, toBytes 12 s.flt.fenced.toNat), (396, toBytes 2 s.wholeMask.toNat),
     (398, toBytes 1 hubs.sum), (400, toBytes 12 s.fenceRec.marginal.toNat), (412, toBytes 4 (s.get Reg.SVC_BIST_MS)),
     (416, s.contextsBytes), (576, prog), (592, toBytes 4 feed), (704, (s.gens.take 8).flatMap gen), (832, store),
     (1024, toBytes 2 (s.get Reg.PWR_INPUT_MAIN) ++ toBytes 2 (s.get Reg.PWR_INPUT_STBY) ++ toBytes 4 (s.get Reg.FLT_GUARDS_COUNT)),
     (1040, (s.svc.supply.take 15).flatMap sup), (2048, ((s.svc.ring.take 128).reverse).flatMap (fun e => e.1.bytes))])

/-- The snapshot of SUMMARY fills the response area; the records it carries count as read (R543), and the fault
indicator stops blinking (R561). -/
def State.takeSummary (s : State) : State :=
  let resp : Tab Byte := Tab.setRange 0 [] 0 s.summaryBytes
  let ring := (s.svc.ring.take 128).map (fun e => (e.1, true)) ++ s.svc.ring.drop 128
  let svc := { s.svc with ring := ring, mbox := { s.svc.mbox with resp := resp } }
  ({ s with svc := svc, pins := { s.pins with coreFenceSeen := false } }).mboxEnd .done 0 4096

end Sys2Proof.Machine
end

