-- ==== Sys2Proof/Machine/Boundary.lean ====
section
/-!
DEFINITION. Machine/Boundary.lean: the boundary of a beat (R69), in the one order that every row of the table for a
boundary shares: the end of a step (R385), fence commits (R470, R477), context switches (R509, R510), first step entry
(R540), leaving (R541), the power limiter (R556).
-/

namespace Sys2Proof.Machine

/-- What a boundary is. The rows of the table for boundaries each name one of these. -/
inductive BoundaryKind where
  | beat | stepEnd | switchEnd | firstEntry | fence | self
deriving DecidableEq, Repr

/-! ### Which boundary the next one is -/

/-- The running step ends with the current beat (R78). -/
def State.atStepEnd (s : State) : Bool :=
  s.running.isSome && s.step.active && decide (s.step.firstBeat + s.step.beats ≤ s.beat + 1)

/-- A context whose spare join waits for the job's next step entry (R562). -/
def State.spareWaiting (s : State) : Option Nat :=
  (List.range 16).find? (fun c => (s.ctx c).job.any (fun j => j.spare && !j.admitted) && s.svc.mbox.job.isNone)

/-- The context whose job has its first step entry at the next boundary (R540). -/
def State.firstJob (s : State) : Option Nat :=
  if s.running.isSome || s.sec.switching.isSome then none
  else (List.range 16).find? (fun c =>
    let busy := match s.svc.mbox.job with
      | some (.jobStart c' _) => c' == c
      | _ => false
    (s.ctx c).job.any (fun j => !j.entered && !j.late && !j.spare && !busy && j.startBeat == s.beat + 1))

/-- The kind of the next boundary; none while the beat stands still. -/
def State.boundaryKind (s : State) : Option BoundaryKind :=
  if s.flt.selfCause.isSome then some .self
  else if s.bt.st = .detached then none
  else if s.flt.due ≠ [] ∨ s.flt.removal = 2 then some .fence
  else if s.sec.switching.any (fun w => decide (w.2 ≤ s.beat + 1)) then some .switchEnd
  else if s.firstJob.isSome then some .firstEntry
  else if s.atStepEnd || s.spareWaiting.isSome then some .stepEnd
  else some .beat

/-- The next boundary is a step entry, or ends the step (R79, R385). -/
def State.entryNext (s : State) : Bool :=
  s.atStepEnd || (s.running.isSome && s.step.active && s.flt.due.any (fun d => s.flt.map.members.contains d.1))
    || s.sec.switching.any (fun w => decide (w.2 ≤ s.beat + 1)) || s.firstJob.isSome || s.spareWaiting.isSome

/-- PREFETCH_DEADLINE (R414, R415): in the guard before the boundary that opens its deadline beat an incomplete prefetch
takes its fallback, with `delivered` bytes there, unless that boundary is a step entry. One that no command names takes
it at the boundary itself (`State.takeDeadlines`). -/
def execPrefetchDeadline (a : Site) (slot : BitVec 6) (delivered : Nat) (s : State) :
    Host.Outcome State Fault Refusal :=
  .next (match s.prefetch a slot.toNat with
    | some p =>
      if p.active && s.bt.inGuard && decide (p.deadline ≤ s.beat + 1) && !s.entryNext then s.takeFallback p delivered else s
    | none => s)

/-! ### Opening a beat (R53, R54, R58, R67, R69 step 2, R475) -/

/-- A marker peer at the end of a beat. -/
def Peer.endBeat (q : Peer) (watching : Bool) : Peer :=
  { q with
    missRun := if q.heard || !watching then 0 else q.missRun + 1
    silent := if (q.alive && !q.unreach) || !watching then 0 else q.silent + 1
    recent := q.heard, delays := (none :: q.delays).take 16
    heard := false, alive := false, unreach := false }

/-- The marker peers with their ports. -/
def State.peers (s : State) : List (Nat × Peer) :=
  (List.range 17).filterMap (fun p => (s.peer p).map (fun q => (p, q)))

/-- The hop distance of the device (R53). -/
def State.ownHops (s : State) : BitVec 3 :=
  if s.bt.refNode = some (BitVec.ofNat 15 s.node) then 0
  else
    let near := (s.peers.filter (fun e => e.2.heard)).foldl (fun m e => min m e.2.hops.toNat) 7
    BitVec.ofNat 3 (min 7 (near + 1))

/-- This device is the reference. -/
def State.isRef (s : State) : Bool := s.bt.refNode == some (BitVec.ofNat 15 s.node)

/-- A late strand keeps its overrun: its beats are counted while it stays in RUN (R473). -/
def Strand.endBeat (t : Strand) : Strand :=
  { t with beatReq := false, overBeats := if t.overrun && t.st == .run then t.overBeats + 1 else 0 }

/-- Strands still late at the end of the beat raise a new request or a fault, once (R67). -/
def State.lateStrands (s : State) : State :=
  if s.running.isSome && s.step.active
      && s.strands.any (fun e => s.owes e.2 && e.2.overrun && !e.2.beatReq) then s.overrunPolicy else s

/-- The marker peers at the end of the beat; FAB_MDELAY shows the smallest delay of the last 16 beats (R458). -/
def State.endPeers (s : State) : State :=
  let w := s.watching
  s.peers.foldl (fun (s : State) e =>
    let q := e.2.endBeat w
    let s := s.setPeer e.1 (some q)
    match leastDelay q.delays, decide (e.1 < 16) with
    | some d, true => s.put Reg.FAB_MDELAY_DELAY d e.1
    | _, _ => s) s

/-- The correction of a beat (R54): minus the last OFFSET that a marker gave, within 4 ns. In HOLDOVER the device runs
free, the reference keeps its own time, and without a measured offset there is nothing to correct. DESIGN CHOICE (log
66): R54 bounds the correction and does not say how the servo forms it. -/
def State.servo (s : State) : Int :=
  let slews := match s.bt.st with
    | .locked => true
    | .acquire => true
    | _ => false
  if slews && s.bt.measured && !s.isRef then max (-32) (min 32 (-(BitVec.ofNat 32 (s.get Reg.BT_OFFSET_OFFSET)).toInt))
  else 0

/-- The beat ends and the next one opens: the counter advances by one. -/
def State.openBeat (s : State) : State :=
  let s := s.lateStrands
  let strands : Tab Strand := s.strands.mapv Strand.reset Strand.endBeat
  let s := { s with strands := strands }
  let s := match s.bt.slackMin with
    | some m => (s.put Reg.BT_SLACK_MIN m.1).put Reg.BT_SLACK_CORE m.2
    | none => s
  let heard := (s.peers.filter (fun e => e.2.heard)).map (·.1)
  let mask := ((heard.filter (fun p => decide (p < 16))).map (fun p => 2 ^ p)).sum
  let s := (s.put Reg.BT_MARKER_RX_PORT mask).put Reg.BT_MARKER_RX_TWIN (heard.contains 16).toNat
  let hops := s.ownHops
  let s : State := s.endPeers
  let corr := s.servo
  let b := s.bt
  let near := b.measured || s.isRef
  let high := decide (8000 < s.offsetMag)
  let b := { b with
    hops := hops
    lockRun := if near && decide (s.offsetMag ≤ 80) then b.lockRun + 1 else 0
    acquireBeats := match b.st with
      | .acquire => b.acquireBeats + 1
      | _ => 0
    offHighRun := if high then b.offHighRun + 1 else 0
    usable := false, measured := false, stretched := false, inGuard := false, slackMin := none
    runStretch := if b.stretched then b.runStretch else 0
    count := b.count + 1, heart := b.heart + 1, correction := corr, offLast := b.offBeat, offBeat := 0 }
  let s := { s with bt := b }
  let live (x : Nat) : Bool := (s.ahead x).isSome
  let old (x : Nat) : Bool := (s.ahead ((x + 2) % 2 ^ 32)).isNone
  -- a note stays known for 16 beats, so that a late word of a lower requester is not taken for a new request
  let known (x : Nat) : Bool := (s.ahead ((x + 16) % 2 ^ 32)).isSome
  { s with
    bt := { s.bt with stretches := s.bt.stretches.filter (fun n => known n.beat) }
    flt := { s.flt with
      notices := s.flt.notices.filter (fun h => !old h.notice.beat.toNat)
      quorum := s.flt.quorum.filter (fun q => live q.2.1) } }

/-! ### Device fences at the boundary (R98, R477, R492, R559) -/

/-- All scheduled device fences commit, lower nodes first. -/
def State.commitDue (s : State) : State :=
  let due := s.flt.due.stableSort (fun a b => decide (a.1 ≤ b.1))
  let s := due.foldl (fun (s : State) d => s.commitDevice d.1 d.2) { s with flt := { s.flt with due := [] } }
  if due.isEmpty then s
  else if s.running.isNone then { s with flt := { s.flt with stop := false } } else s

/-- This device's own planned fence commits: it leaves its jobs, and its main rails may go down (R492, R559). -/
def State.leavePlanned (s : State) : State :=
  let s := (((s.stopEngines).dropRoots none).closeAll).detach
  let ctxs : Tab Ctx := s.sec.ctxs.mapv Ctx.reset (fun x => { x with job := none })
  let s := { s with sec := { s.sec with ctxs := ctxs }, flt := { s.flt with removal := 3 } }
  s.svcSettle

/-! ### The end of a job (R386, R541) -/

/-- A started job of some context. -/
def State.anyJob (s : State) : Bool := s.sec.ctxs.any (fun e => e.2.job.isSome)

/-- The running context's strands stop for good; the context waits LOADED for its next JOB_START (R541). -/
def State.endJob (s : State) (c : Nat) : State :=
  let s := if s.running = some c then
      let s := s.stopEngines
      let s := (s.dropStep c)
      { s with sec := { s.sec with run := none }, step := { s.step with active := false } }
    else s
  let s := (s.setCtx c { s.ctx c with job := none, st := if (s.ctx c).st = .free then .free else .loaded }).dropRoots (some c)
  { s with flt := { s.flt with stop := false } }.svcSettle

/-- The connections of a context are closed (R541). -/
def State.closeCtx (s : State) (c : Nat) : State :=
  let s := { s with waitSends := s.waitSends.filter (fun w => w.ctx != c) }
  s.openConns.foldl (fun (s : State) e => if e.2.ctx = c then s.closeConn e.1 else s) s

/-- JOB_LEAVE takes effect for a context (R541): the beat unit is DETACHED when no started context remains. -/
def State.leaveJob (s : State) (c : Nat) : State :=
  let s := (s.endJob c).closeCtx c
  if s.anyJob then s else s.detach

/-- The END_BEAT of a context's job has come. -/
def State.leaves (s : State) (c : Nat) : Bool :=
  (s.ctx c).job.any (fun j => j.endBeat.any (fun b => decide (b ≤ s.beat)))

/-! ### Context switches (R509, R510) -/

/-- Beats of a switch (R510). -/
def State.switchBeats (s : State) : Nat := if s.bt.sel = 0 then 100 else if s.bt.sel = 1 then 50 else 25

/-- Beats of residence (R509): 100 ms. -/
def State.quantumBeats (s : State) : Nat := if s.bt.sel = 0 then 50000 else if s.bt.sel = 1 then 25000 else 12500

/-- Whether a context has a frame in flash, or on its way from it or to it (R398). -/
def State.inFlash (s : State) (c : Nat) : Bool :=
  (s.ctx c).maps.any (fun e => e.2.any (fun m => m.tier == .flash || m.moving.any (fun t => t.1 == .flash)))

/-- The first unmet condition of a switch (R509), as DETAIL of CTX_SWITCH_DEFER names it. `run` is false when no
context runs. -/
def State.switchBlock (s : State) (t : Nat) (run : Bool) : Option Nat :=
  let st := match (s.ctx t).st with
    | .loaded => true
    | .suspended => true
    | _ => false
  if run && decide (s.beat < s.get Reg.SEC_RESIDENT_SINCE + s.quantumBeats) then some 0
  else if !st || s.inFlash t then some 1
  else if s.groups.any (fun e => e.2.roots.any (fun r => r.st == .running)) then some 2
  else if run && s.fenceWindow then some 3
  else if run && s.flt.guard then some 4
  else none

/-- The switch begins: the outgoing context is saved, all stores become zero, the incoming context is shown (R510). -/
def State.beginSwitch (s : State) (t : Fin 16) : State :=
  let out := s.running
  let s := match out with
    | some c =>
      let s := s.stopEngines
      let s := s.dropStep c
      s.setCtx c { s.ctx c with st := .suspended }
    | none => s
  let cores := s.cores.mapv CoreSt.reset (fun c => { c with tile := [], marks := [], stat := none })
  let groups := s.groups.mapv GroupSt.reset (fun g => { g with store := [] })
  let sec := { s.sec with
    run := none, switchTo := none, deferred := false, switching := some (t, s.beat + s.switchBeats) }
  let s := { s with cores := cores, groups := groups, sec := sec, step := { s.step with active := false } }
  (s.showCtx t.val).event 0x0A01 (out.getD 0 + (if out.isSome then 2 ^ 4 else 0) + t.val * 2 ^ 8)

/-- A pending switch at a step end (`run`), or while no context runs, at or after its beat (R509). -/
def State.trySwitch (s : State) (run : Bool) : State :=
  match s.sec.switchTo with
  | none => s
  | some (t, b) =>
    if s.beat < b ∨ s.sec.switching.isSome then s
    else
      match s.switchBlock t.val run with
      | none => s.beginSwitch t
      | some why =>
        if s.sec.deferred then s
        else
          let s := { s with sec := { s.sec with deferred := true } }
          (s.put Reg.SEC_STATUS_DEFER 1).event 0x0A02 (t.val + why * 2 ^ 4)

/-- A context becomes the running one (R503, R504). -/
def State.resume (s : State) (c : Nat) : State :=
  let s := s.showCtx c
  let s := s.cancelFlash c
  let s := s.setCtx c { s.ctx c with st := .running }
  ({ s with sec := { s.sec with run := some (Fin.ofNat 16 c) } }).put Reg.SEC_RESIDENT_SINCE s.beat

/-- The switch ends: the incoming context runs, and takes step entry when it has a job (R510, R540). A job that a fence
has stopped meanwhile does not go on (R482, R491). -/
def State.endSwitch (s : State) : State :=
  match s.sec.switching with
  | none => s
  | some (t, _) =>
    let s := ({ s with sec := { s.sec with switching := none } }).resume t.val
    if s.flt.stop || decide (3 ≤ s.flt.map.failed.length) || s.flt.map.sets.any (fun x => x.lost) then s.endJob t.val
    else s

/-! ### The action of the boundary (R379, R385, R470, R481, R541) -/

/-- The core fences that commit at this step end (R470): the latched contribution carries FENCE. -/
def State.coresDue (s : State) : Bool :=
  s.step.cut.any (fun v => v.getLsbD 3) && (List.range 96).any (fun c => (s.core c).fenceDecided.isSome)

/-- A set whose owner or holder is a node. -/
def PartnerSet.concerns (x : PartnerSet) (n : Nat) : Bool := x.owner == n || x.holders.contains n

/-- The step of the running context ends here: `dev` says that a device fence commits, `last` that the step's last beat
has ended. The second component tells whether the context goes on to step entry. -/
def State.endStep (s : State) (dev last : Bool) : State × Bool :=
  match s.running with
  | none => (s, false)
  | some c =>
    -- a spare takes no action: it has no verdict of its own (R562)
    if (s.ctx c).job.any (fun j => j.spare) then
      if s.leaves c then (s.leaveJob c, false) else (s, true)
    else
    let core := s.coresDue
    let s := if core then s.commitCores else s
    let ch := s.chooseAction (dev || core)
    let v := if last then ((s.step.reduced.map (fun x => x.toNat)).getD 0) else 0
    let drained := s.flt.removal == 1 && !s.flt.map.sets.any (fun x => x.refilling && x.concerns s.node)
    let r := s.applyAction c ch.1 v
    let s := if ch.2 then r.1.selfFence 12 else r.1
    match r.2 with
    | .stop => (s.endJob c, false)
    | a =>
      -- the drain of a planned removal has committed before (R492)
      let s := if drained && a == .commit then { s with flt := { s.flt with removal := 2 } } else s
      if s.leaves c then (s.leaveJob c, false) else (s, true)

/-- A spare is admitted (R562): its context runs from this step entry, without programs. -/
def State.admitSelf (s : State) : State :=
  match s.spareWaiting with
  | none => s
  | some c =>
    let x := s.ctx c
    let s := s.setCtx c { x with job := x.job.map (fun j => { j with admitted := true }) }
    let m := s.fltOf c
    let s := if m.members.contains s.node then s
      else (s.setFlt c { m with members := (s.node :: m.members).stableSort (· ≤ ·) }).lowerReference s.node
    let s := s.event 0x0B74 c
    if s.running.isSome then s else s.resume c

/-! ### Markers (R51, R64, R476, R492) -/

/-- The markers of the boundary: a stretch request of this device for the beat that opens, the lower requesters learned
of a beat since its notice was forwarded, fence notices of proposals, commits and a planned fence. -/
def State.boundaryMarkers (s : State) (commits : List Nat) (planned : Bool) : State :=
  let b := s.beat32
  let ask := s.bt.ownReq && !s.fenceWindow
  let s : State := if ask then
      ({ s with bt := { s.bt with
          ownReq := false, ownExempt := false
          stretches := addStretch s.bt.stretches b s.node s.bt.ownExempt false } }).bump Reg.BT_STRETCH_RAISED
    else s
  let own : List StretchOut := if ask then
      (s.stretchNow.map (fun n => ({ beat := b, req := true, note := false, node := n.node } : StretchOut))).toList else []
  let told := (s.bt.stretches.filter (fun n => n.tell && !(ask && n.beat == b))).map
    (fun n => ({ beat := n.beat, req := false, note := true, node := n.node } : StretchOut))
  let s := { s with bt := { s.bt with stretches := s.bt.stretches.map (fun (n : StretchNote) => { n with tell := false }) } }
  let props := s.flt.proposed.filter (fun x => !s.isFenced x)
  let mine := props.map (fun x => fenceNotice x 1 b) ++ commits.map (fun x => fenceNotice x 3 b)
    ++ (if planned then [fenceNotice s.node 5 b] else [])
  let s := { s with flt := { s.flt with proposed := [] } }
  let s := mine.foldl (fun (s : State) n => s.holdNotice s.node n) s
  let s := s.sendMarkers (own ++ told).head? mine
  -- a marker names one beat: each further word of a lower requester takes another
  let s := ((own ++ told).drop 1).foldl (fun (s : State) x => s.sendMarkers (some x) []) s
  let s := props.foldl (fun (s : State) x => s.event 0x0906 (x + 2 ^ 15)) s
  props.foldl (fun (s : State) x => s.judgeQuorum x b) s

/-! ### The power limiter (R556) -/

/-- The limiter compares the power averaged over the beat with the cap. -/
def State.powerLimit (s : State) (w : Nat) : State :=
  let s := (s.put Reg.PWR_POWER_WATTS w).put Reg.PWR_POWER_PEAK (max w (s.get Reg.PWR_POWER_PEAK))
  let cap := s.capInForce
  if cap < w then
    let rate := max 16 (s.rate64 - (w - cap) * 100 / cap)
    if rate < s.rate64 then
      (({ s with rate64 := rate }).bump Reg.PWR_LIMIT_BEATS_COUNT).put Reg.PWR_STATUS_LIMIT 1
    else s
  else if w < cap then { s with rate64 := min 64 (s.rate64 + 1) }
  else s

/-! ### What a boundary settles in every state -/

/-- Debug halts and resumes take effect at a boundary (R523); during a switch they wait. -/
def State.takeHalts (s : State) : State :=
  if s.sec.switching.isSome then s
  else
    let halted := s.sec.haltPend.foldl (fun (l : List Nat) h =>
      if h.2 then (if l.contains h.1 then l else h.1 :: l) else l.filter (fun c => c != h.1)) s.sec.halted
    { s with sec := { s.sec with halted := halted, haltPend := [] } }

/-- A held copy that an error has lost: its set is exposed from this boundary (R474, R489). -/
def State.exposeHeld (s : State) : State :=
  let s' := { s with flt := { s.flt with exposeDue := [] } }
  s.flt.exposeDue.foldl (fun (t : State) k =>
    match t.flt.map.sets[k]? with
    | none => t
    | some x =>
      if x.holders.contains t.node then
        let r := t.coverSet t.flt.map k 1 t.beat { x with holders := x.holders.filter (fun n => n != t.node) }
        r.2.foldl (fun (t : State) e => t.event e.1 e.2) { t with flt := { t.flt with map := r.1 } }
      else t) s'

/-- A SUMMARY that waits for the boundary (R542). -/
def State.summaryDue (s : State) : State :=
  match s.svc.mbox.job with
  | some .summary => s.takeSummary
  | _ => s

/-- What waits for a port, a connection, a window or a target is tried again (R439, R440, R460). -/
def State.sendWaiting (s : State) : State := (((s.askAgain).drainSends).endDisps).nvmeDriveAll

/-- The work of a boundary that needs no beat: mapping changes, frames, halts, ports, throttle levels. -/
def State.settle (s : State) : State :=
  (((((((s.applyMapChanges).retireAll).exposeHeld).takeHalts).portsAtBoundary).sendWaiting).latchThrottle).summaryDue

/-- The supply guard that has recovered ends (R498). -/
def State.endGuard (s : State) : State :=
  if s.flt.guardEnd then ({ s with flt := { s.flt with guard := false, guardEnd := false } }).resumeStores else s

/-- The beat's background work: pool and page ageing, gathers that wait, circulation (R289, R369, R421). -/
def State.backgroundWork (s : State) : State :=
  (((s.agePool).agePages).retryGathers).circDrainAll

/-- Strands that wait for the boundary start their next segment (R61), and cores that had none to switch to switch
(R75). -/
def State.wakeStrands (s : State) : State :=
  let strands : Tab Strand := s.strands.mapv Strand.reset (fun t =>
    if t.st = .waitBeat then { t with st := .run } else t)
  (List.finRange 96).foldl State.woken { s with strands := strands }

/-- Contexts that do not run leave their jobs when their END_BEAT has come. -/
def State.idleLeaves (s : State) : State :=
  (List.range 16).foldl (fun (s : State) c => if s.running ≠ some c ∧ s.leaves c then s.leaveJob c else s) s

/-! ### The boundary (R69) -/

/-- Step 4 of a boundary that is a step entry (R69, R80): survivor, fence and mode overlays, the pending mode and cap. A
survivor whose role mask has no record in the mode now in force stops for a restart (R98). -/
def State.takeOverlays (s : State) : State :=
  let s := s.takeMode
  match s.running with
  | none => s
  | some c =>
    if (s.ctx c).job.all (fun j => j.spare) then s
    else if s.survivorMissing then
      let first := ((s.flt.map.failed[0]?).map (fun f => f.node)).getD 0
      (s.event 0x0B22 (s.flt.map.roleMask + first * 2 ^ 8)).endJob c
    else (s.fixPlacement c).showOverlays

/-- Step 6 of the boundary (R69): page frames (R288) and physical frames (R423, R512) that have been in quarantine since
at least two boundaries earlier leave it. -/
def State.endQuarantine (s : State) : State :=
  let s := s.releasePages
  let frames : Tab FrameSt := s.frames.mapv FrameSt.free (fun x => match x with
    | .quarantine b => if b + 2 ≤ s.beat then .scrub else x
    | _ => x)
  { s with frames := frames }

/-- Every boundary but a self-fence, from step 2 on. -/
def State.runBoundary (s : State) (watts : Nat) : State :=
  let last := s.atStepEnd
  let switched := s.sec.switching.any (fun w => decide (w.2 ≤ s.beat + 1))
  let spare := s.spareWaiting.isSome
  let first := s.firstJob
  let s := s.openBeat
  -- step 3: fence commits
  let leave := s.flt.removal == 2
  let due := s.flt.due.map (·.1)
  let hit := due.any (fun x => s.flt.map.members.contains x)
  if leave then ((s.commitDue).leavePlanned).settle
  else
  let s := s.commitDue
  -- the action of the step's end
  let ends := s.running.isSome && s.step.active && (last || hit)
  let planned0 := s.flt.removal
  let r := if ends then s.endStep hit last else (s, false)
  let s := r.1
  let s := if switched then s.endSwitch else s
  let s : State := match first with
    | some c => s.resume c
    | none => s
  let s := if spare then s.admitSelf else s
  let s := if r.2 then s.trySwitch true else s
  let entry := s.running.isSome && (r.2 || switched || first.isSome || spare)
  -- steps 4 and 5: what is pending at a step entry; the cycles per beat follow the mode in force (R48)
  let s : State := if entry then s.takeOverlays else s
  -- steps 6 and 7: quarantine, and deadlines where no step entry discards the prefetches (R415)
  let s : State := s.endQuarantine
  let s : State := if entry then s else s.takeDeadlines
  -- step 8
  let s : State := if s.bt.st = .detached then s
    else s.boundaryMarkers due (s.flt.removal == 2 && planned0 != 2)
  let s := if entry then s.stepEntry else s
  let s := ((s.endGuard).backgroundWork).powerLimit watts
  let s := s.idleLeaves
  let s := if s.running.isNone then s.trySwitch false else s
  let s := if s.sec.switching.isSome then s else s.wakeStrands
  s.settle

/-- The boundary (R69): a stretch decided for the ending beat is applied first, and then nothing else happens. -/
def State.boundary (s : State) (k : BoundaryKind) (watts : Nat) : State :=
  let g := s.guardStart
  if s.bt.st ≠ .detached ∧ !g.bt.inGuard then g
  else if g.boundaryKind = some k then g.runBoundary watts
  else s

/-- BEAT_BOUNDARY (R69): a boundary at which no step ends or begins. `watts` is the power measured in the beat. -/
def execBeatBoundary (watts : BitVec 16) (s : State) : Host.Outcome State Fault Refusal :=
  .next (s.boundary .beat watts.toNat)

/-- STEP_END_BOUNDARY (R385). -/
def execStepEndBoundary (watts : BitVec 16) (s : State) : Host.Outcome State Fault Refusal :=
  .next (s.boundary .stepEnd watts.toNat)

/-- SWITCH_END (R510). -/
def execSwitchEnd (watts : BitVec 16) (s : State) : Host.Outcome State Fault Refusal :=
  .next (s.boundary .switchEnd watts.toNat)

/-- JOB_FIRST_STEP_ENTRY (R540). -/
def execJobFirstStepEntry (watts : BitVec 16) (s : State) : Host.Outcome State Fault Refusal :=
  .next (s.boundary .firstEntry watts.toNat)

/-- DEVICE_FENCE_COMMIT (R477). -/
def execDeviceFenceCommit (watts : BitVec 16) (s : State) : Host.Outcome State Fault Refusal :=
  .next (s.boundary .fence watts.toNat)

end Sys2Proof.Machine
end

