-- ==== Sys2Proof/Machine/Jenex.lean ====
section
/-!
DEFINITION. Machine/Jenex.lean: the encoding of strand instructions (R116 to R141) and its reverse, as the loader
reads an image (R144). An instruction word is a number below 2^128, bit n as R116 counts it.
-/

namespace Sys2Proof.Machine

/-- Fields of given widths, the first at bit 0. -/
def pack : List (Nat × Nat) → Nat
  | [] => 0
  | (w, v) :: t => v % 2 ^ w + 2 ^ w * pack t

/-- The header (R117). -/
def hdrF (op : Nat) (p : Pred) : List (Nat × Nat) := [(8, op), (3, p.pred.toNat), (1, p.pneg.toNat), (4, 0)]

/-- The header of an instruction without a condition (R119). -/
def hdr0 (op : Nat) : List (Nat × Nat) := hdrF op ⟨0, false⟩

/-- A tile-store operand (R121). -/
def tsopF (o : Tsop) : List (Nat × Nat) := [(13, o.base.toNat), (2, o.lc.toNat), (4, o.step.toNat), (1, 0)]

/-- A memory operand (R123). -/
def mopF (m : Mop) : List (Nat × Nat) := [(4, m.areg.toNat), (2, m.lc.toNat), (5, m.sh.toNat), (13, m.disp.toNat)]

/-- A node operand (R124). -/
def nodeF : NodeOp → List (Nat × Nat)
  | .id n => [(15, n.toNat), (1, 0)]
  | .reg r => [(5, r.toNat), (10, 0), (1, 1)]

/-- A scope (R129). -/
def scopeCode : Scope → Nat
  | .core => 0
  | .device => 1
  | .global => 2

/-- The matrix format of a product (R133). -/
def matF (op : Nat) (p : Pred) (f : MatF) : List (Nat × Nat) :=
  hdrF op p ++ tsopF f.tsa ++ tsopF f.tsc ++ tsopF f.tsx ++
    [(13, f.rows.toNat), (4, f.fmts.toNat), (4, f.fmtt.toNat), (1, f.accum.toNat), (2, f.anch.toNat)
    , (5, f.sreg.toNat), (2, 0), (1, f.zt.toNat), (3, f.pass.toNat), (3, f.mw.toNat)]

/-- The vector format (R137). -/
def vecF (op : Nat) (p : Pred) (f : VecF) : List (Nat × Nat) :=
  hdrF op p ++ tsopF f.tsd ++ tsopF f.tsa ++ tsopF f.tsb ++ [(13, f.vl.toNat), (4, f.fmt.toNat), (4, f.func.toNat)] ++
    tsopF f.tsc ++ [(2, f.rnd.toNat), (4, f.ofmt.toNat)]

/-- A move between the tile store and memory (R130). -/
def movF (op : Nat) (p : Pred) (o : Tsop) (m : Mop) (node : List (Nat × Nat)) (len : BitVec 13) (part : BitVec 3) :
    List (Nat × Nat) :=
  hdrF op p ++ tsopF o ++ mopF m ++ node ++ [(13, len.toNat), (3, part.toNat)]

/-- The engine format (R141). -/
def engF (op : Nat) (p : Pred) (m : Mop) (gate target done kind code : Nat) : List (Nat × Nat) :=
  hdrF op p ++ mopF m ++ [(13, gate), (16, target), (13, done), (3, kind), (8, code)]

/-- The fields of an instruction's word; what is not an instruction has none. DESIGN CHOICE (log 78): the fields of the
MOV format that an instruction does not use must be 0 (NODE, DL, PLAN and SO of LDT, STT, GTH and SCT; SO of XFER; LEN of
PFH; TSOP2 of LDT, STT, XFER and COLL); R130 marks only some of them so. -/
def fieldsOf : Instr → List (Nat × Nat)
  | .nop _ => hdr0 0x00
  | .loop _ lc csrc sreg count body =>
    hdr0 0x01 ++ [(2, lc.toNat), (1, csrc.toNat), (5, sreg.toNat), (32, count.toNat), (24, body.toNat)]
  | .pset _ p dstp src cmp sel selb imm tsop word =>
    hdrF 0x02 p ++ [(3, dstp.toNat), (3, src.toNat), (3, cmp.toNat), (6, sel.toNat), (3, selb.toNat), (30, 0)
    , (32, imm.toNat)] ++ tsopF tsop ++ [(7, word.toNat)]
  | .skip _ p n => hdrF 0x03 p ++ [(8, n.toNat)]
  | .beat _ _ => hdr0 0x04
  | .halt _ => hdr0 0x05
  | .sowait _ p index remote tnode dstp thresh =>
    hdrF 0x10 p ++ [(13, index.toNat), (1, remote.toNat), (2, 0)] ++ nodeF tnode ++
      [(3, dstp.toNat), (13, 0), (32, 0), (32, thresh.toNat)]
  | .soinc _ p index remote tnode amount =>
    hdrF 0x11 p ++ [(13, index.toNat), (1, remote.toNat), (2, 0)] ++ nodeF tnode ++ [(16, amount.toNat)]
  | .soset _ p index remote tnode hold hexpl hnode hcore count thresh =>
    hdrF 0x12 p ++ [(13, index.toNat), (1, remote.toNat), (1, hold.toNat), (1, hexpl.toNat)] ++ nodeF tnode ++
      nodeF hnode ++ [(7, hcore.toNat), (1, 0), (24, count.toNat), (32, thresh.toNat)]
  | .fence _ p scope => hdrF 0x13 p ++ [(32, 0), (2, scopeCode scope)]
  | .ldt _ p o m len part _ => movF 0x20 p o m [(16, 0)] len part
  | .stt _ p o m len part _ => movF 0x21 p o m [(16, 0)] len part
  | .gth _ p o m len part o2 _ => movF 0x22 p o m [(16, 0)] len part ++ [(16, 0)] ++ tsopF o2
  | .sct _ p o m len part o2 _ => movF 0x23 p o m [(16, 0)] len part ++ [(16, 0)] ++ tsopF o2
  | .pfh _ p m dl part so soen slot fallback =>
    hdrF 0x24 p ++ [(20, 0)] ++ mopF m ++ [(16, dl.toNat), (13, 0), (3, part.toNat), (1, 0), (13, so.toNat)
    , (1, soen.toNat), (1, 0), (6, slot.toNat), (2, fallback.toNat)]
  | .xfer _ p o m node len part _ => movF 0x25 p o m (nodeF node) len part
  | .coll _ p m plan step so soen =>
    hdrF 0x26 p ++ [(20, 0)] ++ mopF m ++ [(16, plan.toNat), (13, step.toNat), (4, 0), (13, so.toNat), (1, soen.toNat)]
  | .mload _ p tsa tsc fmts sparse _ =>
    hdrF 0x30 p ++ tsopF tsa ++ tsopF tsc ++ [(33, 0), (4, fmts.toNat), (12, 0), (2, sparse.toNat)]
  | .mmul _ p f _ => matF 0x31 p f
  | .mmuls _ p f _ => matF 0x32 p f
  | .mmulw _ p f _ => matF 0x33 p f
  | .mscale _ p tsa tsx rows fmtt accum klog _ =>
    hdrF 0x34 p ++ tsopF tsa ++ [(20, 0)] ++ tsopF tsx ++ [(13, rows.toNat), (4, 0), (4, fmtt.toNat), (1, accum.toNat)
    , (16, 0), (5, klog.toNat)]
  | .vadd _ p f _ => vecF 0x40 p f
  | .vmul _ p f _ => vecF 0x41 p f
  | .vfma _ p f _ => vecF 0x42 p f
  | .vmax _ p f _ => vecF 0x43 p f
  | .vred _ p f _ => vecF 0x44 p f
  | .vscan _ p f _ => vecF 0x45 p f
  | .vexp _ p f _ => vecF 0x46 p f
  | .vact _ p f _ => vecF 0x47 p f
  | .vder _ p f _ => vecF 0x48 p f
  | .vcvt _ p f _ => vecF 0x49 p f
  | .ablk _ p tsq tskv tsst fmt bmask first last scale hdim bwd _ _ =>
    hdrF 0x50 p ++ tsopF tsq ++ tsopF tskv ++ tsopF tsst ++ [(4, fmt.toNat), (2, bmask.toNat), (1, first.toNat)
    , (1, last.toNat), (16, scale.toNat), (4, hdim.toNat), (1, bwd.toNat)]
  | .asel _ p tsq tssum tslist qblk qlc qlce topk win first last causal nsum1 _ =>
    hdrF 0x51 p ++ tsopF tsq ++ tsopF tssum ++ tsopF tslist ++ [(17, qblk.toNat), (2, qlc.toNat), (1, qlce.toNat)
    , (9, topk.toNat), (7, win.toNat), (1, first.toNat), (1, last.toNat), (1, causal.toNat), (7, nsum1.toNat)]
  | .kvapp _ p tsacc tsx slot layer head kv pos plc plce rows1 fmt _ =>
    hdrF 0x52 p ++ tsopF tsacc ++ tsopF tsx ++ [(8, slot.toNat), (10, layer.toNat), (6, head.toNat), (1, kv.toNat)
    , (24, pos.toNat), (2, plc.toNat), (1, plce.toNat), (7, rows1.toNat), (4, fmt.toNat)]
  | .rtopk _ p tsl tsd e1 k1 ntok norm _ =>
    hdrF 0x60 p ++ tsopF tsl ++ tsopF tsd ++ [(12, e1.toNat), (3, k1.toNat), (13, ntok.toNat), (2, norm.toNat)]
  | .disp _ p tssel m list cap policy ntok so =>
    hdrF 0x61 p ++ tsopF tssel ++ mopF m ++ mopF list ++ [(16, cap.toNat), (1, policy.toNat), (13, ntok.toNat)
    , (13, so.toNat)]
  | .cmb _ p tsd tssel m ntok k1 ofmt _ =>
    hdrF 0x62 p ++ tsopF tsd ++ tsopF tssel ++ mopF m ++ [(13, ntok.toNat), (3, k1.toNat), (4, ofmt.toNat)]
  | .upd _ p m gate target done => engF 0x70 p m gate.toNat target.toNat done.toNat 0 0
  | .precon _ p m done kind => engF 0x71 p m 0 0 done.toNat kind.toNat 0
  | .ingest _ p m done => engF 0x80 p m 0 0 done.toNat 0 1
  | .ckptFlash _ p m done _ => engF 0x80 p m 0 0 done.toNat 0 2
  | .ckptStore _ p m done _ => engF 0x80 p m 0 0 done.toNat 0 3
  | .postEvent _ p m x => engF 0x80 p m 0 0 x.done.toNat 0 x.code.toNat
  | _ => []

/-- The word of an instruction. -/
def encode (i : Instr) : Nat := pack (fieldsOf i)

/-! ### Reading a word -/

/-- A field of a word. -/
def bf (w lo n : Nat) : BitVec n := BitVec.ofNat n (bits w lo n)
/-- A one-bit field of a word. -/
def flagAt (w lo : Nat) : Bool := bits w lo 1 == 1
/-- The condition of a word. -/
def predAt (w : Nat) : Pred := ⟨bf w 8 3, flagAt w 11⟩
/-- A tile-store operand of a word. -/
def tsopAt (w lo : Nat) : Tsop := ⟨bf w lo 13, bf w (lo + 13) 2, bf w (lo + 15) 4⟩
/-- A memory operand of a word. -/
def mopAt (w lo : Nat) : Mop := ⟨bf w lo 4, bf w (lo + 4) 2, bf w (lo + 6) 5, bf w (lo + 11) 13⟩
/-- A node operand of a word. -/
def nodeAt (w lo : Nat) : NodeOp := if flagAt w (lo + 15) then .reg (bf w lo 5) else .id (bf w lo 15)
/-- The product fields of a word. -/
def matAt (w : Nat) : MatF :=
  { tsa := tsopAt w 16, tsc := tsopAt w 36, tsx := tsopAt w 56, rows := bf w 76 13, fmts := bf w 89 4
    fmtt := bf w 93 4, accum := flagAt w 97, anch := bf w 98 2, sreg := bf w 100 5, zt := flagAt w 107
    pass := bf w 108 3, mw := bf w 111 3 }
/-- The vector fields of a word. -/
def vecAt (w : Nat) : VecF :=
  { tsd := tsopAt w 16, tsa := tsopAt w 36, tsb := tsopAt w 56, vl := bf w 76 13, fmt := bf w 89 4
    func := bf w 93 4, tsc := tsopAt w 97, rnd := bf w 117 2, ofmt := bf w 119 4 }

/-- No check has reported anything. -/
def noReport : HwReport := ⟨[], false, [], false⟩

/-- The services (R141). -/
def parseSvc (a : Site) (w : Nat) : Instr :=
  let p := predAt w
  let m := mopAt w 16
  match bits w 85 8 with
  | 1 => .ingest a p m (bf w 69 13)
  | 2 => .ckptFlash a p m (bf w 69 13) []
  | 3 => .ckptStore a p m (bf w 69 13) []
  | _ => .postEvent a p m ⟨bf w 69 13, bf w 85 8⟩

/-- What a word says, its reserved bits not judged (R126). -/
def parse (a : Site) (w : Nat) : Option Instr :=
  let p := predAt w
  match bits w 0 8 with
  | 0x00 => some (.nop a)
  | 0x01 => some (.loop a (bf w 16 2) (flagAt w 18) (bf w 19 5) (bf w 24 32) (bf w 56 24))
  | 0x02 => some (.pset a p (bf w 16 3) (bf w 19 3) (bf w 22 3) (bf w 25 6) (bf w 31 3) (bf w 64 32) (tsopAt w 96)
      (bf w 116 7))
  | 0x03 => some (.skip a p (bf w 16 8))
  | 0x04 => some (.beat a 0)
  | 0x05 => some (.halt ⟨a, 0⟩)
  | 0x10 => some (.sowait a p (bf w 16 13) (flagAt w 29) (nodeAt w 32) (bf w 48 3) (bf w 96 32))
  | 0x11 => some (.soinc a p (bf w 16 13) (flagAt w 29) (nodeAt w 32) (bf w 48 16))
  | 0x12 => some (.soset a p (bf w 16 13) (flagAt w 29) (nodeAt w 32) (flagAt w 30) (flagAt w 31) (nodeAt w 48)
      (bf w 64 7) (bf w 72 24) (bf w 96 32))
  | 0x13 => match bits w 48 2 with
    | 0 => some (.fence a p .core)
    | 1 => some (.fence a p .device)
    | 2 => some (.fence a p .global)
    | _ => none
  | 0x20 => some (.ldt a p (tsopAt w 16) (mopAt w 36) (bf w 76 13) (bf w 89 3) noReport)
  | 0x21 => some (.stt a p (tsopAt w 16) (mopAt w 36) (bf w 76 13) (bf w 89 3) noReport)
  | 0x22 => some (.gth a p (tsopAt w 16) (mopAt w 36) (bf w 76 13) (bf w 89 3) (tsopAt w 108) noReport)
  | 0x23 => some (.sct a p (tsopAt w 16) (mopAt w 36) (bf w 76 13) (bf w 89 3) (tsopAt w 108) noReport)
  | 0x24 => some (.pfh a p (mopAt w 36) (bf w 60 16) (bf w 89 3) (bf w 93 13) (flagAt w 106) (bf w 108 6) (bf w 114 2))
  | 0x25 => some (.xfer a p (tsopAt w 16) (mopAt w 36) (nodeAt w 60) (bf w 76 13) (bf w 89 3) noReport)
  | 0x26 => some (.coll a p (mopAt w 36) (bf w 60 16) (bf w 76 13) (bf w 93 13) (flagAt w 106))
  | 0x30 => some (.mload a p (tsopAt w 16) (tsopAt w 36) (bf w 89 4) (bf w 105 2) noReport)
  | 0x31 => some (.mmul a p (matAt w) noReport)
  | 0x32 => some (.mmuls a p (matAt w) noReport)
  | 0x33 => some (.mmulw a p (matAt w) noReport)
  | 0x34 => some (.mscale a p (tsopAt w 16) (tsopAt w 56) (bf w 76 13) (bf w 93 4) (flagAt w 97) (bf w 114 5) noReport)
  | 0x40 => some (.vadd a p (vecAt w) noReport)
  | 0x41 => some (.vmul a p (vecAt w) noReport)
  | 0x42 => some (.vfma a p (vecAt w) noReport)
  | 0x43 => some (.vmax a p (vecAt w) noReport)
  | 0x44 => some (.vred a p (vecAt w) noReport)
  | 0x45 => some (.vscan a p (vecAt w) noReport)
  | 0x46 => some (.vexp a p (vecAt w) noReport)
  | 0x47 => some (.vact a p (vecAt w) noReport)
  | 0x48 => some (.vder a p (vecAt w) noReport)
  | 0x49 => some (.vcvt a p (vecAt w) noReport)
  | 0x50 => some (.ablk a p (tsopAt w 16) (tsopAt w 36) (tsopAt w 56) (bf w 76 4) (bf w 80 2) (flagAt w 82)
      (flagAt w 83) (bf w 84 16) (bf w 100 4) (flagAt w 104) noReport none)
  | 0x51 => some (.asel a p (tsopAt w 16) (tsopAt w 36) (tsopAt w 56) (bf w 76 17) (bf w 93 2) (flagAt w 95)
      (bf w 96 9) (bf w 105 7) (flagAt w 112) (flagAt w 113) (flagAt w 114) (bf w 115 7) noReport)
  | 0x52 => some (.kvapp a p (tsopAt w 16) (tsopAt w 36) (bf w 56 8) (bf w 64 10) (bf w 74 6) (flagAt w 80)
      (bf w 81 24) (bf w 105 2) (flagAt w 107) (bf w 108 7) (bf w 115 4) noReport)
  | 0x60 => some (.rtopk a p (tsopAt w 16) (tsopAt w 36) (bf w 56 12) (bf w 68 3) (bf w 71 13) (bf w 84 2) noReport)
  | 0x61 => some (.disp a p (tsopAt w 16) (mopAt w 36) (mopAt w 60) (bf w 84 16) (flagAt w 100) (bf w 101 13)
      (bf w 114 13))
  | 0x62 => some (.cmb a p (tsopAt w 16) (tsopAt w 36) (mopAt w 56) (bf w 80 13) (bf w 93 3) (bf w 96 4) noReport)
  | 0x70 => some (.upd a p (mopAt w 16) (bf w 40 13) (bf w 53 16) (bf w 69 13))
  | 0x71 => some (.precon a p (mopAt w 16) (bf w 69 13) (bf w 82 3))
  | 0x80 => some (parseSvc a w)
  | _ => none

/-- The instruction that a word encodes: what it says, when every reserved bit and every field marked 0 is 0 (R144). -/
def decode (a : Site) (w : Nat) : Option Instr :=
  match parse a w with
  | some i => if encode i = w then some i else none
  | none => none

/-- Whether the loader accepts a word (R89, R144); an SVC passes with any CODE (R141). -/
def legalWord (a : Site) (w : Nat) : Bool := (decode a w).any Instr.wf

end Sys2Proof.Machine
end

