-- ==== Sys2Proof/Machine/Loader.lean ====
section
/-!
DEFINITION. Machine/Loader.lean: what image loading checks (R82, R83, R89, R95, R144, R271, R450). A fault is a pair of
the failing part and a byte offset, as DETAIL of IMAGE_REJECT names them; the sections' places are judged first after the
header, then the conditions in the order in which R89 lists them (log 60).
-/

namespace Sys2Proof.Machine

/-- A failing part with its byte offset. -/
abbrev LoadFault := Nat × Nat

/-- The first of several faults. -/
def firstFault (l : List (Option LoadFault)) : Option LoadFault := (l.filterMap id).head?

/-- The first of some places at which a test fails, in a part. -/
def failsAt (part : Nat) (places : List Nat) (bad : Nat → Bool) : Option LoadFault := (places.find? bad).map (fun o => (part, o))

/-- Whether a range of bytes holds anything but zeros. -/
def nonzero (b : List Byte) (off n : Nat) : Bool := ((b.drop off).take n).any (fun x => x != 0)

/-- A condition on a place of a part. -/
def failIf (bad : Bool) (part off : Nat) : Option LoadFault := if bad then some (part, off) else none

/-! ### Programs (R82, R83, R144) -/

/-- The counter of a tile-store operand's loop term. -/
def tsopTerm (o : Tsop) : List Nat := if o.step = 0 then [] else [o.lc.toNat]
/-- The counter of a memory operand's loop term. -/
def mopTerm (m : Mop) : List Nat := if m.sh = 0 then [] else [m.lc.toNat]

/-- The loop counters that the loop terms of an instruction name (R122). -/
def loopTerms : Instr → List Nat
  | .pset _ _ _ _ _ _ _ _ o _ => tsopTerm o
  | .ldt _ _ o m _ _ _ => tsopTerm o ++ mopTerm m
  | .stt _ _ o m _ _ _ => tsopTerm o ++ mopTerm m
  | .gth _ _ o m _ _ o2 _ => tsopTerm o ++ mopTerm m ++ tsopTerm o2
  | .sct _ _ o m _ _ o2 _ => tsopTerm o ++ mopTerm m ++ tsopTerm o2
  | .pfh _ _ m _ _ _ _ _ _ => mopTerm m
  | .xfer _ _ o m _ _ _ _ => tsopTerm o ++ mopTerm m
  | .coll _ _ m _ _ _ _ => mopTerm m
  | .mload _ _ a c _ _ _ => tsopTerm a ++ tsopTerm c
  | .mmul _ _ f _ => tsopTerm f.tsa ++ tsopTerm f.tsc ++ tsopTerm f.tsx
  | .mmuls _ _ f _ => tsopTerm f.tsa ++ tsopTerm f.tsc ++ tsopTerm f.tsx
  | .mmulw _ _ f _ => tsopTerm f.tsa ++ tsopTerm f.tsc ++ tsopTerm f.tsx
  | .mscale _ _ a x _ _ _ _ _ => tsopTerm a ++ tsopTerm x
  | .vadd _ _ f _ => [f.tsd, f.tsa, f.tsb, f.tsc].flatMap tsopTerm
  | .vmul _ _ f _ => [f.tsd, f.tsa, f.tsb, f.tsc].flatMap tsopTerm
  | .vfma _ _ f _ => [f.tsd, f.tsa, f.tsb, f.tsc].flatMap tsopTerm
  | .vmax _ _ f _ => [f.tsd, f.tsa, f.tsb, f.tsc].flatMap tsopTerm
  | .vred _ _ f _ => [f.tsd, f.tsa, f.tsb, f.tsc].flatMap tsopTerm
  | .vscan _ _ f _ => [f.tsd, f.tsa, f.tsb, f.tsc].flatMap tsopTerm
  | .vexp _ _ f _ => [f.tsd, f.tsa, f.tsb, f.tsc].flatMap tsopTerm
  | .vact _ _ f _ => [f.tsd, f.tsa, f.tsb, f.tsc].flatMap tsopTerm
  | .vder _ _ f _ => [f.tsd, f.tsa, f.tsb, f.tsc].flatMap tsopTerm
  | .vcvt _ _ f _ => [f.tsd, f.tsa, f.tsb, f.tsc].flatMap tsopTerm
  | .ablk _ _ q kv st _ _ _ _ _ _ _ _ _ => [q, kv, st].flatMap tsopTerm
  | .asel _ _ q sm l _ qlc qlce _ _ _ _ _ _ _ => [q, sm, l].flatMap tsopTerm ++ (if qlce then [qlc.toNat] else [])
  | .kvapp _ _ acc x _ _ _ _ _ plc plce _ _ _ => tsopTerm acc ++ tsopTerm x ++ (if plce then [plc.toNat] else [])
  | .rtopk _ _ l d _ _ _ _ _ => tsopTerm l ++ tsopTerm d
  | .disp _ _ t m l _ _ _ _ => tsopTerm t ++ mopTerm m ++ mopTerm l
  | .cmb _ _ d t m _ _ _ _ => tsopTerm d ++ tsopTerm t ++ mopTerm m
  | .upd _ _ m _ _ _ => mopTerm m
  | .precon _ _ m _ _ => mopTerm m
  | .ingest _ _ m _ => mopTerm m
  | .ckptFlash _ _ m _ _ => mopTerm m
  | .ckptStore _ _ m _ _ => mopTerm m
  | .postEvent _ _ m _ => mopTerm m
  | _ => []

/-- The site at which a loader reads an instruction; nothing it checks depends on it. -/
def noSite : Site := ⟨0, 0⟩

/-- Word `k` of CODE. -/
def codeWord (code : List Byte) (k : Nat) : Nat := fld code (16 * k) 16

/-- The instructions of a program from its ENTRY. -/
def progCode (code : List Byte) (e : ProgEntry) : List (Option Instr) :=
  (List.range e.length).map (fun k => decode noSite (codeWord code (e.entry + k)))

/-- Whether an instruction ends a segment. -/
def endsSegment : Option Instr → Bool
  | some (.beat _ _) => true
  | some (.halt _) => true
  | _ => false

/-- The end of the body of the loop that an instruction at `k` begins. -/
def loopEnd (k : Nat) : Option Instr → Option Nat
  | some (.loop _ _ _ _ _ body) => some (k + 1 + body.toNat)
  | _ => none

/-- Whether a SKIP at `k` over `n` instructions keeps R83: no BEAT or HALT within, and no end of a loop crossed. `lim` is
the end of the innermost loop body, or of the program. -/
def skipOk (prog : List (Option Instr)) (lim k n : Nat) : Bool :=
  decide (k + 1 + n ≤ lim) && (List.range n).all (fun d =>
    let i := (prog[k + 1 + d]?).getD none
    !endsSegment i && (loopEnd (k + 1 + d) i).all (fun e => decide (e ≤ k + 1 + n)))

/-- The first instruction of a program that breaks R82, R83 or the loop rules of R144, walking it once. `stack` holds the
counters and ends of the loops around instruction `k`, innermost first. -/
def badInstr (prog : List (Option Instr)) : Nat → Nat → List (Nat × Nat) → Option Nat
  | 0, _, _ => none
  | fuel + 1, k, stack =>
    let stack := stack.filter (fun f => decide (k < f.2))
    let lim := match stack with
      | f :: _ => f.2
      | [] => prog.length
    match prog[k]? with
    | none => none
    | some none => badInstr prog fuel (k + 1) stack
    | some (some i) =>
      if (loopTerms i).any (fun c => stack.all (fun f => f.1 != c)) then some k
      else match i with
        | .loop _ lc _ _ _ body =>
          if lim < k + 1 + body.toNat ∨ 4 ≤ stack.length ∨ stack.any (fun f => f.1 == lc.toNat) then some k
          else badInstr prog fuel (k + 1) ((lc.toNat, k + 1 + body.toNat) :: stack)
        | .skip _ _ n => if skipOk prog lim k n.toNat then badInstr prog fuel (k + 1) stack else some k
        | _ => badInstr prog fuel (k + 1) stack

/-- Whether a program ends in HALT. -/
def endsInHalt (prog : List (Option Instr)) : Bool := match prog.getLast? with
  | some (some (.halt _)) => true
  | _ => false

/-! ### Program entries -/

/-- All program entries of the image: the section, the entry's offset in it, the entry, the offset of the record it stands
in, and for a FENCE_OVL record the FENCED mask. -/
def allEntries (img : List Byte) : List (Nat × Nat × ProgEntry × Nat × Option Nat) :=
  let base := ((List.range (strandEntryBytes img / 16)).map (fun k => (1, 16 * k, progEntry (section_ img 1) (16 * k), 0, none)))
  let ovl (sec : Nat) (l : List Overlay) : List (Nat × Nat × ProgEntry × Nat × Option Nat) :=
    l.flatMap (fun o => ((List.range o.entries.length).zip o.entries).map (fun e =>
      (sec, o.off + 16 + 16 * e.1, e.2, o.off, if sec = 6 then some (fld o.head 1 1) else none)))
  base ++ ovl 5 (modeOvls img) ++ ovl 6 (fenceOvls img) ++ ovl 7 (survivorOvls img)

/-- Reserved bits of a program entry. -/
def entryReserved (img : List Byte) (sec off : Nat) : Bool :=
  let b := section_ img sec
  bits (fld b off 1) 7 1 != 0 || bits (fld b (off + 1) 1) 2 5 != 0 || fld b (off + 2) 2 != 0

/-- Faults of program entries other than reserved bits. -/
def entryFault (img : List Byte) : Option LoadFault :=
  let l := allEntries img
  let n := (secRange img 0).2 / 16
  let bad (x : Nat × Nat × ProgEntry × Nat × Option Nat) : Bool :=
    let (sec, off, e, rec, mask) := x
    decide (n < e.entry + e.length)
      || (match mask with
          | none => decide (8 * imgGroups img ≤ e.core)
          | some m => decide (7 < e.core) || bits m e.core 1 == 1)
      || l.any (fun y => y.1 == sec && y.2.2.2.1 == rec && decide (y.2.1 < off) && y.2.2.1.core == e.core
          && y.2.2.1.strand == e.strand)
  (l.find? bad).map (fun x => (x.1, x.2.1))

/-- The starts of the init blocks that fill STRAND from an offset to its end (R87); none when the last runs past it. -/
def initStarts (img : List Byte) (len : Nat) : Nat → Nat → Option (List Nat)
  | 0, _ => none
  | fuel + 1, off =>
    if off = len then some []
    else
      let r := initRegs img off
      let next := off + 8 + 8 * (r.1.length + r.2.length)
      if len < next then none else (initStarts img len fuel next).map (off :: ·)

/-- Faults of init blocks (R87, R89): each INIT offset names the start of one of the blocks. The fault names the program
entry. -/
def initFault (img : List Byte) : Option LoadFault :=
  let len := (section_ img 1).length
  let lim := strandEntryBytes img
  let starts := initStarts img len (len + 1) lim
  let bad (x : Nat × Nat × ProgEntry × Nat × Option Nat) : Bool := match x.2.2.1.init with
    | none => false
    | some o => !starts.any (fun l => l.contains o)
  failIf (lim % 16 != 0) 1 lim <|> ((allEntries img).find? bad).map (fun x => (x.1, x.2.1))
    <|> failIf starts.isNone 1 lim

/-! ### Sections (R85, R88, R91, R93, R97) -/

/-- The init blocks of an image: all that fill STRAND (R87), or those that its entries name where these do not fill it. -/
def allInits (img : List Byte) : List Nat :=
  let len := (section_ img 1).length
  (initStarts img len (len + 1) (strandEntryBytes img)).getD ((allEntries img).filterMap (fun x => x.2.2.1.init))

/-- Reserved bits of the sections' records. -/
def reservedFault (img : List Byte) : Option LoadFault :=
  let sec (i : Nat) : List Byte := section_ img i
  let entries := (allEntries img).find? (fun x => entryReserved img x.1 x.2.1)
  let syncs := (List.range ((sec 2).length / 16)).map (16 * ·)
  let plans := imgPlans img
  firstFault
    [ failIf (bits (fld img 7 1) 3 5 != 0) 0xF 7, failIf (nonzero img 12 4) 0xF 12, failIf (nonzero img 192 64) 0xF 192
    , entries.map (fun x => (x.1, x.2.1))
    , failsAt 1 (allInits img) (fun o => nonzero (sec 1) (o + 6) 2)
    , failsAt 2 syncs (fun o => bits (fld (sec 2) (o + 2) 1) 2 6 != 0 || bits (fld (sec 2) (o + 12) 2) 15 1 != 0
        || nonzero (sec 2) (o + 14) 2)
    , failsAt 5 ((modeOvls img).map (·.off)) (fun o => nonzero (sec 5) (o + 1) 3 || nonzero (sec 5) (o + 12) 4)
    , failsAt 6 ((fenceOvls img).map (·.off)) (fun o => nonzero (sec 6) (o + 3) 1 || decide (64 ≤ fld (sec 6) (o + 14) 2))
    , failsAt 7 ((survivorOvls img).map (·.off)) (fun o => decide (64 ≤ fld (sec 7) o 2) || nonzero (sec 7) (o + 6) 10)
    , (plans.find? (fun r => decide (4 ≤ r.flags) || nonzero r.head 8 8
        || nonzero (sec 4) (r.off + 16 + r.body.length) ((16 - r.body.length % 16) % 16))).map (fun r => (4, r.off)) ]

/-- The header's faults (R89). -/
def headerFault (img : List Byte) (sel live : Nat) : Option LoadFault :=
  firstFault
    [ failIf (fld img 0 4 != 0x314E584A) 0xF 0, failIf (fld img 4 2 != 1) 0xF 4
    , failIf (imgDigestField img != imgDigest img) 0xF 0, failIf (imgPeriod img != sel) 0xF 7
    , failIf (imgGroups img == 0 || decide (12 < imgGroups img) || decide (live < imgGroups img)) 0xF 6
    , failIf (fld img 8 4 == 0) 0xF 8 ]

/-- The sync table's faults (R88, R89). DESIGN CHOICE (log 77): a table that is not whole records of 16 B is rejected. -/
def syncFault (img : List Byte) : Option LoadFault :=
  let b := section_ img 2
  let l := (List.range (b.length / 16)).map (16 * ·)
  let index (o : Nat) : Nat := bits (fld b o 2) 0 13
  firstFault
    [ failIf (b.length % 16 != 0) 2 0
    , failsAt 2 l (fun o => decide (8128 ≤ index o) || bits (fld b o 2) 13 3 != 0
        || l.any (fun q => decide (q < o) && index q == index o))
    , failsAt 2 l (fun o =>
        let hold := bits (fld b (o + 2) 1) 0 1 == 1
        (hold && bits (fld b (o + 2) 1) 1 1 == 1) || (!hold && fld b (o + 3) 1 != 0)
          || (hold && decide (8 * imgGroups img ≤ fld b (o + 3) 1))) ]

/-- Whether an earlier record of a list has the same key. -/
def repeated (l : List Overlay) (key : Overlay → List Nat) (o : Overlay) : Bool :=
  l.any (fun q => decide (q.off < o.off) && key q == key o)

/-- The overlay records' faults (R89, R91, R93, R97); a record whose entries run past its section is one (log 60). -/
def overlayFault (img : List Byte) : Option LoadFault :=
  let m := modeOvls img
  let f := fenceOvls img
  let v := survivorOvls img
  let ones (x : Nat) : Nat := ((List.range 8).filter (fun k => bits x k 1 == 1)).length
  let cut (sec at_ len : Nat) (o : Overlay) : Bool :=
    decide ((section_ img sec).length < o.off + 16 + 16 * fld o.head at_ len)
  let fkey (o : Overlay) : List Nat := [fld o.head 0 1, fld o.head 1 1, fld o.head 2 1, fld o.head 14 2]
  let vkey (o : Overlay) : List Nat := [fld o.head 0 2, fld o.head 2 1]
  firstFault
    [ (m.find? (cut 5 8 4)).map (fun o => (5, o.off)), (f.find? (cut 6 4 2)).map (fun o => (6, o.off))
    , (v.find? (cut 7 4 2)).map (fun o => (7, o.off))
    , (m.find? (fun o => fld o.head 0 1 == 0 || decide (3 < fld o.head 0 1) || fld o.head 4 4 == 0
        || repeated m (fun q => [fld q.head 0 1]) o)).map (fun o => (5, o.off))
    , (f.find? (fun o => decide (imgGroups img ≤ fld o.head 0 1) || ones (fld o.head 1 1) == 0
        || decide (2 < ones (fld o.head 1 1)) || decide (3 < fld o.head 2 1)
        || (List.range 8).any (fun k => decide (7 < fld o.head (6 + k) 1)) || repeated f fkey o)).map (fun o => (6, o.off))
    , (v.find? (fun o => decide (3 < fld o.head 2 1) || decide (30 < fld o.head 3 1) || fld o.head 0 2 == 0
        || repeated v vkey o)).map (fun o => (7, o.off)) ]

/-- Whether a context maps a range of bytes. -/
def State.mapsRange (s : State) (c va n : Nat) : Bool := (framesOf va n).all (fun vf => (s.mapping c vf).isSome)

/-- The faults of ROOTS (R271). -/
def State.rootsFault (s : State) (c : Nat) (img : List Byte) : Option LoadFault :=
  let b := section_ img 3
  match imgRoots img with
  | none => none
  | some r =>
    let out (va n : Nat) : Bool := !s.mapsRange c va n
    firstFault
      [ failIf (b.length < 16448) 3 0, failIf (r.layers == 0 || decide (1024 < r.layers)) 3 0
      , failIf (r.heads == 0 || decide (64 < r.heads)) 3 2, failIf (r.fmt != 0 && r.fmt != 2) 3 3
      , failIf (r.hbmFrames == 0 || decide (2 ^ 24 < r.hbmFrames)) 3 4
      , failIf (r.hbmBase % 65536 != 0 || out r.hbmBase (r.hbmFrames * r.frameSize)) 3 8
      , failIf (2 ^ 24 < r.lpFrames) 3 16, failIf (r.lpBase % 65536 != 0 || out r.lpBase (r.lpFrames * r.frameSize)) 3 20
      , failIf (r.ftab % 4096 != 0 || out r.ftab (16 * (r.hbmFrames + r.lpFrames))) 3 28
      , failIf (r.stab % 4096 != 0 || out r.stab (32 * r.streams)) 3 36
      , failIf (r.ring % 4096 != 0 || out r.ring (32 * r.ringN)) 3 44
      , failIf (r.ringN == 0 || decide (4096 < r.ringN)) 3 52
      , failIf (decide (8192 ≤ fld b 54 2) || decide (8128 ≤ r.doorbell)) 3 54
      , failIf (r.hbmFrames < r.rcFrames) 3 56, failIf (r.hdim == 0 || decide (8 < r.hdim) || decide (16 ≤ fld b 60 1)) 3 60
      , failIf (nonzero b 61 3) 3 61
      , failsAt 3 ((List.range 4096).map (fun v => 64 + 4 * v)) (fun o => bits (fld b o 4) 24 7 != 0) ]

/-- The faults of PLANS (R450). -/
def plansFault (img : List Byte) (node : Nat) : Option LoadFault :=
  let b := section_ img 4
  let l := imgPlans img
  let at_ (p : PlanRec → Bool) : Option LoadFault := (l.find? p).map (fun r => (4, r.off))
  let earlier (p : PlanRec → Bool) (r : PlanRec) : Bool := p r && l.any (fun q => p q && decide (q.off < r.off))
  let verdict (r : PlanRec) : Bool := bits r.flags 0 1 == 1
  firstFault
    [ at_ (fun r => decide (b.length < r.off + 16 + fld r.head 4 4))
    , at_ (fun r => decide (r.kind = 0 ∨ 5 < r.kind))
    , at_ (fun r => r.kind != 5 && (!r.members0.contains node || r.members0.eraseDups.length != r.members0.length))
    , at_ (earlier (fun r => r.kind == 5)), at_ (fun r => r.kind != 2 && verdict r)
    , at_ (earlier (fun r => r.kind == 2 && verdict r))
    , failIf (!l.any (fun r => r.kind == 2 && verdict r)) 4 0 ]

/-- The first condition of R89 that an image meets: none when the loader accepts it. DESIGN CHOICE (log 77): a CODE
section that is not whole instructions of 16 B is rejected, which R89 does not list. -/
def State.loadFault (s : State) (c : Nat) (img : List Byte) : Option LoadFault :=
  let code := section_ img 0
  let progs := (allEntries img).filter (fun x => x.2.2.1.enable)
  let bad (f : List (Option Instr) → ProgEntry → Option Nat) : Option LoadFault :=
    (progs.filterMap (fun x => f (progCode code x.2.2.1) x.2.2.1)).head?.map (fun k => (0, 16 * k))
  let live := ((List.range 12).filter (fun g => !(s.group g).whole)).length
  headerFault img s.bt.sel.toNat live
    <|> ((List.range 8).find? (fun i =>
          decide ((secRange img i).2 ≠ 0 ∧ img.length < (secRange img i).1 + (secRange img i).2))).map (fun i => (i, 0))
    <|> reservedFault img <|> initFault img <|> entryFault img
    <|> failIf (code.length % 16 != 0) 0 (code.length / 16 * 16)
    <|> failsAt 0 ((List.range (code.length / 16)).map (16 * ·)) (fun o => !legalWord noSite (codeWord code (o / 16)))
    <|> bad (fun p e => (badInstr p (p.length + 1) 0 []).map (e.entry + ·))
    <|> bad (fun p e => if endsInHalt p then none else some (e.entry + e.length - 1))
    <|> syncFault img <|> overlayFault img <|> s.rootsFault c img <|> plansFault img s.node

/-- Install an image for a context (R538): the page unit marks every frame FREE (R271), and the pool's frames are
reserved (R364). -/
def State.installImage (s : State) (c : Nat) (img : List Byte) : State :=
  let s := s.dropPool c
  let x := s.ctx c
  let s := s.setCtx c { x with image := some img, newImage := true, entries := 0 }
  let s := match imgRoots img with
    | some r => s.vwrite c r.ftab (List.replicate (16 * (r.hbmFrames + r.lpFrames)) 0)
    | none => s
  s.reservePool c img

end Sys2Proof.Machine
end

