-- ==== Sys2Proof/Machine/Mailbox.lean ====
section
/-!
DEFINITION. Machine/Mailbox.lean: the mailbox (R535 to R537): SUMMARY, the field tests and FENCE_EDIT (R500, R537), the
context commands (R507, R508), keys and attestation (R514 to R519).
-/

namespace Sys2Proof.Machine

/-! ### The protocol (R535, R536) -/

/-- Whether a path reaches the register window: PCIe once its link has trained, the management paths from the end of
stage 2 (R526, R527). -/
def State.live (s : State) (p : Path) : Bool :=
  match p with
  | .pcie => s.pins.pcieTrained
  | _ => s.pins.stage2

/-- Bit 8 of MBOX_BUSY (R544): PCIe, or a management path. -/
def pathBit : Path → Nat
  | .pcie => 0
  | _ => 1

/-- The 256 argument bytes. -/
def State.args (s : State) : List Byte :=
  (List.range 32).flatMap (fun k => toBytes 8 (s.get Reg.SVC_MBOX_ARG_ARG 0 k))

/-- A command that `SVC_MBOX_CMD` starts: a GO while BUSY is discarded with its write (R536); else CODE and TAG are
taken, STATE is BUSY, the response area is empty, and the command runs. -/
def State.mailbox (s : State) (p : Path) (code : Nat) (tag : Byte) (run : State → State) : State :=
  if !s.live p then s
  else if s.svc.mbox.st = .busy then s.event 0x0B07 (code % 2 ^ 8 + pathBit p * 2 ^ 8)
  else
    let m : Mbox :=
      { st := .busy, tag := tag, code := BitVec.ofNat 8 code, result := 0, len := 0, job := none, resp := [] }
    let s := { s with svc := { s.svc with mbox := m } }
    run ((s.put Reg.SVC_MBOX_CMD_CODE code).put Reg.SVC_MBOX_CMD_TAG tag.toNat)

/-- The command that runs. -/
def State.setMboxJob (s : State) (j : MboxJob) : State :=
  { s with svc := { s.svc with mbox := { s.svc.mbox with job := some j } } }

/-- RESULT 1: not accepted in this state. -/
def State.notAccepted (s : State) : State := s.mboxEnd .refused 1
/-- RESULT 2: argument reserved or out of range. -/
def State.badArgument (s : State) : State := s.mboxEnd .refused 2

/-- `SVC_STATE` is READY, JOINING or RUNNING. -/
def State.svcUp (s : State) : Bool :=
  match s.svc.st with
  | .ready => true
  | .joining => true
  | .running => true
  | _ => false

/-- No context is LOADED, RUNNING or SUSPENDED (R537). -/
def State.noContext (s : State) : Bool := (List.range 16).all (fun c => (s.ctx c).st == .free)

/-- MBOX_ARG_WRITE (R535, R536): a write while BUSY is discarded; it names no code (0). -/
def execMboxArgWrite (path : Path) (k : BitVec 5) (v : W64) (s : State) : Host.Outcome State Fault Refusal :=
  .next (if !s.live path then s
    else if s.svc.mbox.st = .busy then s.event 0x0B07 (pathBit path * 2 ^ 8)
    else s.put Reg.SVC_MBOX_ARG_ARG v.toNat 0 k.toNat)

/-! ### SUMMARY (R542) -/

/-- The block is taken at once in DETACHED and before READY, else at the next boundary. -/
def State.cmdSummary (s : State) : State :=
  let early := match s.svc.st with
    | .standby => true
    | .rails => true
    | .bist => true
    | _ => false
  if early || s.bt.st == .detached then s.takeSummary else s.setMboxJob .summary

/-- SUMMARY (R542). -/
def execSummary (path : Path) (tag : Byte) (s : State) : Host.Outcome State Fault Refusal :=
  .next (s.mailbox path 0x01 tag State.cmdSummary)

/-! ### Field tests and FENCE_EDIT (R500, R537) -/

/-- A field test starts in READY with no context (R500, R537). -/
def State.cmdTest (stress : Bool) (s : State) : State :=
  if s.svc.st = .ready ∧ s.noContext = true then s.setMboxJob (.test stress) else s.notAccepted

/-- TEST_NATIVE (R500). -/
def execTestNative (path : Path) (tag : Byte) (s : State) : Host.Outcome State Fault Refusal :=
  .next (s.mailbox path 0x02 tag (State.cmdTest false))

/-- TEST_STRESS (R500). -/
def execTestStress (path : Path) (tag : Byte) (s : State) : Host.Outcome State Fault Refusal :=
  .next (s.mailbox path 0x03 tag (State.cmdTest true))

/-- A set of cores as a list. -/
def coresOf (m : BitVec 96) : List Nat := (List.range 96).filter (fun c => m.getLsbD c)

/-- Give a cause to cores in the record. -/
def FenceRec.mark (r : FenceRec) (cores : List Nat) (cause : Byte) : FenceRec :=
  { r with cause := cores.foldl (fun t c => Tab.set 0 t c cause) r.cause }

/-- The cores of groups given as a mask. -/
def groupCores (g : BitVec 12) : BitVec 96 :=
  coreMask (((List.range 12).filter (fun k => g.getLsbD k)).flatMap (fun k => (List.range 8).map (8 * k + ·)))

/-- Fence cores outside a job: with the groups that R36 then fences as a whole, in the device and in the record. -/
def State.fenceNow (s : State) (cores : BitVec 96) (cause : Byte) (marginal : BitVec 96) : State :=
  let new := coresOf (cores &&& ~~~ s.flt.fenced)
  let s := { s with flt := { s.flt with fenced := s.flt.fenced ||| cores } }
  let s := s.wholeGroups
  let r := s.fenceRec.mark new cause
  s.writeRecord { r with
    fenced := r.fenced ||| cores, groups := r.groups ||| s.wholeMask, marginal := r.marginal ||| marginal }

/-- FIELD_TEST_DONE (R500): failing cores and groups are fenced in the record; marginal cores of the stress test are
recorded and fenced for the next job. -/
def execFieldTestDone (failing : BitVec 96) (failGroups : BitVec 12) (s : State) : Host.Outcome State Fault Refusal :=
  .next (match s.svc.mbox.job with
    | some (.test true) => (s.fenceNow failing 6 failing).mboxEnd .done 0
    | some (.test false) => (s.fenceNow (failing ||| groupCores failGroups) 1 0).mboxEnd .done 0
    | _ => s)

/-- FENCE_EDIT (R537): cores set, then cores cleared, then whole groups judged again (R36). -/
def State.cmdFenceEdit (s : State) : State :=
  let a := s.args
  let set := BitVec.ofNat 96 (fld a 0 12)
  let clear := BitVec.ofNat 96 (fld a 12 12)
  let cause := fld a 24 1
  let ok := match s.svc.st with
    | .ready => true
    | .unusable => true
    | _ => false
  if !ok || !s.noContext then s.notAccepted
  else if 7 < cause then s.badArgument
  else
    let fenced := (s.flt.fenced ||| set) &&& ~~~ clear
    let groups : Tab GroupSt := (List.range 12).foldl (fun t g =>
      Tab.set GroupSt.reset t g { Tab.get GroupSt.reset t g with whole := false }) s.groups
    let s := { s with groups := groups, flt := { s.flt with fenced := fenced } }
    let s := s.wholeGroups
    let r := (s.fenceRec.mark (coresOf (set &&& ~~~ clear)) (BitVec.ofNat 8 cause)).mark (coresOf clear) 0
    (s.writeRecord { r with fenced := s.flt.fenced, groups := s.wholeMask } true).mboxEnd .done 0

/-- FENCE_EDIT (R537). -/
def execFenceEdit (path : Path) (tag : Byte) (s : State) : Host.Outcome State Fault Refusal :=
  .next (s.mailbox path 0x04 tag State.cmdFenceEdit)

/-! ### Contexts (R507, R508) -/

/-- A context command is refused (R507, R508, R525): RESULT 1 for the state of the context, else 2. -/
def State.ctxRefuse (s : State) (c cause : Nat) : State :=
  let s := s.event 0x0A03 (s.svc.mbox.code.toNat + c * 2 ^ 8 + cause * 2 ^ 12)
  (s.put Reg.SEC_STATUS_REFUSED 1).mboxEnd .refused (if cause ≤ 2 then 1 else 2)

/-- Run a context command: its state, its first cause of refusal in the order of R507, its effect. -/
def State.ctxCommand (s : State) (ok : Bool) (c : Nat) (causes : List (Bool × Nat)) (run : State → State) : State :=
  if !ok then s.notAccepted
  else match causes.find? (fun x => x.1) with
    | some x => s.ctxRefuse c x.2
    | none => run s

/-- Whether an argument byte outside the listed ranges is not 0 (R508). -/
def argsDirty (a : List Byte) (used : List (Nat × Nat)) : Bool :=
  (List.range 256).any (fun k => !used.any (fun r => decide (r.1 ≤ k ∧ k < r.1 + r.2)) && a.getD k 0 != 0)

/-- The context of byte 0 and whether its reserved bits are set. -/
def ctxArg (a : List Byte) : Nat × Bool := (fld a 0 1 % 16, fld a 0 1 / 16 != 0)

/-- A frame that some context has: it cannot become a save frame (R508). -/
def FrameSt.taken : FrameSt → Bool
  | .mapped _ _ => true
  | .save _ => true
  | .pool _ => true
  | .retired => true
  | _ => false

/-- A new context with generated keys (R507, R514). -/
def State.newCtx (s : State) (save : Nat) (blob : Option Nat) : Ctx :=
  { Ctx.reset with
    st := .loaded, save := save, lpKey := Config.key s.draw, flashKey := Config.key (s.draw + 1), sealedSlot := blob }

/-- CTX_CREATE (R508). -/
def State.cmdCtxCreate (s : State) : State :=
  let a := s.args
  let (c, bad) := ctxArg a
  let save := fld a 8 8
  let f := save / frameBytes
  let blob := if fld a 1 1 % 2 = 1 then some (fld a 2 1 % 16) else none
  s.ctxCommand s.svcUp c
    [((s.ctx c).st != .free, 1), (decide (save % frameBytes ≠ 0 ∨ hbmFrames ≤ f) || (s.frame f).taken, 3)
    , (bad || decide (2 ≤ fld a 1 1 ∨ 16 ≤ fld a 2 1) || argsDirty a [(0, 3), (8, 8)], 5)]
    (fun s =>
      let x := s.newCtx f blob
      let s := { s with mem := zeroFrame s.mem f }
      (((s.setFrame f (.save c)).setCtx c x).drawn.drawn).mboxEnd .done 0)

/-- CTX_CREATE (R508). -/
def execCtxCreate (path : Path) (tag : Byte) (s : State) : Host.Outcome State Fault Refusal :=
  .next (s.mailbox path 0x10 tag State.cmdCtxCreate)

/-- The first frame of the view aperture (R393). -/
def viewStart : Nat := 0xE00000000000 / frameBytes

/-- A virtual base that is misaligned or whose frames leave the ordinary range (R393, R508). -/
def baseBad (va n : Nat) : Bool := decide (va % frameBytes ≠ 0 ∨ viewStart < va / frameBytes + n)

/-- Whether two ranges of frames overlap. -/
def rangesMeet (a m b n : Nat) : Bool := decide (a < b + n ∧ b < a + m)

/-- A range of frames in which the context has a mapping or a view range. -/
def Ctx.covers (x : Ctx) (vf n : Nat) : Bool :=
  x.maps.any (fun e => decide (vf ≤ e.1 ∧ e.1 < vf + n)) || x.views.any (fun v => rangesMeet vf n v.c v.n)

/-- The frames of a tier that are not retired: what the pool can ever supply. -/
def State.supply (s : State) (lp : Bool) : Nat :=
  let (base, n) := if lp then (lpBase, lpFrames) else (0, hbmFrames)
  n - (s.frames.filter (fun e => decide (base ≤ e.1 ∧ e.1 < base + n) && e.2 == FrameSt.retired)).length

/-- A mapping change waits for its boundary (R395); with the beat DETACHED it takes effect at once. -/
def State.queueMap (s : State) (ch : MapChange) : State :=
  let s := { s.setMboxJob (.mapping ch) with mapChanges := s.mapChanges ++ [ch] }
  if s.bt.st = .detached then s.applyMapChanges else s

/-- CTX_MAP (R507, R508). -/
def State.cmdCtxMap (s : State) : State :=
  let a := s.args
  let (c, bad) := ctxArg a
  let attr := fld a 1 1
  let bit (k : Nat) : Bool := attr / 2 ^ k % 2 == 1
  let va := fld a 8 8
  let n := fld a 16 4
  let view := bit 4
  let g0 := fld a 24 8
  let g1 := fld a 32 8
  let vf := va / frameBytes
  let f0 := g0 / frameBytes
  let f1 := g1 / frameBytes
  let x := s.ctx c
  let gens := view && (baseBad g0 n || baseBad g1 n)
  let own := view && (rangesMeet vf n f0 n || rangesMeet vf n f1 n || rangesMeet f0 n f1 n)
  let need := if view then 2 * n else n
  let used := if view then [(0, 2), (8, 12), (24, 16)] else [(0, 2), (8, 12)]
  s.ctxCommand s.svcUp c
    [(x.st == .free, 0), (decide (s.supply (bit 0) < need) || (view && decide (256 ≤ x.views.length)), 4)
    , (x.covers vf n || own || (view && (x.covers f0 n || x.covers f1 n)), 6)
    , (bad || decide (32 ≤ attr) || (bit 2 && !bit 0) || baseBad va n || gens || decide (n = 0 ∨ 2 ^ 24 < n)
        || argsDirty a used, 5)]
    (fun s => s.queueMap (.map c vf n (if bit 0 then .lpddr else .hbm) (bit 1) (bit 2) (bit 3) view f0 f1))

/-- CTX_MAP (R508). -/
def execCtxMap (path : Path) (tag : Byte) (s : State) : Host.Outcome State Fault Refusal :=
  .next (s.mailbox path 0x11 tag State.cmdCtxMap)

/-- CTX_UNMAP (R507, R508). -/
def State.cmdCtxUnmap (s : State) : State :=
  let a := s.args
  let (c, bad) := ctxArg a
  let va := fld a 8 8
  s.ctxCommand s.svcUp c
    [((s.ctx c).st == .free, 0)
    , (bad || decide (va % frameBytes ≠ 0 ∨ viewStart ≤ va / frameBytes) || argsDirty a [(0, 1), (8, 12)], 5)]
    (fun s => s.queueMap (.unmap c (va / frameBytes) (fld a 16 4)))

/-- CTX_UNMAP (R508). -/
def execCtxUnmap (path : Path) (tag : Byte) (s : State) : Host.Outcome State Fault Refusal :=
  .next (s.mailbox path 0x12 tag State.cmdCtxUnmap)

/-- CTX_SWITCH (R508, R509): the pending switch is recorded, and the target's frames in flash start to move back. -/
def State.cmdCtxSwitch (s : State) : State :=
  let a := s.args
  let (c, bad) := ctxArg a
  s.ctxCommand s.svcUp c [((s.ctx c).st == .free, 0), (bad || argsDirty a [(0, 1), (8, 8)], 5)]
    (fun s =>
      let s := { s with sec := { s.sec with switchTo := some (Fin.ofNat 16 c, fld a 8 8), deferred := false } }
      s.returnTarget.mboxEnd .done 0)

/-- CTX_SWITCH (R509). -/
def execCtxSwitch (path : Path) (tag : Byte) (s : State) : Host.Outcome State Fault Refusal :=
  .next (s.mailbox path 0x13 tag State.cmdCtxSwitch)

/-- A context is destroyed (R507, R512, R514, R515): its frames go to scrubbing, its flash blocks are trimmed, its keys
and sessions end, and its job and connections with it. -/
def State.destroyCtx (s : State) (c : Nat) : State :=
  let x := s.ctx c
  let s := if x.job.isSome then s.leaveJob c else s.closeCtx c
  let s := (x.maps.filterMap (fun e => e.2)).foldl State.releaseMapping s
  let frames : Tab FrameSt := s.frames.mapv FrameSt.free (fun x =>
    if x = FrameSt.save c ∨ x = FrameSt.pool c then FrameSt.quarantine s.beat else x)
  let gens := s.gens.filter (fun g => g.key != x.flashKey)
  let s : State := { s with frames := frames, gens := gens }
  let s : State := if s.sec.shown = some c then
      { s with so := [], regs := s.regs.filter (fun e => !isCtxReg e.1), flt := { s.flt with map := FaultMap.reset }
               sec := { s.sec with shown := none } }
    else s
  let sec := { s.sec with
    sessions := s.sec.sessions.filter (fun e => e.ctx != some c), halted := s.sec.halted.filter (fun k => k != c)
    haltPend := s.sec.haltPend.filter (fun h => h.1 != c) }
  ({ s with sec := sec }).setCtx c Ctx.reset

/-- CTX_DESTROY (R507, R508): not of the context that runs or that a switch is bringing in. -/
def State.cmdCtxDestroy (s : State) : State :=
  let a := s.args
  let (c, bad) := ctxArg a
  let incoming := s.sec.switching.any (fun w => w.1.val == c)
  s.ctxCommand s.svcUp c
    [((s.ctx c).st == .free, 0), (s.running == some c || incoming, 2), (bad || argsDirty a [(0, 1)], 5)]
    (fun s => (s.destroyCtx c).mboxEnd .done 0)

/-- CTX_DESTROY (R508). -/
def execCtxDestroy (path : Path) (tag : Byte) (s : State) : Host.Outcome State Fault Refusal :=
  .next (s.mailbox path 0x14 tag State.cmdCtxDestroy)

/-! ### Keys and attestation (R514 to R519) -/

/-- Why an import fails (R518, R525), or the key. Silelaot unwraps the blob with the attestation key and its nonce. -/
def State.importKey (s : State) (c slot : Nat) (blob : List Byte) : Except Nat (BitVec 256) :=
  let x := s.ctx c
  match x.ephemeral with
  | none => .error 1
  | some (k, nonce, spent) =>
    match Config.unwrapKey k (blob ++ toBytes 1 c ++ toBytes 1 slot ++ toBytes 64 nonce.toNat) with
    | none => .error 0
    | some key =>
      if spent then .error 1
      else if (Tab.get none x.slots slot).isSome then .error 2
      else .ok key

/-- KEY_IMPORT (R518). -/
def State.cmdKeyImport (s : State) : State :=
  let a := s.args
  let (c, bad) := ctxArg a
  let slot := fld a 1 1
  s.ctxCommand s.svcUp c
    [((s.ctx c).st == .free, 0), (bad || decide (8 ≤ slot) || argsDirty a [(0, 2), (16, 144)], 5)]
    (fun s =>
      match s.importKey c slot ((a.drop 16).take 144) with
      | .error why =>
        ((s.put Reg.SEC_STATUS_IMPORT 1).event 0x0A05 (c + slot * 2 ^ 4 + why * 2 ^ 7)).mboxEnd .refused 2
      | .ok key =>
        let x := s.ctx c
        (s.setCtx c { x with
          slots := Tab.set none x.slots slot (some key)
          ephemeral := x.ephemeral.map (fun e => (e.1, e.2.1, true)) }).mboxEnd .done 0)

/-- KEY_IMPORT (R518). -/
def execKeyImport (path : Path) (tag : Byte) (s : State) : Host.Outcome State Fault Refusal :=
  .next (s.mailbox path 0x15 tag State.cmdKeyImport)

/-- UNSEAL_ATTEMPT (R508, R517): at the first moment at which the context holds an image and a key in slot 0. -/
def execUnsealAttempt (ctx : Fin 16) (s : State) : Host.Outcome State Fault Refusal :=
  let c := ctx.val
  let x := s.ctx c
  .next (match x.sealedSlot, x.image, Tab.get none x.slots 0 with
    | some n, some img, some k =>
      let x := { x with sealedSlot := none }
      match Tab.get none s.svc.blobs n with
      | some (digest, slot0, key) =>
        if digest = BitVec.ofNat 384 (ofBytes (imgDigestField img)) ∧ slot0 = k then
          s.setCtx c { x with flashKey := key, unsealed := true }
        else ((s.setCtx c x).put Reg.SEC_STATUS_UNSEAL 1).event 0x0A07 c
      | none => ((s.setCtx c x).put Reg.SEC_STATUS_UNSEAL 1).event 0x0A07 c
    | _, _, _ => s)

/-- All CORE_REG, MT_REG and FAB_SHARE values, in the order of their offsets (R519). -/
def State.regulators (s : State) : List Byte :=
  let mt := (List.range 4).flatMap (fun i => (List.range 6).map (fun j => Reg.MT_REG_RATE.off i j))
  let fab := (List.range 6).map (fun j => Reg.FAB_SHARE_CAP.off 0 j)
  let core := (List.range 96).flatMap (fun i => (List.range 6).map (fun j => Reg.CORE_REG_RATE.off i j))
  (mt ++ fab ++ core).flatMap (fun off => toBytes 8 (s.regRead off).toNat)

/-- `n` bytes of a function. -/
def bytesOf (n : Nat) (f : Nat → Byte) : List Byte := (List.range n).map f

/-- The report of R519 with a nonce, for the key and the signature of this draw. -/
def State.report519 (s : State) (c : Nat) (nonce : List Byte) : List Byte :=
  let x := s.ctx c
  let feed := (s.tagOf s.node).toNat + 16 * s.get Reg.FLT_FEED_FORCE
  let partner := ({ s with flt := { s.flt with map := s.fltOf c } } : State).partnerBytes
  layoutBytes 1024
    [(0, toBytes 4 0x52544C53 ++ toBytes 2 1 ++ toBytes 2 1024), (8, toBytes 8 s.beat), (16, serialBytes)
    , (32, bytesOf 96 Config.idKey), (128, digestsBytes), (416, bytesOf 32 Config.fuses), (448, toBytes 8 x.dbgBits.toNat)
    , (456, toBytes 12 s.flt.fenced.toNat), (468, toBytes 1 s.modeInForce.toNat)
    , (469, toBytes 1 (c + 16 * (s.running == some c).toNat)), (472, s.contextsBytes)
    , (600, (x.image.map imgDigestField).getD []), (648, digestBytes (sha384 s.regulators)), (696, partner)
    , (712, toBytes 4 feed), (716, toBytes 4 (s.stepOf c)), (720, nonce)
    , (784, bytesOf 96 (Config.publicKey (Config.key s.draw))), (928, bytesOf 96 (Config.cryptoByte s.draw))]

/-- ATTEST (R519): the report fills the response area, and its EPUB accepts one import (R518). -/
def State.cmdAttest (s : State) : State :=
  let a := s.args
  let (c, bad) := ctxArg a
  let nonce := (a.drop 16).take 64
  s.ctxCommand (s.svcUp || s.svc.st == .selfFenced) c
    [((s.ctx c).st == .free, 0), (bad || argsDirty a [(0, 1), (16, 64)], 5)]
    (fun s =>
      let resp : Tab Byte := Tab.setRange 0 [] 0 (s.report519 c nonce)
      let key := Config.key s.draw
      let s := s.setCtx c { s.ctx c with ephemeral := some (key, BitVec.ofNat 512 (ofBytes nonce), false) }
      let s := { s with svc := { s.svc with mbox := { s.svc.mbox with resp := resp } } }
      s.drawn.mboxEnd .done 0 1024)

/-- ATTEST (R519). -/
def execAttest (path : Path) (tag : Byte) (s : State) : Host.Outcome State Fault Refusal :=
  .next (s.mailbox path 0x16 tag State.cmdAttest)

end Sys2Proof.Machine
end

