-- ==== Sys2Proof/Machine/Jobs.lean ====
section
/-!
DEFINITION. Machine/Jobs.lean: loading images, joining and leaving the fabric (R354, R439, R486, R487, R538 to R541,
R562), and the working copies of an adopted set (R477).
-/

namespace Sys2Proof.Machine

/-! ### Bytes of a context, wherever its frames are -/

/-- One byte of a context, from flash too. -/
def State.peek (s : State) (c va : Nat) : Byte :=
  match s.mapping c (va / frameBytes) with
  | none => 0
  | some m => Tab.get 0 (if m.tier = .flash then s.flash else s.mem) (m.frame * frameBytes + va % frameBytes)

/-- Set one byte of a context, in flash too. -/
def State.poke (s : State) (c va : Nat) (b : Byte) : State :=
  match s.mapping c (va / frameBytes) with
  | none => s
  | some m =>
    let pa := m.frame * frameBytes + va % frameBytes
    if m.tier = .flash then { s with flash := Tab.set 0 s.flash pa b } else { s with mem := Tab.set 0 s.mem pa b }

/-- Set bytes of a context from `va` up. -/
def State.pokes (s : State) (c va : Nat) : List Byte → State
  | [] => s
  | b :: bs => (s.poke c va b).pokes c (va + 1) bs

/-! ### IMAGE_LOAD (R538) -/

/-- A context that is LOADED or SUSPENDED. -/
def State.idleCtx (s : State) (c : Nat) : Bool :=
  match (s.ctx c).st with
  | .loaded => true
  | .suspended => true
  | _ => false

/-- The block of a shared-store source (R496, R538): a block size or an offset out of range. -/
def storeBad (a : List Byte) : Bool := decide (1 < fld a 54 1)

/-- IMAGE_LOAD (R537, R538): the transfer begins; from the shared store it is one NVMe/TCP read. -/
def State.cmdImageLoad (s : State) : State :=
  let a := s.args
  let (c, bad) := ctxArg a
  let kind := fld a 1 1
  let src := fld a 2 1
  let dest := fld a 8 8
  let len := fld a 16 8
  if !s.svcUp || !s.idleCtx c then s.notAccepted
  else if bad || decide (1 < kind ∨ 1 < src ∨ dest % 512 ≠ 0) || !s.mapsRange c dest len || (src == 1 && storeBad a) then
    s.badArgument
  else
    let s := s.setMboxJob (.imageLoad c dest len (kind == 0))
    if src = 1 then s.nvmeBegin .imageLoad (targetAt a 32) (fld a 56 8) len [] else s

/-- IMAGE_LOAD (R538). -/
def execImageLoad (path : Path) (tag : Byte) (s : State) : Host.Outcome State Fault Refusal :=
  .next (s.mailbox path 0x20 tag State.cmdImageLoad)

/-- IMAGE_LOAD_DONE (R89, R537, R538): the bytes are written; an image is checked, and installed or rejected. `none` is
a transfer that failed after its retries. -/
def execImageLoadDone (bytes : Option (List Byte)) (s : State) : Host.Outcome State Fault Refusal :=
  .next (match s.svc.mbox.job with
    | some (.imageLoad c dest len image) =>
      let s := { s with nvme := s.nvme.filter (fun o => o.use != NvmeUse.imageLoad) }
      match bytes with
      | none => s.mboxEnd .done 5
      | some bs =>
        let bs := bs.take len
        let s := s.pokes c dest bs
        if !image then s.mboxEnd .done 0
        else match s.loadFault c bs with
          | none => (s.installImage c bs).mboxEnd .done 0
          | some f =>
            let s := s.setCtx c { s.ctx c with image := none }
            (s.eventFor c 0x0B20 (f.1 + f.2 * 2 ^ 4)).mboxEnd .done 3
    | _ => s)

/-! ### Joining: orders 1 to 4 (R439, R486, R487, R539, R569) -/

/-- The context and order of a join in progress, and whether it joins as a spare. -/
def State.joining (s : State) : Option (Nat × Nat × Bool) :=
  match s.svc.mbox.job with
  | some (.jobStart c o) => some (c, o, false)
  | some (.spareJoin c o) => some (c, o, true)
  | _ => none

/-- The last order completed. -/
def State.setOrder (s : State) (o : Nat) : State :=
  match s.svc.mbox.job with
  | some (.jobStart c _) => s.setMboxJob (.jobStart c o)
  | some (.spareJoin c _) => s.setMboxJob (.spareJoin c o)
  | _ => s

/-- The beat unit follows a beat already for another resident context (R539). -/
def State.beatHeld (s : State) : Bool :=
  match s.bt.st with
  | .locked => true
  | .holdover => true
  | _ => false

/-- The members of a context's job (R539, R569). -/
def State.jobMembers (s : State) (c : Nat) : List Nat := imgNodes ((s.ctx c).image.getD [])

/-- Order 1 begins: marker peers and watchers are formed, the lowest member is the reference, the beat unit acquires
(R53, R56, R57, R569). With no assignment that meets R52 the system is not formed (R458, log 13). -/
def State.beginAcquire (s : State) : State :=
  let lowest := s.flt.map.members.min?
  let bt := { BeatUnit.reset with
    st := .acquire, sel := s.bt.sel, count := s.bt.count, heart := s.bt.heart
    refNode := lowest.map (BitVec.ofNat 15), hops := if lowest = some s.node then 0 else 7 }
  match pairing s.peerSet 0 with
  | some f => ({ s with bt := bt }).assign f 0
  | none => s.abortJoin 6

/-- Order 2 (R486, R487): the partner map of the context's job; `tell` reports the pairings skipped and forced. A spare
has no set of its own. -/
def State.formPartners (s : State) (c : Nat) (spare tell : Bool) : State :=
  let m := s.fltOf c
  let l := m.members.filter (fun n => !(spare && n == s.node))
  let s := s.setFlt c { m with sets := s.formPairs l }
  if !tell then s
  else
    let skip := if spare then [] else s.skippedPairs l
    let s := skip.foldl (fun (s : State) n => s.event 0x090E (n + (s.tagOf n).toNat * 2 ^ 15)) s
    let forced := ((s.fltOf c).sets.filter (fun x => x.owner == s.node)).flatMap (fun x =>
      x.holders.filter (fun h => s.tagOf h == s.tagOf s.node))
    forced.foldl (fun (s : State) h => s.event 0x090F (h + (s.tagOf h).toNat * 2 ^ 15)) s

/-- Order 4 (R439): connections to the members in ascending order, until 6,144 are open. -/
def State.openMembers (s : State) (c : Nat) : State :=
  ((s.fltOf c).members.filter (fun n => n != s.node)).foldl (fun (s : State) n =>
    if s.openConns.length < 6144 ∧ s.connOf c n = none then s.openTo c n else s) s

/-- Every marker peer's formation message has agreed. -/
def State.allFormed (s : State) : Bool :=
  s.peers.all (fun e => s.isFenced e.2.node.toNat || s.svc.formed.contains e.2.node.toNat)

/-- Orders 3 and 4 once every peer has agreed and ports are up (R439); a spare has then joined (R562). -/
def State.joinFormed (s : State) : State :=
  match s.joining with
  | some (c, o, spare) =>
    if 2 ≤ o ∧ o < 4 ∧ s.allFormed = true ∧ s.spray ≠ [] then
      let s := (s.openMembers c).setOrder 4
      if spare then s.mboxEnd .done 0 else s
    else s
  | none => s

/-- Orders 2 to 4 once the beat is LOCKED. -/
def State.advanceJoin (s : State) : State :=
  match s.joining with
  | some (c, o, spare) =>
    if o < 2 then ((s.formPartners c spare true).setOrder 2).joinFormed else s.joinFormed
  | none => s

/-- BEAT_LOCK (R56, R57): |offset| within 10 ns for 16 consecutive beats. DESIGN CHOICE (log 75): BT_LOCKED is raised
here, from ACQUIRE to LOCKED, and neither at a return from HOLDOVER nor on a device that becomes the reference; R71 does
not say. -/
def execBeatLock (s : State) : Host.Outcome State Fault Refusal :=
  .next (if s.bt.st = .acquire ∧ 16 ≤ s.bt.lockRun then
      let s := { s with bt := { s.bt with st := .locked } }
      (s.event 0x0101 ((s.bt.refNode.map (·.toNat)).getD 0)).advanceJoin
    else s)

/-- A join begins: the context shows its job when no other runs, and orders 1 and 2 are skipped when the beat unit
already follows a beat (R539). -/
def State.beginJoin (s : State) (c : Nat) (j : Job) : State :=
  let s := s.setCtx c { s.ctx c with job := some j }
  let s := if s.running.isNone then s.showCtx c else s
  let s := s.setFlt c { FaultMap.reset with members := s.jobMembers c }
  let s := ({ s with svc := { s.svc with formed := [] } }).svcSettle
  if s.beatHeld then ((s.formPartners c j.spare false).setOrder 2).joinFormed else s.beginAcquire

/-- A started job of the given kind. -/
def newJob (step : W32) (source : JobSource) (start : Nat) (spare : Bool) : Job :=
  { step := step, place := none, source := source, startBeat := start, endBeat := none, entered := false, late := false
    spare := spare, admitted := false }

/-- Whether a context may start a job (R537, R539). -/
def State.mayStart (s : State) (c : Nat) : Bool :=
  s.idleCtx c && (s.ctx c).image.isSome && (s.ctx c).job.isNone && s.flag Reg.FAB_NODE_VALID

/-- JOB_START (R534, R537, R539). -/
def State.cmdJobStart (s : State) : State :=
  let a := s.args
  let (c, bad) := ctxArg a
  let src := fld a 1 1
  let s := s.setMboxJob (.jobStart c 0)
  let slotBad := decide (7 < fld a 2 1) || (Tab.get none (s.ctx c).slots (fld a 2 1)).isNone
  if !s.svcUp || !s.mayStart c || s.svc.recBad then s.notAccepted
  else if bad || decide (2 < src) || (src == 2 && (slotBad || storeBad a)) then s.badArgument
  else
    let source : JobSource := if src = 0 then .fresh else if src = 1 then .flash else .store
    s.beginJoin c (newJob (BitVec.ofNat 32 (fld a 4 4)) source (fld a 8 8) false)

/-- JOB_START (R539). -/
def execJobStart (path : Path) (tag : Byte) (s : State) : Host.Outcome State Fault Refusal :=
  .next (s.mailbox path 0x21 tag State.cmdJobStart)

/-- SPARE_JOIN (R562): accepted in READY. -/
def State.cmdSpareJoin (s : State) : State :=
  let (c, bad) := ctxArg s.args
  if s.svc.st ≠ .ready ∨ s.mayStart c = false then s.notAccepted
  else if bad then s.badArgument
  else (s.setMboxJob (.spareJoin c 0)).beginJoin c (newJob 0 .fresh s.beat true)

/-- SPARE_JOIN (R562). -/
def execSpareJoin (path : Path) (tag : Byte) (s : State) : Host.Outcome State Fault Refusal :=
  .next (s.mailbox path 0x23 tag State.cmdSpareJoin)

/-- A join in progress fails, and the beat unit is DETACHED when no other context has a job. -/
def State.failJoin (s : State) (result : Nat) : State :=
  let s := match s.joining with
    | some (c, _, _) => s.closeCtx c
    | none => s
  let s := s.abortJoin result
  if s.anyJob then s else s.detach

/-! ### FORMATION_EXCHANGE (R539, R562) -/

/-- The first difference between a peer's message and this device's job, as JOIN_MISMATCH names it. -/
def State.formationDiff (s : State) (c : Nat) (j : Job) (f : Formation) : Option Nat :=
  let digest := BitVec.ofNat 384 (ofBytes (imgDigestField ((s.ctx c).image.getD [])))
  let source : Byte := match j.source with
    | .fresh => 0
    | .flash => 1
    | .store => 2
  (([(f.digest != digest, 0), (!j.spare && f.step != j.step, 1), (!j.spare && f.source != source, 2),
     (!j.spare && f.startBeat.toNat != j.startBeat, 3), (f.period != s.bt.sel, 4)] : List (Bool × Nat)).find?
    (fun x => x.1)).map (·.2)

/-- The RESULT of a join that JOIN_MISMATCH ends: the manual gives none, a free value other than 0. -/
def mismatchResult (draw : Nat) : Nat := 1 + (Config.freeWord draw).toNat % 65535

/-- FORMATION_EXCHANGE: a difference raises JOIN_MISMATCH and the device does not start. With no join in progress the
message comes from a spare, which the running job admits at its next step entry. -/
def execFormationExchange (peer : BitVec 15) (f : Formation) (s : State) : Host.Outcome State Fault Refusal :=
  let n := peer.toNat
  .next (match s.joining with
    | some (c, o, spare) =>
      match (s.ctx c).job with
      | none => s
      | some j =>
        if 4 ≤ o then s
        else match s.formationDiff c j f with
          | some k => ((s.event 0x0B05 (k + n * 2 ^ 4)).drawn).failJoin (mismatchResult s.draw)
          | none =>
            let s := { s with svc := { s.svc with formed := n :: s.svc.formed.filter (fun m => m != n) } }
            let s := if spare then s.setCtx c { s.ctx c with entries := f.epoch } else s
            s.joinFormed
    | none =>
      match s.running with
      | some c =>
        let digest := BitVec.ofNat 384 (ofBytes (imgDigestField ((s.ctx c).image.getD [])))
        if (s.ctx c).job.isSome && f.digest == digest && f.period == s.bt.sel && !s.flt.map.members.contains n
            && !s.isFenced n && !s.svc.spares.contains n then
          { s with svc := { s.svc with spares := s.svc.spares ++ [n] } }
        else s
      | none => s)

/-! ### STATE_LOAD_DONE (R354, R387, R539, R540) -/

/-- The first shard whose header's STAMP is not STEP: its layer and its stamp. -/
def shardSkew (step : Nat) (l : List (Nat × List Byte)) : Option (Nat × Nat) :=
  (l.find? (fun e => fld e.2 0 4 != step)).map (fun e => (fld e.2 6 2, fld e.2 0 4))

/-- The generations in flash that a FLASH start loads (R513, R539): of this context's key, with STAMP = STEP. -/
def State.flashGens (s : State) (c : Nat) (step : W32) : List FlashGen :=
  s.gens.filter (fun g => g.key == (s.ctx c).flashKey && g.stamp == step)

/-- The bytes of a generation, by range. -/
def FlashGen.ranges (g : FlashGen) : List (Nat × List Byte) :=
  g.areas.map (fun r => (r.1, Tab.range 0 g.cells r.1 r.2))

/-- All sets count as exposed until the first COMMIT, when the holders hold no copy (R540); a set with no holder is
exposed from the start. -/
def FaultMap.exposeAll (m : FaultMap) (beat : Nat) (fresh : Bool) : FaultMap :=
  { m with sets := m.sets.map (fun x => if fresh || x.holders.isEmpty then { x with exposed := some beat } else x) }

/-- Order 6 (R539, R387): UE_STEP = STEP, GS = INIT, and JOB_START completes. -/
def State.loadedState (s : State) (c : Nat) (j : Job) : State :=
  let s := (s.putCtx c Reg.UE_STEP_STEP j.step.toNat).initGs c
  let fresh := match j.source with
    | .flash => false
    | _ => true
  (s.setFlt c ((s.fltOf c).exposeAll j.startBeat fresh)).mboxEnd .done 0

/-- Load shards into a context, or refuse a source whose stamp differs (R354). -/
def State.loadShards (s : State) (c : Nat) (j : Job) (l : List (Nat × List Byte)) (write : Bool) : State :=
  match shardSkew j.step.toNat l with
  | some (layer, stamp) =>
    ((s.put Reg.UE_STATUS_STEPSKEW 1).event 0x0601 (2 ^ 4 + layer * 2 ^ 5 + stamp % 2 ^ 17 * 2 ^ 15)).failJoin 4
  | none =>
    let s := if write then l.foldl (fun (s : State) e => s.pokes c e.1 e.2) s else s
    s.loadedState c j

/-- STATE_LOAD_DONE (R354, R539 order 5): `stored` are the shards of the load: what the shared store gave, or the shards
already in memory whose headers a FRESH start checks; each is that of generation STEP mod 2. A checkpoint generation that
fails to read is invalid (R474). -/
def execStateLoadDone (found ioError : Bool) (stored : List (GenArea × List Byte)) (s : State) :
    Host.Outcome State Fault Refusal :=
  .next (match s.svc.mbox.job with
    | some (.jobStart c o) =>
      match (s.ctx c).job with
      | none => s
      | some j =>
        if o ≠ 4 then s
        else
        let n := j.step.toNat
        if ioError then
          let own := s.flashGens c j.step
          (match j.source with
          | .flash => { s with gens := s.gens.filter (fun g => !own.contains g) }
          | _ => s).failJoin 5
        else match j.source with
          | .fresh =>
            s.loadShards c j (stored.map (fun e => (e.1.at_ n, (List.range 8).map (fun k => s.peek c (e.1.at_ n + k))))) false
          | .flash =>
            let g := s.flashGens c j.step
            if g.any (·.own) then s.loadShards c j (g.flatMap FlashGen.ranges) true else s.failJoin 4
          | .store => if found then s.loadShards c j (stored.map (fun e => (e.1.at_ n, e.2))) true else s.failJoin 4
    | _ => s)

/-! ### JOB_LEAVE (R541) -/

/-- JOB_LEAVE: the job ends at the first step end at or after END_BEAT. -/
def State.cmdJobLeave (s : State) : State :=
  let a := s.args
  let (c, bad) := ctxArg a
  let ok := match s.svc.st with
    | .joining => true
    | .running => true
    | _ => false
  match (s.ctx c).job with
  | some j =>
    if !ok then s.notAccepted
    else if bad then s.badArgument
    else (s.setCtx c { s.ctx c with job := some { j with endBeat := some (fld a 8 8) } }).mboxEnd .done 0
  | none => s.notAccepted

/-- JOB_LEAVE (R541). -/
def execJobLeave (path : Path) (tag : Byte) (s : State) : Host.Outcome State Fault Refusal :=
  .next (s.mailbox path 0x22 tag State.cmdJobLeave)

/-! ### WORKING_COPY_DERIVATION_DONE (R339, R477) -/

/-- The recovery service ends: the working copies are derived from their masters, and the gathers that waited for them
are filled. -/
def execWorkingCopyDerivationDone (copies : List WorkCopy) (s : State) : Host.Outcome State Fault Refusal :=
  .next (match s.running with
    | none => s
    | some c =>
      if !s.flt.map.derive then s
      else
        let s := copies.foldl (fun (s : State) w => s.deriveWork c w.desc) s
        let m := s.flt.map
        let s : State := { s with flt := { s.flt with map := { m with
          derive := false, derived := m.derived.filter (fun w => !copies.contains w) ++ copies } } }
        s.colls.foldl (fun (s : State) o =>
          match s.plan o.plan with
          | some r =>
            if r.kind = 3 ∧ o.waiting = false ∧ o.complete = false then
              let a := s.fillEntry c r o false true
              a.1.setColl a.2
            else s
          | none => s) s)

end Sys2Proof.Machine
end

