-- ==== Sys2Proof/Machine/Power.lean ====
section
/-!
DEFINITION. Machine/Power.lean: power and self-test (R526 to R534), supply dips (R498, R499, R555), the button, the latch
and planned removal (R492, R557 to R560), the junction limit (R563), and a self-fence at its boundary (R480).
-/

namespace Sys2Proof.Machine

/-! ### What loses its contents with power -/

/-- Registers of the main domain: all but the SVC and PWR blocks, and but what a hub's flash keeps (R427). -/
def isMainReg (off : Nat) : Bool :=
  decide (0x010000 ≤ off) && !(decide (0x020000 ≤ off) && decide (off < 0x030000))
    && !(decide (0x088200 ≤ off) && decide (off < 0x088300)) && !(decide (0x08C200 ≤ off) && decide (off < 0x08C300))

/-- The mailbox command in progress ends when the main domain goes down: it is no longer accepted (R537). -/
def State.dropCommand (s : State) : State :=
  match s.svc.mbox.st, s.svc.mbox.job with
  | .busy, some _ => s.mboxEnd .refused 1
  | _, _ => s

/-- The main domain loses power or is reset (R498, R555, R559): memory, stores, contexts, the job and every register of
the main domain return to reset. Flash, NOR flash and the standby domain with its ring stay (R543). -/
def State.mainDown (s : State) : State :=
  let s := s.dropCommand
  let st : SvcSt := match s.svc.st with
    | .unusable => .unusable
    | _ => .standby
  let svc := { s.svc with st := st, formed := [], spares := [], bist := Svc.reset.bist }
  let pins := { s.pins with rails := false, pcieTrained := false, forced := false }
  { State.reset with
    regs := s.regs.filter (fun e => !isMainReg e.1), flash := s.flash, gens := s.gens, svc := svc, pins := pins
    capInForce := s.capInForce, nextOp := s.nextOp, sent := s.sent, freeCounter := s.freeCounter, pending := s.pending }

/-- Put the main input. -/
def State.setInput (s : State) (v : Nat) : State := s.put Reg.PWR_INPUT_MAIN v

/-- Add a supply event to the log (R542): 0 warn, 1 recover, 2 timeout, 3 reset. -/
def State.supplyLog (s : State) (kind lowest us : Nat) : State :=
  let e : SupplyEvt :=
    { beat := BitVec.ofNat 48 s.beat, kind := BitVec.ofNat 8 kind, lowest := BitVec.ofNat 16 lowest
      length := BitVec.ofNat 32 us }
  { s with svc := { s.svc with supply := (e :: s.svc.supply).take 15 } }

/-- The lowest input reported since the guard's warning. -/
def State.lowestInput (s : State) (v : Nat) : Nat :=
  match s.svc.supply with
  | e :: _ => if e.kind = 0 then min v e.lowest.toNat else v
  | [] => v

/-! ### Stages 1 to 4 (R526, R527, R534, R41, R23) -/

/-- STANDBY_POWER_UP (R526 stage 1): the standby domain leaves reset and reads its straps. What NOR flash and flash hold
has lasted; the standby input is measured, a free value. -/
def execStandbyPowerUp (feed : BitVec 4) (hubpos : List (BitVec 2)) (latchClosed seated : Bool) (s : State) :
    Host.Outcome State Fault Refusal :=
  .next (if s.pins.stby then s
    else
      let bad := (List.range 4).filter (fun h => hubpos[h]? != some (BitVec.ofNat 2 h))
      let svc := { Svc.reset with recA := s.svc.recA, recB := s.svc.recB, blobs := s.svc.blobs, feed := feed, hubBad := bad }
      let pins := { Pins.reset with stby := true, latchClosed := latchClosed, seated := seated }
      let ftl := s.regs.filter (fun e => !isMainReg e.1 && decide (0x080000 ≤ e.1))
      let s' := { State.reset with
        regs := ftl, flash := s.flash, gens := s.gens, svc := svc, pins := pins, nextOp := s.nextOp, sent := s.sent
        freeCounter := s.freeCounter, pending := s.pending }
      s'.drawn.put Reg.PWR_INPUT_STBY (Config.freeWord s'.draw).toNat)

/-- STANDBY_POWER_LOSS (R543): the standby domain goes down, and with it the main domain that it sequences. -/
def execStandbyPowerLoss (s : State) : Host.Outcome State Fault Refusal :=
  .next (
    let svc := { Svc.reset with recA := s.svc.recA, recB := s.svc.recB, blobs := s.svc.blobs }
    let pins := { Pins.reset with latchClosed := s.pins.latchClosed, seated := s.pins.seated }
    let ftl := s.regs.filter (fun e => !isMainReg e.1 && decide (0x080000 ≤ e.1))
    { State.reset with
      regs := ftl, flash := s.flash, gens := s.gens, svc := svc, pins := pins, nextOp := s.nextOp, sent := s.sent
      freeCounter := s.freeCounter, pending := s.pending })

/-- MANAGEMENT_STAGE_DONE (R526 stage 2, R41, R532, R534): with good microcode the window and the mailbox are live; a
rejected one leaves the device in standby (the manual gives MICROCODE_REJECT no DETAIL: a free value). -/
def execManagementStageDone (microcodeOk : Bool) (s : State) : Host.Outcome State Fault Refusal :=
  .next (if !s.pins.stby || s.pins.stage2 then s
    else if !microcodeOk then s.drawn.event 0x0B01 (Config.freeWord s.draw).toNat
    else
      let bad := s.svc.best.isNone
      let s := { s with pins := { s.pins with stage2 := true }, svc := { s.svc with recBad := bad } }
      if bad then s.event 0x0B04 0 else s)

/-- SEAT_INSERT (R555): SEAT_N goes low. -/
def execSeatInsert (s : State) : Host.Outcome State Fault Refusal :=
  .next { s with pins := { s.pins with seated := true } }

/-- MAIN_PATH_ON (R555): seated, and stage 2 has ended. -/
def execMainPathOn (s : State) : Host.Outcome State Fault Refusal :=
  .next (if s.pins.seated && s.pins.stage2 then { s with pins := { s.pins with pathOn := true } } else s)

/-- MAIN_GOOD (R526, R527): an input of 44.0 to 58.0 V starts the rails stage from STANDBY. -/
def execMainGood (input : BitVec 16) (s : State) : Host.Outcome State Fault Refusal :=
  let v := input.toNat
  .next (
    let s := if s.pins.pathOn then s.setInput v else s
    let standby := s.svc.st == .standby && s.pins.stage2 && s.pins.pathOn
    if standby && decide (4400 ≤ v ∧ v ≤ 5800) then { s with svc := { s.svc with st := .rails } } else s)

/-- RAILS_UP (R526 stage 4): self-test begins. Flash that has never been counted has its initial spare blocks. -/
def execRailsUp (ok : Bool) (s : State) : Host.Outcome State Fault Refusal :=
  .next (if s.svc.st = .rails ∧ ok = true then
      let svc := { s.svc with st := .bist, bist := Svc.reset.bist }
      let s := { s with svc := svc, pins := { s.pins with rails := true, okSteady := false } }
      ([0, 1] : List Nat).foldl (fun (t : State) h =>
        if t.get Reg.MT_FTL_SPARE_BLOCKS h = 0 ∧ t.flag Reg.MT_FTL_WEAR_READONLY h = false then
          t.put Reg.MT_FTL_SPARE_BLOCKS (Config.spareBlocks h) h
        else t) s
    else s)

/-! ### Stage 5: self-test (R528 to R530) -/

/-- The link of hub 0 trains once its slice has passed and PERST_N is high (R527). -/
def State.trainPcie (s : State) : State :=
  if s.pins.rails && !s.pins.perst && s.svc.bist.passed.contains 108 then
    { s with pins := { s.pins with pcieTrained := true } }
  else s

/-- A run of a slice fails (R529): the first failure has it run again, the second is final and raises BIST_FAIL. -/
def State.sliceFails (s : State) (k : Nat) (slow : Bool) : State :=
  let b := s.svc.bist
  if b.failed.contains k then s
  else if b.once.contains k then
    let b := { b with failed := b.failed ++ [k], tooLong := if slow then b.tooLong ++ [k] else b.tooLong }
    ({ s with svc := { s.svc with bist := b } }).event 0x0B02 (k + slow.toNat * 2 ^ 8)
  else { s with svc := { s.svc with bist := { b with once := k :: b.once } } }

/-- Whether a slice runs in this self-test: core slices of a group that the record fences as a whole do not (R528). -/
def State.sliceRuns (s : State) (k : Nat) : Bool :=
  let r := s.svc.best.getD FenceRec.blank
  s.svc.st == .bist && !(decide (k < 96) && (r.groups.getLsbD (k / 8) || decide (3 ≤ (fencedIn r.fenced (k / 8)).length)))

/-- BIST_SLICE_DONE (R529): a hub whose straps disagree with its fuses fails (R23). -/
def execBistSliceDone (slice : Fin 113) (pass : Bool) (s : State) : Host.Outcome State Fault Refusal :=
  let k := slice.val
  .next (if !s.sliceRuns k || s.svc.bist.passed.contains k then s
    else if pass && !(decide (108 ≤ k) && s.svc.hubBad.contains (k - 108)) then
      let b := s.svc.bist
      ({ s with svc := { s.svc with bist := { b with passed := b.passed ++ [k] } } }).trainPcie
    else s.sliceFails k false)

/-- BIST_SLICE_TIMEOUT (R529): 25 ms after its start. -/
def execBistSliceTimeout (slice : Fin 113) (s : State) : Host.Outcome State Fault Refusal :=
  let k := slice.val
  .next (if !s.sliceRuns k || s.svc.bist.passed.contains k then s else s.sliceFails k true)

/-- Every slice that runs has passed or failed. -/
def State.bistOver (s : State) : Bool :=
  (List.range 113).all (fun k => !s.sliceRuns k || s.svc.bist.passed.contains k || s.svc.bist.failed.contains k)

/-! ### Stage 6: the fence record (R530, R532) -/

/-- The record of stage 6: the union of the record in force and the failures of self-test (R532). -/
def State.unionRecord (s : State) : FenceRec :=
  let r := s.svc.best.getD FenceRec.blank
  let cores := s.svc.bist.failed.filter (fun k => decide (k < 96))
  let groups := (s.svc.bist.failed.filter (fun k => decide (96 ≤ k ∧ k < 108))).map (fun k => k - 96)
  let gm : BitVec 12 := groups.foldl (fun m g => m ||| BitVec.ofNat 12 (2 ^ g)) r.groups
  let fenced := r.fenced ||| coreMask cores ||| groupCores gm
  ({ r with fenced := fenced, groups := gm } : FenceRec).mark (coresOf (fenced &&& ~~~ r.fenced)) 1

/-- BIST_COMPLETE (R530, R532, R534): the union is fenced and the listed frames are retired; the record is written again
when it differs. A failed hub or die fabric makes the device UNUSABLE. -/
def execBistComplete (ms : BitVec 16) (s : State) : Host.Outcome State Fault Refusal :=
  .next (if s.svc.st = .bist ∧ s.bistOver = true then
      let old := s.svc.best.getD FenceRec.blank
      let r := s.unionRecord
      let groups : Tab GroupSt := (List.range 12).foldl (fun t g =>
        if r.groups.getLsbD g then Tab.set GroupSt.reset t g { Tab.get GroupSt.reset t g with whole := true } else t)
        s.groups
      let s : State := { s with groups := groups, flt := { s.flt with fenced := r.fenced } }
      let s := s.wholeGroups
      let s := r.retired.foldl (fun (s : State) f => s.setFrame f .retired) s
      let r := { r with groups := s.wholeMask }
      let s := if r = old ∨ s.svc.recBad = true then s else s.writeRecord r
      let s := (s.put Reg.SVC_BIST_MS ms.toNat).event 0x0B03 ms.toNat
      if s.svc.bist.failed.any (fun k => decide (108 ≤ k)) then
        let failed := s.svc.bist
        let s := ({ s with svc := { s.svc with st := .unusable } } : State).mainDown
        { s with svc := { s.svc with bist := failed } }
      else { s with svc := { s.svc with st := .ready } }
    else s)

/-- PERST_DEASSERT (R527). -/
def execPerstDeassert (s : State) : Host.Outcome State Fault Refusal :=
  .next ({ s with pins := { s.pins with perst := false } } : State).trainPcie

/-! ### Supply dips (R498, R499, R555) -/

/-- SUPPLY_WARNING (R498, R499): the guard begins and contributes SUPPLY while the cut has not passed. -/
def execSupplyWarning (input : BitVec 16) (s : State) : Host.Outcome State Fault Refusal :=
  let v := input.toNat
  .next (if s.pins.rails && decide (v < 4300) then
      let s := ((s.setInput v).event 0x0B50 v).supplyLog 0 v 0
      let s := if s.flt.guard then s else s.bump Reg.FLT_GUARDS_COUNT
      let s := { s with flt := { s.flt with guard := true, guardEnd := false } }
      if s.running.isSome && s.step.active then s.contribute 2 else s
    else s)

/-- SUPPLY_RECOVERY (R498): the guard ends at the next boundary; at once while the beat stands still. -/
def execSupplyRecovery (input : BitVec 16) (us : Nat) (s : State) : Host.Outcome State Fault Refusal :=
  let v := input.toNat
  .next (if s.flt.guard && decide (4400 < v) then
      let s := ((s.setInput v).event 0x0B51 (min us (2 ^ 16 - 1))).supplyLog 1 (s.lowestInput v) us
      let s := { s with flt := { s.flt with guardEnd := true } }
      if s.bt.st = .detached then s.endGuard else s
    else s)

/-- SUPPLY_RESET (R498, R527): below 40.0 V the main domain resets. -/
def execSupplyReset (input : BitVec 16) (s : State) : Host.Outcome State Fault Refusal :=
  let v := input.toNat
  let stage := s.svc.st == .rails
  .next (if (s.pins.rails || stage) && decide (v < 4000) then
      ((s.setInput v).supplyLog 3 (s.lowestInput v) 0).mainDown
    else s)

/-- GUARD_TIMEOUT (R498, R480 cause 11): a guard longer than 10 ms. -/
def execGuardTimeout (input : BitVec 16) (us : Nat) (s : State) : Host.Outcome State Fault Refusal :=
  let v := input.toNat
  .next (if s.flt.guard && decide (10000 < us) then
      (((s.setInput v).event 0x0B52 v).supplyLog 2 (s.lowestInput v) us).selfFence 11
    else s)

/-- The main path turns off: the device is lost, as under reset (R555). -/
def State.pathOff (s : State) : State :=
  let s := if s.pins.rails || s.svc.st == .rails then s.mainDown else s
  { s with pins := { s.pins with pathOn := false } }

/-- SUPPLY_OVER_TIMEOUT (R555): above 58.0 V for 1 ms. -/
def execSupplyOverTimeout (input : BitVec 16) (s : State) : Host.Outcome State Fault Refusal :=
  let v := input.toNat
  .next (if s.pins.pathOn && decide (5800 < v) then
      (((s.setInput v).put Reg.PWR_STATUS_OVER 1).event 0x0B53 v).pathOff
    else s)

/-- MAIN_OVERVOLTAGE (R555): above 60.0 V. -/
def execMainOvervoltage (input : BitVec 16) (s : State) : Host.Outcome State Fault Refusal :=
  .next (if s.pins.pathOn && decide (6000 < input.toNat) then (s.setInput input.toNat).pathOff else s)

/-- SEAT_RELEASE (R555). -/
def execSeatRelease (s : State) : Host.Outcome State Fault Refusal :=
  .next (({ s with pins := { s.pins with seated := false } } : State).pathOff)

/-- JUNCTION_LIMIT (R563): at 105 °C the device fences itself with cause 16. -/
def execJunctionLimit (tj : Byte) (s : State) : Host.Outcome State Fault Refusal :=
  let t := tj.toNat
  .next (
    let s := (s.put Reg.PWR_THERM_TJ t).put Reg.PWR_THERM_PEAK (max t (s.get Reg.PWR_THERM_PEAK))
    if 105 ≤ t ∧ s.pins.rails then ((s.put Reg.PWR_STATUS_HOT 1).event 0x0B72 t).selfFence 16 else s)

/-! ### Planned removal (R492, R557, R559, R560) -/

/-- The device is half of a D2 (R560). -/
def State.isD2 (s : State) : Bool := (Config.twinOf s.node).isSome

/-- Second holders for every set that the fence of this device would leave without one (R492): the sets it holds, and
its own, whose holders become their owners. A D2 excludes both its devices (R560). -/
def State.secondHolders (s : State) : FaultMap :=
  let n := s.node
  let leave := n :: (Config.twinOf n).toList
  s.flt.map.indices.foldl (fun (m : FaultMap) k =>
    match m.sets[k]? with
    | none => m
    | some x =>
      let owner := if x.owner = n then x.holders.head? else if x.holders = [n] then some x.owner else none
      match owner with
      | some o =>
        if x.lost || x.newHolder.isSome then m
        else m.setSet k { x with newHolder := s.chooseHolder m o (leave ++ x.holders), nextLayer := 0 }
      | none => m) s.flt.map

/-- A removal is requested (R492, R557, R559, R560): `detail` 0 by the button, 1 by the register. -/
def State.requestRemoval (s : State) (detail : Nat) : State :=
  if s.flt.removal ≠ 0 ∨ s.pins.rails = false then s
  else
    match s.isD2 && s.anyJob, s.flt.map.failed[0]? with
    | true, some f => s.event 0x0B73 f.node
    | _, _ =>
      let s := s.event 0x0911 detail
      let map := if s.anyJob then s.secondHolders else s.flt.map
      { s with flt := { s.flt with removal := 1, map := map } }

/-- A set of the leaving devices without its second holder (R485): one not yet refilled is not waited for, one already
refilled is given up, so that the set has one holder again. -/
def PartnerSet.oneHolder (x : PartnerSet) : PartnerSet :=
  { x with newHolder := none, nextLayer := 0, holders := x.holders.take 1 }

/-- A pending request is cancelled before PLANNED is sent (R492): the second holders are given up. -/
def State.cancelRemoval (s : State) : State :=
  if s.flt.removal ≠ 1 then s
  else
    let n := s.node
    let sets := s.flt.map.sets.map (fun x =>
      if (x.owner == n || x.holders.head? == some n || decide (1 < x.holders.length)) && x.exposed.isNone then
        x.oneHolder else x)
    ({ s with flt := { s.flt with removal := 0, map := { s.flt.map with sets := sets } } }).event 0x0911 2

/-- ATTN_RELEASE (R557): pressed for 0.5 to 3 s. -/
def execAttnRelease (ms : Nat) (s : State) : Host.Outcome State Fault Refusal :=
  let s := { s with pins := { s.pins with button := false } }
  .next (if 500 ≤ ms ∧ ms ≤ 3000 then s.requestRemoval 0 else s)

/-- ATTN_HOLD (R557): the 5 s mark. -/
def execAttnHold (s : State) : Host.Outcome State Fault Refusal :=
  .next ({ s with pins := { s.pins with button := true } } : State).cancelRemoval

/-- Something writes flash: a checkpoint or a frame on its way there (R425, R493). -/
def State.flashWrites (s : State) : Bool :=
  !s.ckptFlash.isEmpty || s.allMaps.any (fun e => e.2.2.moving.any (fun t => t.1 == .flash))

/-- MAIN_RAILS_DOWN (R559): after flash and NOR writes have ended, for a planned fence or a request that needs no
drain. -/
def execMainRailsDown (s : State) : Host.Outcome State Fault Refusal :=
  .next (if s.pins.rails && (s.flt.removal == 3 || (s.flt.removal == 1 && !s.anyJob)) && !s.flashWrites
      && s.svc.writeTo.isEmpty then
      let s := (s.event 0x0B71 0).mainDown
      { s with pins := { s.pins with okSteady := true }, flt := { s.flt with removal := 3 } }
    else s)

/-! ### The latch (R558) -/

/-- LATCH_OPENING: a forced removal; with no job started the rails go down without a fence. -/
def execLatchOpening (s : State) : Host.Outcome State Fault Refusal :=
  let s := { s with pins := { s.pins with latchClosed := false } }
  .next (if !s.pins.rails || s.pins.okSteady then s
    else
      let s := (s.put Reg.PWR_STATUS_LATCH_OPEN 1).event 0x0B70 s.anyJob.toNat
      if s.anyJob then ({ s with pins := { s.pins with forced := true } } : State).selfFence 15
      else (s.event 0x0B71 1).mainDown)

/-- LATCH_POWER_DOWN: 50 µs after the SELF notice has left. -/
def execLatchPowerDown (s : State) : Host.Outcome State Fault Refusal :=
  .next (if s.pins.forced && s.flt.selfCause.isNone then (s.event 0x0B71 1).mainDown else s)

/-! ### SELF_FENCING (R480) -/

/-- A self-fence takes place at the boundary that opens the next beat: its SELF notice names that beat, under cause 14
START_BEAT (R540). Under cause 11 the main domain is then powered down (R498). -/
def execSelfFencing (s : State) : Host.Outcome State Fault Refusal :=
  .next (match s.flt.selfCause with
    | none => s
    | some cause =>
      let start := (s.svc.mbox.job.bind (fun j => match j with
        | .jobStart c _ => (s.ctx c).job
        | _ => none)).map (fun j => j.startBeat)
      let s := if s.bt.st = .detached then s else s.openBeat
      let named := if cause = 14 then start.getD s.beat else s.beat
      let s := (s.doSelfFence cause named).settle
      if cause = 11 then s.mainDown else s)

end Sys2Proof.Machine
end

