-- ==== Sys2Proof/Machine/Precon.lean ====
section
/-!
DEFINITION. Machine/Precon.lean: preconditioner roots (R344 to R350): PRECON and the end of an attempt.
-/

namespace Sys2Proof.Machine

/-- A PRECON descriptor (R344). -/
structure PreconDesc where
  state : Nat × Nat
  scratch : Nat
  which : Nat
  cores : Nat
  adopt : Nat
  tsbase : Nat
  layer : Nat
  damp : Nat
deriving DecidableEq, Repr

/-- Read a PRECON descriptor. -/
def preconDesc (b : List Byte) : PreconDesc :=
  { state := (fld b 0 8, fld b 8 8), scratch := fld b 16 8, which := fld b 24 1, cores := fld b 25 1
    adopt := fld b 26 1, tsbase := bits (fld b 28 2) 0 13, layer := bits (fld b 30 2) 0 10, damp := fld b 32 4 }

/-- Every check of a PRECON descriptor with the offset of its field, ascending (R326, R344); `n` is the
factor's dimension, `shard` the bytes of the shard. -/
def State.preconChecks (s : State) (c : Nat) (b : List Byte) (n shard : Nat) : List (Nat × Bool) :=
  let d := preconDesc b
  [(0, s.badArea c d.state.1 shard), (8, s.badArea c d.state.2 shard),
   (16, s.badArea c d.scratch (512 + 24 * n * n)), (24, decide (1 < d.which)), (26, d.adopt == 0),
   (27, fld b 27 1 != 0), (28, fld b 28 2 / 2 ^ 13 != 0 || decide (tileUnits < d.tsbase + 704)),
   (30, fld b 30 2 / 2 ^ 10 != 0), (32, constBad d.damp false true false), (36, fld b 36 28 != 0)]

/-- The scratch header (R345). -/
def scratchHead (issue adopt status esc iters kind damp : Nat) : List Byte :=
  toBytes 4 issue ++ toBytes 4 adopt ++ toBytes 1 status ++ toBytes 1 esc ++ toBytes 1 iters ++ toBytes 1 kind
    ++ toBytes 4 damp

/-- A PRECON takes its factor (R346): the scratch header is written, the factor copied into the work area and
the root planes kept. -/
def State.beginRoot (s : State) (a : Site) (c g done kind : Nat) (d : PreconDesc) (h : ShardHead) : State :=
  let va := gen d.state s.ueStep
  let pl := shardPlanes 3 h.n h.kr h.kc
  let n := if d.which = 0 then h.kr else h.kc
  let plane (i : Nat) : List Byte := ((pl[i]?).map (fun e => s.vread c (va + e.1) e.2)).getD []
  let adopt := (s.ueStep + d.adopt) % 2 ^ 32
  let r : RootJob :=
    { id := s.nextOp, ctx := c, site := a, idx := (s.strand a).pc.toNat, dones := [done], inverse := kind == 1
      state0 := d.state.1, state1 := d.state.2, scratch := d.scratch, right := d.which == 1, cores := d.cores
      tsbase := d.tsbase, roots := plane (6 + d.which), layer := d.layer, n := n, issueStep := s.ueStep
      adoptStep := adopt, damp := BitVec.ofNat 32 d.damp, attempt := 0, st := .running }
  let f := plane (4 + d.which)
  let s := s.store c d.scratch (scratchHead s.ueStep adopt 1 0 0 kind d.damp)
  let s := s.store c (d.scratch + 512 + 4 * n * n) f
  let x := s.group g
  let keep := x.roots.filter (fun q => q.st == .running || q.ctx != c || q.issueStep == s.ueStep)
  let s := s.setGroup g { x with roots := keep ++ [r] }
  { s with nextOp := s.nextOp + 1 }

/-- The factor that a PRECON copies: its values refuse the job when one is NaN (R346, R353). -/
def State.factorBad (s : State) (c : Nat) (d : PreconDesc) (h : ShardHead) : Bool :=
  match (shardPlanes 3 h.n h.kr h.kc)[4 + d.which]? with
  | some e => (words32 (s.vread c (gen d.state s.ueStep + e.1) e.2)).any (fun v => (ofF32 v).isNan)
  | none => true

/-- Replace a root job by identity. -/
def State.setRoot (s : State) (g : Nat) (r : RootJob) : State :=
  let x := s.group g
  s.setGroup g { x with roots := x.roots.map (fun q => if q.id = r.id then r else q) }

/-- The job, of whatever group, that a PRECON of this context with the same SCRATCH and UE_STEP is merged with (R349). -/
def State.sameRoot (s : State) (c scratch : Nat) : Option (Nat × RootJob) :=
  (List.range 12).findSome? (fun g =>
    ((s.group g).roots.find? (fun r => r.ctx == c && r.scratch == scratch && r.issueStep == s.ueStep)).map (fun r => (g, r)))

/-- PRECON (R141, R344, R346, R349): checked and begun when it issues; a second one for the same SCRATCH and
UE_STEP is merged. -/
def execPrecon (a : Site) (p : Pred) (mop : Mop) (done : BitVec 13) (kind : BitVec 3) (s : State) :
    Host.Outcome State Fault Refusal :=
  let i := Instr.precon a p mop done kind
  let g := groupOf a.core.val
  let c := s.running.getD 0
  loaded i (s.onTile a p i (fun t => [(Mop.bad t mop, 0x06)]) (fun s =>
    let b := s.vread c (Mop.addr (s.strand a) mop) 64
    let d := preconDesc b
    let h := s.shardHead c (gen d.state s.ueStep)
    let n := if d.which = 0 then h.kr else h.kc
    match firstBad (s.preconChecks c b n (shardBytes 3 h.n h.kr h.kc)) with
    | some off => (s.advance a).jobError g 1 d.layer off done.toNat
    | none =>
      match s.sameRoot c d.scratch with
      | some (k, r) =>
        if r.st = .running then (s.setRoot k { r with dones := r.dones ++ [done.toNat] }).advance a
        else (s.soAdd done.toNat 1).advance a
      | none =>
        if h.stamp != s.ueStep || h.rule != 3 || h.layer != d.layer || decide (n < 1 ∨ 2048 < n)
            || s.factorBad c d h then
          ((s.stepSkew g 0 d.layer h.stamp).soAdd done.toNat 1).advance a
        else (s.beginRoot a c g done.toNat kind.toNat d h).advance a))

/-! ### The iteration (R346) -/

/-- A square matrix by rows. -/
abbrev FMat := List (List Fv)

/-- Element (i, j) by a function. -/
def fmat (n : Nat) (f : Nat → Nat → Fv) : FMat :=
  (List.range n).map (fun i => (List.range n).map (fun j => f i j))

/-- Element-wise over two matrices. -/
def FMat.zip2 (f : Fv → Fv → Fv) (x y : FMat) : FMat :=
  (List.zip x y).map (fun e => (e.1.zip e.2).map (fun q => f q.1 q.2))

/-- The BF16 truncation of a value (R201). -/
def toBf16 (x : Fv) : Fv := (fmtOf 0).decode ((fmtOf 0).enc .rtz x)

/-- The three BF16 planes of an FP32 value (R201). -/
def split3 (x : Fv) : List Fv :=
  let w0 := toBf16 x
  let w1 := toBf16 (fsub x w0)
  [w0, w1, toBf16 (fsub (fsub x w0) w1)]

/-- The exact three-word product of two values: the planes i + j ≤ 2 (R167). -/
def mul3 (x y : List Fv) : Fv :=
  (([(0, 0), (0, 1), (0, 2), (1, 0), (1, 1), (2, 0)] : List (Nat × Nat)).map (fun e =>
    (x.getD e.1 fzero).mul (y.getD e.2 fzero))).foldl Fv.add fzero

/-- A matrix product: the exact sum of the three-word products, converted once to FP32 by RNE (R346). -/
def FMat.mul (x y : FMat) : FMat :=
  let cols := (List.range y.length).map (fun j => y.map (fun r => split3 (r.getD j fzero)))
  List.map (fun (r : List Fv) =>
    let rs := r.map split3
    cols.map (fun (c : List (List Fv)) => ((rs.zip c).foldl (fun acc e => acc.add (mul3 e.1 e.2)) fzero).r32)) x

/-- Every value is finite. -/
def FMat.fin (x : FMat) : Bool := List.all x (fun r => r.all Fv.isFin)

/-- max |m − i| ≤ 2^−20. -/
def FMat.near (x : FMat) : Bool :=
  ((List.range x.length).zip x).all (fun r => ((List.range r.2.length).zip r.2).all (fun e =>
    let d := fsub e.2 (if r.1 = e.1 then fone else fzero)
    !(Fv.num false 1 (-20)).lt (match d with
      | .num _ m ex => .num false m ex
      | y => y)))

/-- One iteration (R346): t, x, m and whether every value is finite. -/
def rootStep (p : Nat) (x m : FMat) : FMat × FMat × Bool :=
  let n := x.length
  let pf : Fv := .num false p 0
  let diag := fmat n (fun i j => if i = j then .num false (p + 1) 0 else fzero)
  let t := FMat.zip2 (fun a b => fdiv (fsub a b) pf) diag m
  let t2 := FMat.mul t t
  let tp := if p = 4 then FMat.mul t2 t2 else t
  let x' := FMat.mul x t
  let m' := FMat.mul tp m
  (x', m', t.fin && tp.fin && (p != 4 || t2.fin) && x'.fin && m'.fin)

/-- Up to `fuel` iterations: the result, none when the attempt fails (R347), and the iterations run. -/
def rootLoop (p : Nat) : Nat → Nat → FMat → FMat → Option FMat × Nat
  | 0, it, _, _ => (none, it)
  | fuel + 1, it, x, m =>
    let r := rootStep p x m
    if !r.2.2 then (none, it + 1)
    else if r.2.1.near then (some r.1, it + 1) else rootLoop p fuel (it + 1) r.1 r.2.1

/-- One attempt (R346, R347); a zero norm leaves the scaling open: `free` gives it. -/
def rootAttempt (p n : Nat) (f : List Byte) (damp : Fv) (free : Nat) : Option FMat × Nat :=
  let a := fmat n (fun i j => fadd (ofF32 (fld f (4 * (n * i + j)) 4)) (fmul damp (if i = j then fone else fzero)))
  let frob := usqrt (treeFold fadd 32 ((List.flatten a).map (fun x => fmul x x)))
  if !a.fin || !frob.isFin then (none, 0)
  else
    let e : Int := frob.ceilExp.getD free
    let k : Int := p * -((-e).fdiv p)
    let x := fmat n (fun i j => if i = j then .num false 1 (-(k / p)) else fzero)
    let m := a.map (fun r => r.map (fun v => (v.scale (-k)).r32))
    if x.fin && FMat.fin m then rootLoop p 24 0 x m else (none, 0)

/-- The bytes of a matrix in FP32. -/
def FMat.bytes (x : FMat) : List Byte := List.flatMap (fun r => List.flatMap (fun (v : Fv) => toBytes 4 v.bits32.toNat) r) x

/-! ### The end of an attempt (R347 to R349) -/

/-- The live cores that a job names (R349). -/
def State.rootCores (s : State) (g : Nat) (r : RootJob) : List Nat :=
  ((List.range 8).filter (fun k => r.cores / 2 ^ k % 2 == 1 && !s.flt.fenced.getLsbD (8 * g + k))).map (8 * g + ·)

/-- The tile-store units that a job uses on its live cores hold anything afterwards (R350). -/
def State.preconUnits (s : State) (g : Nat) (r : RootJob) : State :=
  (s.rootCores g r).foldl
    (fun t k => (t.twrite k (r.tsbase * unitBytes) (freeBytes t.draw (704 * unitBytes))).drawn) s

/-- Whether a core's array is free for a job: its queue is empty and it holds no valid tile (R350). -/
def State.arrayIdle (s : State) (core : Nat) : Bool := s.arrayQueue core == 0 && (s.core core).stat.isNone

/-- Whether an attempt can have ended (R350): its last chunk ran on a live core that it names; with a product it ran on
an array that was free. -/
def State.attemptRuns (s : State) (g : Nat) (r : RootJob) (iters : Nat) : Bool :=
  (s.rootCores g r).any (fun k => iters == 0 || s.arrayIdle k)

/-- Update jobs that wait for a root of this step and wait no longer start (R348). -/
def State.wakeJobs (s : State) (c : Nat) : State :=
  (List.range 12).foldl (fun t g =>
    ((t.group g).jobs.filter (fun j => j.phase == .waitRoot)).foldl (fun t j => t.startJob g c j) t) s

/-- A root computation ends (R345, R347, R349): result, header, completions, and the updates that wait. -/
def State.endRoot (s : State) (g c : Nat) (r : RootJob) (stale : Bool) (iters : Nat) (result : List Byte) : State :=
  let kind := if r.inverse then 1 else 0
  let s := s.store c (r.scratch + 512) result
  let s := s.store c r.scratch
    (scratchHead r.issueStep r.adoptStep (if stale then 3 else 2) r.attempt iters kind r.damp.toNat)
  let s := s.setRoot g { r with st := if stale then .stale else .done }
  let s := s.bump Reg.UE_PRECON_RUNS_COUNT g
  let s := if stale then
      ((s.bump Reg.UE_PRECON_STALE_CNT_COUNT g).put Reg.UE_STATUS_STALE 1).event 0x0603
        (g + (if r.right then 2 ^ 6 else 0) + r.layer * 2 ^ 7)
    else s
  (r.dones.foldl (fun t d => t.soAdd d 1) s).wakeJobs c

/-- An attempt of a root computation ends (R347): converged; or the damping is raised tenfold, at most three
times; or the job ends stale with the root planes of the copied generation. -/
def execPreconAttemptEnd (g : Fin 12) (job : Nat) (s : State) : Host.Outcome State Fault Refusal :=
  let n := g.val
  .next (match s.running, (s.group n).roots.find? (fun r => r.id == job && r.st == .running) with
    | some c, some r =>
      let f := s.vread c (r.scratch + 512 + 4 * r.n * r.n) (4 * r.n * r.n)
      let res := rootAttempt (if r.inverse then 1 else 4) r.n f (ofF32 r.damp.toNat) (Config.freeWord s.draw).toNat
      if !s.attemptRuns n r res.2 then s else
      let s := s.drawn.preconUnits n r
      match res.1 with
      | some x => s.endRoot n c r false res.2 x.bytes
      | none =>
        if r.attempt < 3 then
          let esc := r.attempt + 1
          let damp := (fmul (ofF32 r.damp.toNat) (.num false 10 0)).bits32
          let s := s.setRoot n { r with attempt := esc, damp := damp }
          let s := s.store c (r.scratch + 9) (toBytes 1 esc)
          ((s.bump Reg.UE_PRECON_ESC_COUNT n).put Reg.UE_STATUS_ESCALATE 1).event 0x0602
            (n + esc * 2 ^ 4 + (if r.right then 2 ^ 6 else 0) + r.layer * 2 ^ 7)
        else s.endRoot n c r true res.2 r.roots
    | _, _ => s)

end Sys2Proof.Machine
end

