-- ==== Sys2Proof/Machine/Sync.lean ====
section
/-!
DEFINITION. Machine/Sync.lean: sync objects and FENCE (R99 to R111, R129).
-/

namespace Sys2Proof.Machine

/-- Indices 8,128 and up are reserved for services and engines (R100). -/
def soReserved (index : BitVec 13) : Bool := decide (8128 ≤ index.toNat)

/-- The wait ends: COUNT has reached the threshold, or the object was force-released (R101). A
threshold of 0 selects the stored one. -/
def SyncObj.met (o : SyncObj) (thresh : Nat) : Bool :=
  let th := if thresh = 0 then o.thresh.toNat else thresh
  decide (th ≤ o.count.toNat) || o.status == .fencedRelease

/-- The predicate of a wait that ends: 0 after a forced release (R101). -/
def SyncObj.ok (o : SyncObj) : Bool := o.status != .fencedRelease

/-- The strand names another node with REMOTE (R112), judged on a node operand that is in range. -/
def State.foreign (s : State) (t : Strand) (remote : Bool) (n : NodeOp) : Bool :=
  remote && !NodeOp.bad t n && decide (NodeOp.node t n ≠ s.node)

/-- SOWAIT (R101, R103, R129). -/
def execSowait (a : Site) (p : Pred) (index : BitVec 13) (remote : Bool) (tnode : NodeOp)
    (dstp : BitVec 3) (thresh : BitVec 32) (s : State) : Host.Outcome State Fault Refusal :=
  loaded (.sowait a p index remote tnode dstp thresh) (s.issue a p (fun s =>
    let t := s.strand a
    s.guarded a [(s.foreign t remote tnode, 0x05), (remote && NodeOp.bad t tnode, 0x0A)] (fun s =>
      let o := s.obj index.toNat
      if o.met thresh.toNat then (s.setStrand a (t.setPred dstp.toNat o.ok)).advance a
      else
        let w : SoWait := { index := index.toNat, thresh := thresh.toNat, dstp := dstp.toNat }
        (s.setStrand a { t with st := .waitSo, soWait := some w }).switchFrom a)))

/-- SOINC (R101, R102, R104, R105, R129). -/
def execSoinc (a : Site) (p : Pred) (index : BitVec 13) (remote : Bool) (tnode : NodeOp)
    (amount : BitVec 16) (s : State) : Host.Outcome State Fault Refusal :=
  loaded (.soinc a p index remote tnode amount) (s.issue a p (fun s =>
    let t := s.strand a
    let node := NodeOp.node t tnode
    let away := s.foreign t remote tnode
    s.guarded a [(soReserved index, 0x03), (away && !s.inJob node, 0x04),
        (remote && NodeOp.bad t tnode, 0x0A)] (fun s =>
      let s := if away then
          s.send (s.running.getD 0) node
            [dataFrame 0x02 node (index.toNat + amount.toNat * 2 ^ 16) 0 true []] (.strand a)
        else s.soAdd index.toNat amount.toNat
      s.advance a)))

/-- SOSET (R101, R129). -/
def execSoset (a : Site) (p : Pred) (index : BitVec 13) (remote : Bool) (tnode : NodeOp)
    (hold hexpl : Bool) (hnode : NodeOp) (hcore : BitVec 7) (count : BitVec 24) (thresh : BitVec 32)
    (s : State) : Host.Outcome State Fault Refusal :=
  loaded (.soset a p index remote tnode hold hexpl hnode hcore count thresh) (s.issue a p (fun s =>
    let t := s.strand a
    s.guarded a [(soReserved index, 0x03), (s.foreign t remote tnode, 0x05),
        (remote && NodeOp.bad t tnode, 0x0A), (hold && hexpl && NodeOp.bad t hnode, 0x0A)] (fun s =>
      let o := s.obj index.toNat
      let o := { o with
        count := count.setWidth 32, thresh := thresh, ctx := BitVec.ofNat 4 (s.running.getD 0) }
      let o := if hold then
          { o with
            node := BitVec.ofNat 15 (if hexpl then NodeOp.node t hnode else s.node)
            core := if hexpl then hcore else BitVec.ofNat 7 a.core.val
            valid := true
            status := .held }
        else { o with valid := false, status := .free }
      (s.setObj index.toNat o).advance a)))

/-- The earlier moves of the strand are performed at the scope (R109). Moves within the device are
performed as they issue (log 10); GLOBAL waits for the acknowledgements of XFER and remote SOINC. -/
def State.fenceDone (s : State) (a : Site) (scope : Scope) : Bool :=
  match scope with
  | .core => true
  | .device => true
  | .global => !s.outstanding (.strand a)

/-- FENCE (R109, R129): the strand waits unless its moves are already performed. -/
def execFence (a : Site) (p : Pred) (scope : Scope) (s : State) : Host.Outcome State Fault Refusal :=
  loaded (.fence a p scope) (s.issue a p (fun s =>
    if s.fenceDone a scope then s.advance a
    else (s.setStrand a { s.strand a with st := .waitFence, fence := some scope }).switchFrom a))

/-- A parked SOWAIT resumes once its condition holds (R101, R106). -/
def execSowaitResume (a : Site) (s : State) : Host.Outcome State Fault Refusal :=
  let t := s.strand a
  .next (match t.st, t.soWait with
    | .waitSo, some w =>
      let o := s.obj w.index
      if o.met w.thresh then
        ((s.setStrand a ({ t with st := .run, soWait := none }.setPred w.dstp o.ok)).advance a).woken a.core
      else s
    | _, _ => s)

/-- A waiting FENCE completes once the moves are performed at its scope (R109). -/
def execFenceComplete (a : Site) (s : State) : Host.Outcome State Fault Refusal :=
  let t := s.strand a
  .next (match t.st, t.fence with
    | .waitFence, some scope =>
      if s.fenceDone a scope then ((s.setStrand a { t with st := .run, fence := none }).advance a).woken a.core else s
    | _, _ => s)

end Sys2Proof.Machine
end

