-- ==== Sys2Proof/Machine/Window.lean ====
section
/-!
DEFINITION. Machine/Window.lean: reads and writes of the register window (R12 to R17, R50, R90 to R92, R358, R456, R463,
R543, R551, R556) and the operator debug block (R520 to R523)
-/

namespace Sys2Proof.Machine

/-! ### Registers with a behaviour of their own -/

/-- BT_PERIOD (R50): only while DETACHED, and never 0b11. -/
def State.writePeriod (s : State) (v : W64) : State :=
  let sel := v.setWidth 2
  if s.bt.st = .detached ∧ sel ≠ 3 then { s with bt := { s.bt with sel := sel } }
  else s.event 0x0108 sel.toNat

/-- FAB_NODE (R463): only while DETACHED. -/
def State.writeNode (s : State) (v : W64) : State :=
  if s.bt.st = .detached then
    (s.put Reg.FAB_NODE_NODE v.toNat).put Reg.FAB_NODE_VALID (v.toNat / 2 ^ 15)
  else s.event 0x080A (v.toNat % 2 ^ 15)

/-- PWR_MODE.REQ (R90, R92): pending for the next step entry; refused when the running context's image has no record of
it, and then nothing is pending. REQ reads as written (R15). -/
def State.writeMode (s : State) (v : W64) : State :=
  let req := v.toNat / 2 ^ 4 % 4
  let ok := s.running.isNone || imgHasMode s.img req
  let s := { (s.put Reg.PWR_MODE_REQ req) with modePend := ok }
  if ok then s else s.event 0x0B21 req

/-- PWR_CAP (R556, R564): taken at the next step entry. -/
def State.writeCap (s : State) (v : W64) : State := s.put Reg.PWR_CAP_WATTS v.toNat

/-- FLT_REMOVE (R492): REQ and CANCEL. -/
def State.writeRemove (s : State) (v : W64) : State :=
  let s := if v.getLsbD 2 then s.requestRemoval 1 else s
  if v.getLsbD 3 then s.cancelRemoval else s

/-- The count word of a sync object (R99). -/
def State.writeSo (s : State) (i : Nat) (v : W64) : State :=
  s.setObj i { s.obj i with count := v.setWidth 32, thresh := BitVec.ofNat 32 (v.toNat / 2 ^ 32) }

/-! ### Debug (R520 to R523) -/

/-- Note a debug access of a context: its sticky bits, the count, DBG_ACCESS once per step (R521, R522). -/
def State.dbgNote (s : State) (c bit : Nat) : State :=
  let x := s.ctx c
  let n := x.dbgBits.toNat / 2 ^ 32
  let low := (x.dbgBits ||| BitVec.ofNat 64 (2 ^ bit)).setWidth 32
  let mark : W64 := BitVec.ofNat 64 (low.toNat + min (n + 1) (2 ^ 32 - 1) * 2 ^ 32)
  let s := s.setCtx c { x with dbgBits := mark }
  if s.flt.dbgSent.contains c then s
  else
    let first := ((List.range 5).find? (fun k => mark.getLsbD k)).getD 0
    let s := { s with flt := { s.flt with dbgSent := c :: s.flt.dbgSent } }
    (s.put Reg.SEC_STATUS_DEBUG 1).event 0x0A06 (c + first * 2 ^ 4)

/-- HALT or RESUME of `DBG_CTRL.CTX`, pending until the next boundary (R523). -/
def State.dbgHalt (s : State) (halt : Bool) : State :=
  let c := s.get Reg.DBG_CTRL_CTX
  if (s.ctx c).st = .free then s
  else ({ s with sec := { s.sec with haltPend := s.sec.haltPend ++ [(c, halt)] } }).dbgNote c 0

/-- DBG_CTRL (R523). -/
def State.writeDbgCtrl (s : State) (v : W64) : State :=
  let n := v.toNat
  let s := ((s.put Reg.DBG_CTRL_CTX n).put Reg.DBG_CTRL_SPACE (n / 2 ^ 4)).put Reg.DBG_CTRL_UNIT (n / 2 ^ 8)
  let s := if v.getLsbD 16 then s.dbgHalt true else s
  if v.getLsbD 17 then s.dbgHalt false else s

/-- Bytes of a group store (R31). -/
def groupStoreBytes : Nat := 8 * 2 ^ 20

/-- An access to DBG_DATA that cannot be made (R523). -/
def State.dbgBad (s : State) : Bool :=
  let addr := s.get Reg.DBG_ADDR_ADDR
  let unit := s.get Reg.DBG_CTRL_UNIT
  let c := s.get Reg.DBG_CTRL_CTX
  match s.get Reg.DBG_CTRL_SPACE with
  | 0 => (s.ctx c).st == .free || !s.mapsRange c addr 8
  | 1 => decide (96 ≤ unit ∨ tileUnits * unitBytes < addr + 8)
  | 2 => decide (12 ≤ unit ∨ groupStoreBytes < addr + 8)
  | _ => true

/-- ADDR advances by 8, and the access is in progress until DBG_DATA_ACCESS_END. -/
def State.dbgAdvance (s : State) (busy : Bool) : State :=
  let s := s.put Reg.DBG_ADDR_ADDR (s.get Reg.DBG_ADDR_ADDR + 8)
  { s with sec := { s.sec with dbgBusy := s.sec.dbgBusy || busy } }

/-- Note an access to the data of a space: the context of SPACE 0, else the running one. -/
def State.dbgTouch (s : State) (write : Bool) : State :=
  let space := s.get Reg.DBG_CTRL_SPACE
  let bit := (if space = 0 then 3 else 1) + write.toNat
  if space = 0 then s.dbgNote (s.get Reg.DBG_CTRL_CTX) bit
  else match s.running with
    | some c => s.dbgNote c bit
    | none => s

/-- A read of DBG_DATA: the register shows the 8 bytes at ADDR, or 0 with ERR. -/
def State.dbgRead (s : State) : State :=
  if s.dbgBad then ((s.put Reg.DBG_DATA_DATA 0).put Reg.DBG_STATUS_ERR 1).dbgAdvance false
  else
    let addr := s.get Reg.DBG_ADDR_ADDR
    let unit := s.get Reg.DBG_CTRL_UNIT
    let bs : List Byte := match s.get Reg.DBG_CTRL_SPACE with
      | 0 => (List.range 8).map (fun k => s.peek (s.get Reg.DBG_CTRL_CTX) (addr + k))
      | 1 => s.tread unit addr 8
      | _ => Tab.range 0 (s.group unit).store addr 8
    ((s.put Reg.DBG_DATA_DATA (ofBytes bs)).dbgTouch false).dbgAdvance true

/-- A write of DBG_DATA: the 8 bytes go to ADDR, or are discarded with ERR. -/
def State.dbgWrite (s : State) (v : W64) : State :=
  if s.dbgBad then (s.put Reg.DBG_STATUS_ERR 1).dbgAdvance false
  else
    let addr := s.get Reg.DBG_ADDR_ADDR
    let unit := s.get Reg.DBG_CTRL_UNIT
    let bs := toBytes 8 v.toNat
    let c := s.get Reg.DBG_CTRL_CTX
    let t : State := match s.get Reg.DBG_CTRL_SPACE with
      | 0 =>
        let t := s.pokes c addr bs
        if s.running = some c then t.markStale c addr 8 else t
      | 1 => s.twrite unit addr bs
      | _ => s.setGroup unit { s.group unit with store := Tab.setRange 0 (s.group unit).store addr bs }
    (t.dbgTouch true).dbgAdvance true

/-- DBG_HALT (R523). -/
def execDbgHalt (s : State) : Host.Outcome State Fault Refusal := .next (s.dbgHalt true)

/-- DBG_RESUME (R523). -/
def execDbgResume (s : State) : Host.Outcome State Fault Refusal := .next (s.dbgHalt false)

/-- DBG_DATA_READ (R523). -/
def execDbgDataRead (s : State) : Host.Outcome State Fault Refusal := .next s.dbgRead

/-- DBG_DATA_WRITE (R523). -/
def execDbgDataWrite (v : W64) (s : State) : Host.Outcome State Fault Refusal := .next (s.dbgWrite v)

/-- DBG_DATA_ACCESS_END (R523): BUSY returns to 0. -/
def execDbgDataAccessEnd (s : State) : Host.Outcome State Fault Refusal :=
  .next { s with sec := { s.sec with dbgBusy := false } }

/-! ### Writes (R14 to R17) -/

/-- The command that a GO names (R507, R537, R562); any other code is not accepted. -/
def State.runCommand (code : Nat) : State → State :=
  match code with
  | 0x01 => State.cmdSummary
  | 0x02 => State.cmdTest false
  | 0x03 => State.cmdTest true
  | 0x04 => State.cmdFenceEdit
  | 0x10 => State.cmdCtxCreate
  | 0x11 => State.cmdCtxMap
  | 0x12 => State.cmdCtxUnmap
  | 0x13 => State.cmdCtxSwitch
  | 0x14 => State.cmdCtxDestroy
  | 0x15 => State.cmdKeyImport
  | 0x16 => State.cmdAttest
  | 0x20 => State.cmdImageLoad
  | 0x21 => State.cmdJobStart
  | 0x22 => State.cmdJobLeave
  | 0x23 => State.cmdSpareJoin
  | _ => State.notAccepted

/-- SVC_MBOX_CMD (R535, R543). -/
def State.writeMboxCmd (s : State) (p : Path) (v : W64) : State :=
  let code := v.toNat % 2 ^ 8
  let tag : Byte := BitVec.ofNat 8 (v.toNat / 2 ^ 8)
  if v.getLsbD 63 then s.mailbox p code tag (State.runCommand code)
  else (s.put Reg.SVC_MBOX_CMD_CODE code).put Reg.SVC_MBOX_CMD_TAG tag.toNat

/-- The plain write: RW fields are set, W1C bits written as 1 are cleared, the rest is ignored (R15, R16). -/
def State.writePlain (s : State) (off : Nat) (v : W64) : State :=
  let w := (fieldsAt off).foldl (fun (w : W64) f =>
    match f.acc with
    | .rw => f.ins w (f.ext v.toNat)
    | .w1c => if f.ext v.toNat = 0 then w else f.ins w (f.ext w.toNat &&& (2 ^ f.w - 1 - f.ext v.toNat))
    | _ => w) (s.word off)
  s.setWord off w

/-- Whether an offset lies in the part of an engine's window that shows engine 0 (R358). -/
def isAlias (off : Nat) : Bool := aliasOf off != off

/-- FAB_PORT_CTRL (R435, R462): a port that is not enabled leaves the spray set at the next boundary; at once while the
beat stands still. -/
def State.writePortCtrl (s : State) (off : Nat) (v : W64) : State :=
  let p := (off - 0x090000) / 0x400
  let s := s.writePlain off v
  if s.flag Reg.FAB_PORT_CTRL_EN p then s else s.breakPort p .disabled

/-- An aligned 64-bit write. -/
def State.writeReg (s : State) (p : Path) (off : Nat) (v : W64) : State :=
  if off = 0x000100 then s.writeMboxCmd p v
  else if 0x000200 ≤ off ∧ off < 0x000300 then
    (if s.svc.mbox.st = .busy then s.event 0x0B07 (pathBit p * 2 ^ 8)
     else s.put Reg.SVC_MBOX_ARG_ARG v.toNat 0 ((off - 0x200) / 8))
  else if off = 0x010008 then s.writePeriod v
  else if off = 0x020000 then s.writeMode v
  else if off = 0x020008 then s.writeCap v
  else if off = 0x030060 then s.writeRemove v
  else if 0x090000 ≤ off ∧ off < 0x094000 ∧ off % 0x400 = 0 then s.writePortCtrl off v
  else if off = 0x094000 then s.writeNode v
  else if 0x0A0000 ≤ off ∧ off < 0x0B0000 then s.writeSo ((off - 0x0A0000) / 8) v
  else if off = 0x400000 then s.writeDbgCtrl v
  else if off = 0x400018 then s.dbgWrite v
  else if isAlias off then s
  else s.writePlain off v

/-- Whether a write is a naturally aligned 64-bit quantity (R14). -/
def aligned (off width : Nat) : Bool := decide (width = 8 ∧ off % 8 = 0)

/-- A write of any width: a narrow or unaligned one is discarded and raises REG_WIDTH (R14); the manual gives the event
no DETAIL: a free value. -/
def State.busWrite (s : State) (p : Path) (off width : Nat) (v : W64) : State :=
  if !s.live p then s
  else if aligned off width then s.writeReg p off v
  else s.drawn.event 0x0B40 (Config.freeWord s.draw).toNat

/-- REGISTER_WRITE (R15). -/
def execRegisterWrite (path : Path) (offset : BitVec 24) (v : W64) (s : State) : Host.Outcome State Fault Refusal :=
  .next (s.busWrite path offset.toNat 8 v)

/-- NARROW_REGISTER_WRITE (R14). -/
def execNarrowRegisterWrite (path : Path) (offset : BitVec 24) (width : Nat) (v : W64) (s : State) :
    Host.Outcome State Fault Refusal :=
  .next (s.busWrite path offset.toNat width v)

/-- BT_PERIOD_WRITE (R50). -/
def execBtPeriodWrite (v : W64) (s : State) : Host.Outcome State Fault Refusal := .next (s.writePeriod v)

/-- FAB_NODE_WRITE (R463). -/
def execFabNodeWrite (v : W64) (s : State) : Host.Outcome State Fault Refusal := .next (s.writeNode v)

/-- MODE_REQUEST (R90, R92). -/
def execModeRequest (v : W64) (s : State) : Host.Outcome State Fault Refusal := .next (s.writeMode v)

/-- POWER_CAP_WRITE (R556). -/
def execPowerCapWrite (v : W64) (s : State) : Host.Outcome State Fault Refusal := .next (s.writeCap v)

/-- REMOVAL_REQUEST (R492): `FLT_REMOVE.REQ`. -/
def execRemovalRequest (s : State) : Host.Outcome State Fault Refusal := .next (s.requestRemoval 1)

/-- REMOVAL_CANCEL (R492): `FLT_REMOVE.CANCEL`. -/
def execRemovalCancel (s : State) : Host.Outcome State Fault Refusal := .next s.cancelRemoval

/-! ### Reads that change something (R14, R543) -/

/-- The aligned registers that a read of `width` bytes touches (R14). -/
def touched (off width : Nat) : List Nat :=
  if width = 0 then [] else
    (List.range ((off + width - 1) / 8 - off / 8 + 1)).map (fun k => 8 * (off / 8 + k))

/-- The PEAK fields, each with the value from which it starts again: what the field now measures. -/
def State.peaks (s : State) : List (Fld × (Nat → Nat → Nat)) :=
  [(Reg.BT_OFFSET_PEAK, fun _ _ => s.offsetMag), (Reg.MT_THERM_PEAK, fun i j => s.get Reg.MT_THERM_TEMP i j),
   (Reg.FAB_PORT_RXBUF_PEAK, fun i _ => (s.port i).rxbuf), (Reg.FAB_CTX_PEAK, fun _ _ => s.openConns.length),
   (Reg.PWR_POWER_PEAK, fun _ _ => s.get Reg.PWR_POWER_WATTS), (Reg.PWR_THERM_PEAK, fun _ _ => s.get Reg.PWR_THERM_TJ)]

/-- A read of one register restarts its PEAK field. -/
def State.restartPeak (s : State) (off : Nat) : State :=
  s.peaks.foldl (fun (t : State) e =>
    if e.1.isAt off then t.put e.1 (e.2 (e.1.inst off).1 (e.1.inst off).2) (e.1.inst off).1 (e.1.inst off).2 else t) s

/-- A read of one of the two registers of a ring record marks it as read (R543). -/
def State.markRead (s : State) (off : Nat) : State :=
  if inRing off then
    let k := s.ringPlace ((off - 0x4000) / 16)
    match s.svc.ring[k]? with
    | some r => { s with svc := { s.svc with ring := s.svc.ring.set k (r.1, true) } }
    | none => s
  else s

/-- What the read of one register changes: its PEAK field, its ring record's mark, its fields of time (log 7), and DBG_DATA,
which reads the bytes at ADDR. -/
def State.touchReg (s : State) (o : Nat) : State :=
  let t := (s.restartPeak o).markRead o
  let t := if isTimed o then (t.keepTimed (aliasOf o)).drawn else t
  if o = 0x400018 then t.dbgRead else t

/-- What a read of the window changes, register by register (R14). -/
def State.readTouch (s : State) (off width : Nat) : State := (touched off width).foldl State.touchReg s

/-- What the read of one register returns: DBG_DATA what the read brings, any other what it holds before the read
changes it. -/
def State.readReg (s : State) (o : Nat) : W64 := (if o = 0x400018 then s.dbgRead else s).regRead o

/-- The registers that a read touches, each with what it returns in its turn. -/
def State.readRegs (s : State) : List Nat → List (Nat × W64)
  | [] => []
  | o :: t => (o, s.readReg o) :: (s.touchReg o).readRegs t

/-- The bytes that a read returns: each byte addressed, from the register that holds it (R14). -/
def State.windowBytes (s : State) (off width : Nat) : List Byte :=
  let rs : List (Nat × W64) := s.readRegs (touched off width)
  (List.range width).map (fun k =>
    let w : W64 := ((rs.find? (fun (e : Nat × W64) => e.1 == (off + k) / 8 * 8)).map Prod.snd).getD 0
    byteOf w.toNat ((off + k) % 8))

/-- PEAK_REGISTER_READ (R14). -/
def execPeakRegisterRead (offset : BitVec 24) (width : Nat) (s : State) : Host.Outcome State Fault Refusal :=
  .next (s.readTouch offset.toNat width)

/-- EVENT_RING_READ (R543). -/
def execEventRingRead (offset : BitVec 24) (width : Nat) (s : State) : Host.Outcome State Fault Refusal :=
  .next (s.readTouch offset.toNat width)

/-! ### SMBus and MGMT frames (R456, R551) -/

/-- SMBUS_WRITE (R551): a transaction with a wrong PEC is not acknowledged. -/
def execSmbusWrite (pecOk : Bool) (offset : BitVec 24) (v : W64) (s : State) : Host.Outcome State Fault Refusal :=
  .next (if pecOk then s.busWrite .smbus offset.toNat 8 v else s)

/-- SMBUS_READ (R551). -/
def execSmbusRead (pecOk : Bool) (offset : BitVec 24) (s : State) : Host.Outcome State Fault Refusal :=
  .next (if pecOk && s.live .smbus then s.readTouch offset.toNat 8 else s)

/-- MGMTR answers a MGMT frame (R438, R456). -/
def State.answerMgmt (s : State) (h : Hdr) (off : Nat) (write refused : Bool) (bs : List Byte) : State :=
  s.emitIn h.snode.toNat none (controlFrame 0x0E h.snode.toNat 0 off (write.toNat + 2 * refused.toNat) bs)

/-- MGMT_RECEIVE (R456, R459, R515): accepted from the management node on the peer's device session, else refused and
counted. A frame that fails authentication under that session is dropped; one that passes shows that the session is there,
since the manual does not say when it is agreed (log 74). The 8 bytes that answer a write or a refused frame are open:
free values. -/
def execMgmtReceive (h : Hdr) (write : Bool) (offset : BitVec 24) (data : W64) (s : State) :
    Host.Outcome State Fault Refusal :=
  let off := offset.toNat
  .next (
    let s := s.rxBytes h.port.val 8
    if s.isFenced h.snode.toNat then s
    else if !h.auth && (s.session h.snode.toNat none).isSome then s.bump Reg.FAB_AUTH_DROP_COUNT
    else if !(h.auth && s.flag Reg.FAB_MGMT_EN && s.get Reg.FAB_MGMT_NODE == h.snode.toNat) then
      (s.drawn.answerMgmt h off write true (freeBytes s.draw 8)).bump Reg.FAB_BAD_DROP_COUNT
    else
    let s := s.addSession h.snode.toNat none
    if write then
      (s.drawn.answerMgmt h off true false (freeBytes s.draw 8)).busWrite .mgmt off 8 data
    else
      (s.readTouch off 8).answerMgmt h off false false (s.windowBytes off 8))

end Sys2Proof.Machine
end

