-- ==== Sys2Proof/Machine/Dispatch.lean ====
section
/-!
DEFINITION. Machine/Dispatch.lean: one arm per command; each arm is one direct call of its meaning.
-/

namespace Sys2Proof.Machine

def exec (i : Instr) (s : State) : Host.Outcome State Fault Refusal :=
  match i with
  | .nop a => Sys2Proof.Machine.execNop a s
  | .loop a lc csrc sreg count body => Sys2Proof.Machine.execLoop a lc csrc sreg count body s
  | .pset a p dstp src cmp sel selb imm tsop word => Sys2Proof.Machine.execPset a p dstp src cmp sel selb imm tsop word s
  | .skip a p n => Sys2Proof.Machine.execSkip a p n s
  | .beat a slack => Sys2Proof.Machine.execBeat a slack s
  | .halt a => Sys2Proof.Machine.execHalt a s
  | .sowait a p index remote tnode dstp thresh => Sys2Proof.Machine.execSowait a p index remote tnode dstp thresh s
  | .soinc a p index remote tnode amount => Sys2Proof.Machine.execSoinc a p index remote tnode amount s
  | .soset a p index remote tnode hold hexpl hnode hcore count thresh => Sys2Proof.Machine.execSoset a p index remote tnode hold hexpl hnode hcore count thresh s
  | .fence a p scope => Sys2Proof.Machine.execFence a p scope s
  | .ldt a p tsop mop len part hw => Sys2Proof.Machine.execLdt a p tsop mop len part hw s
  | .stt a p tsop mop len part hw => Sys2Proof.Machine.execStt a p tsop mop len part hw s
  | .gth a p tsop mop len part tsop2 hw => Sys2Proof.Machine.execGth a p tsop mop len part tsop2 hw s
  | .sct a p tsop mop len part tsop2 hw => Sys2Proof.Machine.execSct a p tsop mop len part tsop2 hw s
  | .pfh a p mop dl part so soen slot fallback => Sys2Proof.Machine.execPfh a p mop dl part so soen slot fallback s
  | .xfer a p tsop mop node len part hw => Sys2Proof.Machine.execXfer a p tsop mop node len part hw s
  | .coll a p mop plan step so soen => Sys2Proof.Machine.execColl a p mop plan step so soen s
  | .mload a p tsa tsc fmts sparse hw => Sys2Proof.Machine.execMload a p tsa tsc fmts sparse hw s
  | .mmul a p f hw => Sys2Proof.Machine.execMmul a p f hw s
  | .mmuls a p f hw => Sys2Proof.Machine.execMmuls a p f hw s
  | .mmulw a p f hw => Sys2Proof.Machine.execMmulw a p f hw s
  | .mscale a p tsa tsx rows fmtt accum klog hw => Sys2Proof.Machine.execMscale a p tsa tsx rows fmtt accum klog hw s
  | .vadd a p f hw => Sys2Proof.Machine.execVadd a p f hw s
  | .vmul a p f hw => Sys2Proof.Machine.execVmul a p f hw s
  | .vfma a p f hw => Sys2Proof.Machine.execVfma a p f hw s
  | .vmax a p f hw => Sys2Proof.Machine.execVmax a p f hw s
  | .vred a p f hw => Sys2Proof.Machine.execVred a p f hw s
  | .vscan a p f hw => Sys2Proof.Machine.execVscan a p f hw s
  | .vexp a p f hw => Sys2Proof.Machine.execVexp a p f hw s
  | .vact a p f hw => Sys2Proof.Machine.execVact a p f hw s
  | .vder a p f hw => Sys2Proof.Machine.execVder a p f hw s
  | .vcvt a p f hw => Sys2Proof.Machine.execVcvt a p f hw s
  | .ablk a p tsq tskv tsst fmt bmask first last scale hdim bwd hw chk => Sys2Proof.Machine.execAblk a p tsq tskv tsst fmt bmask first last scale hdim bwd hw chk s
  | .asel a p tsq tssum tslist qblk qlc qlce topk win first last causal nsum1 hw => Sys2Proof.Machine.execAsel a p tsq tssum tslist qblk qlc qlce topk win first last causal nsum1 hw s
  | .kvapp a p tsacc tsx slot layer head kv pos plc plce rows1 fmt hw => Sys2Proof.Machine.execKvapp a p tsacc tsx slot layer head kv pos plc plce rows1 fmt hw s
  | .rtopk a p tsl tsd e1 k1 ntok norm hw => Sys2Proof.Machine.execRtopk a p tsl tsd e1 k1 ntok norm hw s
  | .disp a p tssel mop list cap policy ntok so => Sys2Proof.Machine.execDisp a p tssel mop list cap policy ntok so s
  | .cmb a p tsd tssel mop ntok k1 ofmt hw => Sys2Proof.Machine.execCmb a p tsd tssel mop ntok k1 ofmt hw s
  | .upd a p mop gate target done => Sys2Proof.Machine.execUpd a p mop gate target done s
  | .precon a p mop done kind => Sys2Proof.Machine.execPrecon a p mop done kind s
  | .ingest a p mop done => Sys2Proof.Machine.execIngest a p mop done s
  | .ckptFlash a p mop done areas => Sys2Proof.Machine.execCkptFlash a p mop done areas s
  | .ckptStore a p mop done areas => Sys2Proof.Machine.execCkptStore a p mop done areas s
  | .postEvent a p mop done => Sys2Proof.Machine.execPostEvent a p mop done s
  | .sowaitResume a => Sys2Proof.Machine.execSowaitResume a s
  | .fenceComplete a => Sys2Proof.Machine.execFenceComplete a s
  | .narrowMissReturn a => Sys2Proof.Machine.execNarrowMissReturn a s
  | .productComplete core flt => Sys2Proof.Machine.execProductComplete core flt s
  | .reliefReplayDone core flt => Sys2Proof.Machine.execReliefReplayDone core flt s
  | .shadowCheck a mismatch => Sys2Proof.Machine.execShadowCheck a mismatch s
  | .kvappResume a => Sys2Proof.Machine.execKvappResume a s
  | .kvPoolTimeout a => Sys2Proof.Machine.execKvPoolTimeout a s
  | .updJobStart g job hw => Sys2Proof.Machine.execUpdJobStart g job hw s
  | .updJobComplete g job => Sys2Proof.Machine.execUpdJobComplete g job s
  | .preconAttemptEnd g job => Sys2Proof.Machine.execPreconAttemptEnd g job s
  | .prefetchComplete a slot runAhead => Sys2Proof.Machine.execPrefetchComplete a slot runAhead s
  | .prefetchDrop a slot => Sys2Proof.Machine.execPrefetchDrop a slot s
  | .prefetchDeadline a slot delivered => Sys2Proof.Machine.execPrefetchDeadline a slot delivered s
  | .collStepComplete op => Sys2Proof.Machine.execCollStepComplete op s
  | .gatherTimeout op => Sys2Proof.Machine.execGatherTimeout op s
  | .ckptFlashDone => Sys2Proof.Machine.execCkptFlashDone s
  | .ckptStoreDone fail => Sys2Proof.Machine.execCkptStoreDone fail s
  | .kvMoveDone frame => Sys2Proof.Machine.execKvMoveDone frame s
  | .poolMoveDone frame => Sys2Proof.Machine.execPoolMoveDone frame s
  | .frameScrub frame => Sys2Proof.Machine.execFrameScrub frame s
  | .ftlBackgroundWork hub3 reclaimed retired refreshed written => Sys2Proof.Machine.execFtlBackgroundWork hub3 reclaimed retired refreshed written s
  | .beatBoundary watts => Sys2Proof.Machine.execBeatBoundary watts s
  | .guardStart => Sys2Proof.Machine.execGuardStart s
  | .segmentOverrun a cycles => Sys2Proof.Machine.execSegmentOverrun a cycles s
  | .stepEndBoundary watts => Sys2Proof.Machine.execStepEndBoundary watts s
  | .switchEnd watts => Sys2Proof.Machine.execSwitchEnd watts s
  | .jobFirstStepEntry watts => Sys2Proof.Machine.execJobFirstStepEntry watts s
  | .joinDeadline => Sys2Proof.Machine.execJoinDeadline s
  | .kvQuarantineRelease frame => Sys2Proof.Machine.execKvQuarantineRelease frame s
  | .framePoolReturn frame => Sys2Proof.Machine.execFramePoolReturn frame s
  | .beatLock => Sys2Proof.Machine.execBeatLock s
  | .holdoverEntry => Sys2Proof.Machine.execHoldoverEntry s
  | .acquireTimeout => Sys2Proof.Machine.execAcquireTimeout s
  | .markerSilence peer => Sys2Proof.Machine.execMarkerSilence peer s
  | .markerLoss => Sys2Proof.Machine.execMarkerLoss s
  | .offsetLimit => Sys2Proof.Machine.execOffsetLimit s
  | .watchSilence node => Sys2Proof.Machine.execWatchSilence node s
  | .hangDetect a => Sys2Proof.Machine.execHangDetect a s
  | .deviceFenceCommit watts => Sys2Proof.Machine.execDeviceFenceCommit watts s
  | .selfFencing => Sys2Proof.Machine.execSelfFencing s
  | .hbmTempReport stack temp thresh => Sys2Proof.Machine.execHbmTempReport stack temp thresh s
  | .stackOvertemp stack => Sys2Proof.Machine.execStackOvertemp stack s
  | .portRejoin port => Sys2Proof.Machine.execPortRejoin port s
  | .ackTimer conn => Sys2Proof.Machine.execAckTimer conn s
  | .retransmitTimeout conn psn => Sys2Proof.Machine.execRetransmitTimeout conn psn s
  | .sessionRekey conn => Sys2Proof.Machine.execSessionRekey conn s
  | .dataReceive h addr bytes row => Sys2Proof.Machine.execDataReceive h addr bytes row s
  | .rxbufXon port bytes => Sys2Proof.Machine.execRxbufXon port bytes s
  | .pfcReceive port xoff => Sys2Proof.Machine.execPfcReceive port xoff s
  | .soincFrameReceive h index amount => Sys2Proof.Machine.execSoincFrameReceive h index amount s
  | .collFrameReceive h c => Sys2Proof.Machine.execCollFrameReceive h c s
  | .nreqReceive h slot layer head block tag => Sys2Proof.Machine.execNreqReceive h slot layer head block tag s
  | .nrespReceive h tag offset pad fail full bytes => Sys2Proof.Machine.execNrespReceive h tag offset pad fail full bytes s
  | .dcountReceive h c => Sys2Proof.Machine.execDcountReceive h c s
  | .dgrantReceive h g => Sys2Proof.Machine.execDgrantReceive h g s
  | .ackReceive h next bitmap notrun => Sys2Proof.Machine.execAckReceive h next bitmap notrun s
  | .connectReceive h ctx theirs certOk => Sys2Proof.Machine.execConnectReceive h ctx theirs certOk s
  | .acceptReceive h theirs certOk => Sys2Proof.Machine.execAcceptReceive h theirs certOk s
  | .closeReceive h => Sys2Proof.Machine.execCloseReceive h s
  | .markerReceive peer auth m => Sys2Proof.Machine.execMarkerReceive peer auth m s
  | .mgmtReceive h write offset data => Sys2Proof.Machine.execMgmtReceive h write offset data s
  | .badFrameReceive port why => Sys2Proof.Machine.execBadFrameReceive port why s
  | .nvmePduReceive at_ pdu => Sys2Proof.Machine.execNvmePduReceive at_ pdu s
  | .icmpEchoRequest port src bytes => Sys2Proof.Machine.execIcmpEchoRequest port src bytes s
  | .formationExchange peer f => Sys2Proof.Machine.execFormationExchange peer f s
  | .share => Sys2Proof.Machine.execShare s
  | .free => Sys2Proof.Machine.execFree s
  | .promote => Sys2Proof.Machine.execPromote s
  | .summary path tag => Sys2Proof.Machine.execSummary path tag s
  | .testNative path tag => Sys2Proof.Machine.execTestNative path tag s
  | .testStress path tag => Sys2Proof.Machine.execTestStress path tag s
  | .fieldTestDone failing failGroups => Sys2Proof.Machine.execFieldTestDone failing failGroups s
  | .fenceEdit path tag => Sys2Proof.Machine.execFenceEdit path tag s
  | .imageLoad path tag => Sys2Proof.Machine.execImageLoad path tag s
  | .jobStart path tag => Sys2Proof.Machine.execJobStart path tag s
  | .stateLoadDone found ioError stored => Sys2Proof.Machine.execStateLoadDone found ioError stored s
  | .jobLeave path tag => Sys2Proof.Machine.execJobLeave path tag s
  | .spareJoin path tag => Sys2Proof.Machine.execSpareJoin path tag s
  | .ctxCreate path tag => Sys2Proof.Machine.execCtxCreate path tag s
  | .ctxMap path tag => Sys2Proof.Machine.execCtxMap path tag s
  | .ctxUnmap path tag => Sys2Proof.Machine.execCtxUnmap path tag s
  | .ctxSwitch path tag => Sys2Proof.Machine.execCtxSwitch path tag s
  | .ctxDestroy path tag => Sys2Proof.Machine.execCtxDestroy path tag s
  | .keyImport path tag => Sys2Proof.Machine.execKeyImport path tag s
  | .attest path tag => Sys2Proof.Machine.execAttest path tag s
  | .unsealAttempt ctx => Sys2Proof.Machine.execUnsealAttempt ctx s
  | .mboxArgWrite path k v => Sys2Proof.Machine.execMboxArgWrite path k v s
  | .registerWrite path offset v => Sys2Proof.Machine.execRegisterWrite path offset v s
  | .narrowRegisterWrite path offset width v => Sys2Proof.Machine.execNarrowRegisterWrite path offset width v s
  | .peakRegisterRead offset width => Sys2Proof.Machine.execPeakRegisterRead offset width s
  | .eventRingRead offset width => Sys2Proof.Machine.execEventRingRead offset width s
  | .btPeriodWrite v => Sys2Proof.Machine.execBtPeriodWrite v s
  | .fabNodeWrite v => Sys2Proof.Machine.execFabNodeWrite v s
  | .modeRequest v => Sys2Proof.Machine.execModeRequest v s
  | .powerCapWrite v => Sys2Proof.Machine.execPowerCapWrite v s
  | .removalRequest => Sys2Proof.Machine.execRemovalRequest s
  | .removalCancel => Sys2Proof.Machine.execRemovalCancel s
  | .dbgHalt => Sys2Proof.Machine.execDbgHalt s
  | .dbgResume => Sys2Proof.Machine.execDbgResume s
  | .dbgDataRead => Sys2Proof.Machine.execDbgDataRead s
  | .dbgDataWrite v => Sys2Proof.Machine.execDbgDataWrite v s
  | .smbusWrite pecOk offset v => Sys2Proof.Machine.execSmbusWrite pecOk offset v s
  | .smbusRead pecOk offset => Sys2Proof.Machine.execSmbusRead pecOk offset s
  | .standbyPowerUp feed hubpos latchClosed seated => Sys2Proof.Machine.execStandbyPowerUp feed hubpos latchClosed seated s
  | .managementStageDone microcodeOk => Sys2Proof.Machine.execManagementStageDone microcodeOk s
  | .seatInsert => Sys2Proof.Machine.execSeatInsert s
  | .mainPathOn => Sys2Proof.Machine.execMainPathOn s
  | .mainGood input => Sys2Proof.Machine.execMainGood input s
  | .railsUp ok => Sys2Proof.Machine.execRailsUp ok s
  | .bistSliceDone slice pass => Sys2Proof.Machine.execBistSliceDone slice pass s
  | .bistSliceTimeout slice => Sys2Proof.Machine.execBistSliceTimeout slice s
  | .bistComplete ms => Sys2Proof.Machine.execBistComplete ms s
  | .fenceRecordWritten => Sys2Proof.Machine.execFenceRecordWritten s
  | .perstDeassert => Sys2Proof.Machine.execPerstDeassert s
  | .linkStateChange port up lock cause => Sys2Proof.Machine.execLinkStateChange port up lock cause s
  | .supplyWarning input => Sys2Proof.Machine.execSupplyWarning input s
  | .supplyRecovery input us => Sys2Proof.Machine.execSupplyRecovery input us s
  | .supplyReset input => Sys2Proof.Machine.execSupplyReset input s
  | .guardTimeout input us => Sys2Proof.Machine.execGuardTimeout input us s
  | .supplyOverTimeout input => Sys2Proof.Machine.execSupplyOverTimeout input s
  | .mainOvervoltage input => Sys2Proof.Machine.execMainOvervoltage input s
  | .seatRelease => Sys2Proof.Machine.execSeatRelease s
  | .junctionLimit tj => Sys2Proof.Machine.execJunctionLimit tj s
  | .attnRelease ms => Sys2Proof.Machine.execAttnRelease ms s
  | .attnHold => Sys2Proof.Machine.execAttnHold s
  | .latchOpening => Sys2Proof.Machine.execLatchOpening s
  | .latchPowerDown => Sys2Proof.Machine.execLatchPowerDown s
  | .mainRailsDown => Sys2Proof.Machine.execMainRailsDown s
  | .imageLoadDone bytes => Sys2Proof.Machine.execImageLoadDone bytes s
  | .workingCopyDerivationDone copies => Sys2Proof.Machine.execWorkingCopyDerivationDone copies s
  | .dbgDataAccessEnd => Sys2Proof.Machine.execDbgDataAccessEnd s
  | .standbyPowerLoss => Sys2Proof.Machine.execStandbyPowerLoss s
  | .neighbourDiscoveryReceive port kind src mac => Sys2Proof.Machine.execNeighbourDiscoveryReceive port kind src mac s
  | .arpReceive port request src target mac => Sys2Proof.Machine.execArpReceive port request src target mac s

end Sys2Proof.Machine
end

