-- ==== Sys2Proof/Safety.lean ====
section
/-!
DEFINITION. Safety.lean: what counts as a safe run of the block, the canonical form of a state, and the
conditions and frames in terms of which the statements speak.
-/

namespace Sys2Proof

/-- A run of `k` steps is safe when it ends in a state: no step faulted or was refused. -/
def SafeRun (k : Nat) (s : Machine.State) : Prop := ∃ t, core.run k s = .next t

namespace Machine

/-! ### The canonical form

Equal contents are equal data: every sparse table has rising keys and lists no default. -/

/-- The tables of a strand are canonical. -/
def Strand.canon (t : Strand) : Bool := Tab.wf 0 t.sreg && Tab.wf 0 t.areg && Tab.wf 0 t.lc

/-- The tables of a core are canonical. -/
def CoreSt.canon (c : CoreSt) : Bool := Tab.wf 0 c.tile && Tab.wf none c.marks

/-- The group store is canonical. -/
def GroupSt.canon (g : GroupSt) : Bool := Tab.wf 0 g.store

/-- The tables of a context are canonical. -/
def Ctx.canon (x : Ctx) : Bool := Tab.wf none x.maps && Tab.wf SyncObj.reset x.saved.so

/-- The tables of the device are canonical. -/
def State.canon (s : State) : Bool :=
  Tab.wf 0 s.regs && Tab.wf 0 s.mem && Tab.wf 0 s.flash && Tab.wf SyncObj.reset s.so
  && Tab.wf FrameSt.free s.frames && Tab.wf Conn.reset s.conns && Tab.wf Port.reset s.ports
  && Tab.wf none s.bt.peers
  && Tab.wf Strand.reset s.strands && s.strands.all (fun e => e.2.canon)
  && Tab.wf CoreSt.reset s.cores && s.cores.all (fun e => e.2.canon)
  && Tab.wf GroupSt.reset s.groups && s.groups.all (fun e => e.2.canon)
  && Tab.wf Ctx.reset s.sec.ctxs && s.sec.ctxs.all (fun e => e.2.canon)
  && Tab.wf 0 s.collNext && Tab.wf 0 s.circNext && Tab.wf 0 s.throttle && Tab.wf 0 s.hotBeats
  && Tab.wf none s.tcp

/-! ### When a strand executes, and what it leaves alone -/

/-- The strand issues the instruction, whose words the loader accepts, and its condition holds (R75, R89, R117). -/
def State.executes (s : State) (a : Site) (p : Pred) (i : Instr) : Prop :=
  s.canIssue a = true ∧ (s.strand a).cond p = true ∧ i.wf = true

/-- Of the device, only strands and cores differ. -/
def State.onlyCores (s t : State) : Prop := { t with strands := s.strands, cores := s.cores } = s

/-- Of the device, only strands, cores and the register file differ. -/
def State.onlyRegs (s t : State) : Prop := { t with strands := s.strands, cores := s.cores, regs := s.regs } = s

/-- Every strand but `a`, and of every core all but the strand it issues from or has left, is unchanged. -/
def State.othersSame (s t : State) (a : Site) : Prop :=
  (∀ b, b ≠ a → t.strand b = s.strand b) ∧
  ∀ c, { t.core c with cur := (s.core c).cur, left := (s.core c).left } = s.core c

/-- No conflict with a product in flight, and none of the causes of R112 applies. -/
def State.clear (s : State) (a : Site) (i : Instr) (causes : List (Bool × Nat)) : Prop :=
  s.conflict a i.regions = false ∧ firstCause (regionCauses (s.strand a) i.regions ++ causes) = none

/-- The strand once its instruction is done and it goes on at the next one (R82, R118). -/
def State.after (s : State) (a : Site) : Strand := (s.strand a).goto ((s.strand a).pc.toNat + 1)

/-- Of the tile stores, `n` bytes of one core from `at_` up become `f k`; every other byte is unchanged. -/
def State.tileGets (s t : State) (core at_ n : Nat) (f : Nat → Byte) : Prop :=
  (∀ k, k < n → Tab.get 0 (t.core core).tile (at_ + k) = f k) ∧
  (∀ j, (j < at_ ∨ at_ + n ≤ j) → Tab.get 0 (t.core core).tile j = Tab.get 0 (s.core core).tile j) ∧
  (∀ c, c ≠ core → (t.core c).tile = (s.core c).tile)

/-- Physical memory after the bytes `f k` are written at the virtual addresses `g k` of a context in ascending order:
the last byte written at an address prevails, and every other byte is unchanged. -/
def State.memGets (s t : State) (c n : Nat) (g : Nat → Nat) (f : Nat → Byte) : Prop :=
  (∀ k pa, k < n → s.translate c (g k) = some pa → (∀ j, k < j → j < n → s.translate c (g j) ≠ some pa) →
    t.pbyte pa = f k) ∧
  (∀ pa, (∀ k, k < n → s.translate c (g k) ≠ some pa) → t.pbyte pa = s.pbyte pa)

/-- Bytes that no prefetch has a claim on: no STALE mark, none undelivered (R413, R414, R419). -/
def State.freshBytes (s : State) (va n : Nat) : Prop :=
  s.staleMet va n = [] ∧ s.readWaits va n = false ∧ ∀ k, k < n → s.servedFrom (va + k) = va + k

/-- Ordinary bytes, not of the view aperture, that no prefetch has a claim on (R276). -/
def State.plainBytes (s : State) (va n : Nat) : Prop := isView va = false ∧ s.freshBytes va n

/-- Traffic of a group port is counted: its bytes, and its requests at their class (R404, R432). -/
def State.portCounts (s t : State) (g cls : Nat) (write : Bool) (bytes requests : Nat) : Prop :=
  let port := if write then Reg.GRP_PORT_WR_COUNT else Reg.GRP_PORT_RD_COUNT
  t.get port g = (s.get port g + bytes) % 2 ^ 64 ∧
  t.get (arbCounter cls) g = (s.get (arbCounter cls) g + requests) % 2 ^ 64

/-- Every register but the two counters of that traffic, and those that `more` names, is as before. -/
def State.portFrame (s t : State) (g cls : Nat) (write : Bool) (more : Nat → Prop) : Prop :=
  ∀ off, off ≠ (if write then Reg.GRP_PORT_WR_COUNT else Reg.GRP_PORT_RD_COUNT).off g 0 →
    off ≠ (arbCounter cls).off g 0 → ¬ more off → t.word off = s.word off

/-- The counters of STALE granules of the hubs (R431). -/
def staleCounter (off : Nat) : Prop := ∃ h, off = Reg.MT_PF_STALE_COUNT.off h 0

/-- The counters of narrow granules of the hubs (R431). -/
def narrowCounter (off : Nat) : Prop := ∃ h, off = Reg.MT_NARROW_COUNT.off h 0

/-- Each hub counts the granules that lie at it (R405, R431). -/
def State.narrowCounts (s t : State) (c : Nat) (gs : List Nat) : Prop :=
  ∀ h, h < 4 → t.get Reg.MT_NARROW_COUNT h =
    (s.get Reg.MT_NARROW_COUNT h + gs.countP (fun g => hubOf ((s.translate c g).getD 0) == h)) % 2 ^ 64

/-- The newest record of the event ring (R543). -/
def State.newest (s : State) : Option EvtRec := s.svc.ring.head?.map (·.1)

/-- The record of an event that an agent of the device raises now (R18). -/
def State.eventRec (s : State) (code detail core : Nat) : EvtRec :=
  { code := BitVec.ofNat 16 code, node := BitVec.ofNat 15 s.node, core := BitVec.ofNat 8 core
    ctx := s.running.map (BitVec.ofNat 4), beat := BitVec.ofNat 48 s.beat, detail := BitVec.ofNat 32 detail }

/-- `t` is `s` with the event raised: one newer record, counted, the oldest record gone from a full ring (R543). -/
def State.raised (s t : State) (code detail core : Nat) : Prop :=
  t.svc.ring = ((s.eventRec code detail core, false) :: s.svc.ring).take 1024 ∧
  t.get Reg.SVC_EVT_COUNT_COUNT = (s.get Reg.SVC_EVT_COUNT_COUNT + 1) % 2 ^ 64

/-! ### Helpers of the statements -/

/-- Sync object `i` is incremented once (R102); nothing else of the file changes. -/
def State.signals (s t : State) (i : Nat) : Prop :=
  t.obj i = { s.obj i with count := BitVec.ofNat 32 (min ((s.obj i).count.toNat + 1) 0xFFFFFFFF) } ∧
  ∀ j, j ≠ i → t.obj j = s.obj j

/-- What an instruction of the vector unit leaves beside its results: the strand at its next instruction, VL vectors
counted, memory and every other strand as before, and of the device only strands, cores, registers, events and the
verdict contribution changed. -/
def State.vecLeaves (s t : State) (a : Site) (f : VecF) : Prop :=
  t.strand a = s.after a ∧ t.mem = s.mem ∧ (∀ b, b ≠ a → t.strand b = s.strand b) ∧
  t.get Reg.CORE_VEC_VECTORS_COUNT a.core.val = (s.get Reg.CORE_VEC_VECTORS_COUNT a.core.val + f.vl.toNat) % 2 ^ 64 ∧
  ({ t with strands := s.strands, cores := s.cores, regs := s.regs, svc := s.svc, step := s.step } : State) = s

/-- An instruction of the vector unit with one destination: the bytes `bs` there, and every other tile byte as before. -/
def State.vecWrites (s t : State) (a : Site) (f : VecF) (bs : List Byte) : Prop :=
  s.vecLeaves t a f ∧
  s.tileGets t a.core.val (Tsop.addr (s.strand a) f.tsd) bs.length (fun k => bs.getD k 0)

/-- Of the tile stores, the bytes `xs` of one core from `x` up and then the bytes `ys` from `y` up are written, those of
`ys` prevailing where the two overlap; every other byte is unchanged. -/
def State.tileGets2 (s t : State) (core x : Nat) (xs : List Byte) (y : Nat) (ys : List Byte) : Prop :=
  (∀ k, k < ys.length → Tab.get 0 (t.core core).tile (y + k) = ys.getD k 0) ∧
  (∀ k, k < xs.length → (x + k < y ∨ y + ys.length ≤ x + k) → Tab.get 0 (t.core core).tile (x + k) = xs.getD k 0) ∧
  (∀ j, (j < x ∨ x + xs.length ≤ j) → (j < y ∨ y + ys.length ≤ j) →
    Tab.get 0 (t.core core).tile j = Tab.get 0 (s.core core).tile j) ∧
  (∀ c, c ≠ core → (t.core c).tile = (s.core c).tile)

/-- A vector instruction meets no wait and no cause, and no check reports anything. -/
def State.vecClear (s : State) (a : Site) (f : VecF) (v : VecShape) (mxOut : Bool) (hw : HwReport) : Prop :=
  s.conflict a (s.vecRegions a f v mxOut) = false ∧
  firstCause (regionCauses (s.strand a) (s.vecRegions a f v mxOut) ++ s.vecCauses a f v mxOut (s.strand a)) = none ∧
  hw = ⟨[], false, [], hw.miss⟩

/-- The rows of a source of a vector instruction (R211 to R214). -/
def State.vecSource (s : State) (a : Site) (f : VecF) (o : Tsop) : List (List Fv) :=
  s.source a.core.val f.fmt.toNat (Tsop.unit (s.strand a) o) (2 * f.vl.toNat)

/-- The bytes of rows of results in OFMT (R211, R215). -/
def vecBytes (f : VecF) (rows : List (List Fv)) : List Byte :=
  rows.flatMap (fun r => packRow f.ofmt.toNat (r.map (outCode f.ofmt.toNat)))

/-- A KVAPP finds a frame to write: its block's own and not moving, or a free one (R280, R283). -/
def State.kvFrame (s : State) (r : Roots) (k : KvArgs) : Bool :=
  match s.entry (r.stream k.slot k.layer k.head) (k.pos / 128) with
  | .frame tier n _ => if 1 < s.frRef tier n then s.allocPage.isSome else s.frState tier n != 3
  | _ => s.allocPage.isSome

/-- The smallest slack of a beat with one more strand's taken in: the smaller one, with its core (R61). -/
def slackAfter (old : Option (Nat × Nat)) (n core : Nat) : Option (Nat × Nat) :=
  match old with
  | some m => if n < m.1 then some (n, core) else some m
  | none => some (n, core)

/-- The comparisons of CMP (R127, R128): EQ, NE, LTU, GEU with the immediate zero-extended, LT and GE with it
sign-extended. -/
def comparesTo {w : Nat} (cmp : Nat) (x : BitVec w) (imm : BitVec 32) : Prop :=
  match cmp with
  | 0 => x.toNat = imm.toNat
  | 1 => x.toNat ≠ imm.toNat
  | 2 => x.toNat < imm.toNat
  | 3 => imm.toNat ≤ x.toNat
  | 4 => x.toInt < imm.toInt
  | _ => imm.toInt ≤ x.toInt

/-- The gather that is filling a pool entry (R367). -/
def State.filling (s : State) (entry : Nat) : Option CollOp :=
  s.colls.find? (fun o => !o.complete && (match s.plan o.plan with
    | some r => r.kind == 3 && r.entry == entry
    | none => false))

/-- A mismatch of this segment is recorded from an earlier entry of the step (R472). -/
def State.replayRecord (s : State) (a : Site) (seg : Nat) : Bool :=
  (s.group (groupOf a.core.val)).shadow.any (fun e => e.1 == siteKey a + 384 * seg && e.2 != s.entriesNow)

/-- `n` bytes of a tile store as a number. -/
def State.tileWord (s : State) (core at_ n : Nat) : Nat := ofBytes (s.tread core at_ n)

/-- A core's state without what issuing an instruction touches (R75). -/
def CoreSt.still (c d : CoreSt) : CoreSt := { c with cur := d.cur, left := d.left }

/-- A product without the note that something was written into its stationary source (R468). -/
def Product.unwritten (p : Product) : Product := { p with tile := { p.tile with written := false } }

/-- Word 0 of a record after a scan (R185 to R187, R190): anchor, MAXP and VALID from the two runs, NONFIN set by what is
not finite, the replays and SAT as before. -/
def scanned (w0 w : Nat) (cur prev : Option Int) (klog : Nat) (nonfin : Bool) : Prop :=
  (∀ x y, cur = some x → prev = some y → bits w 16 10 = enc10 (x + y) ∧
    bits w 0 10 = enc10 (max (x + y + klog - 62) (-512)) ∧ bits w 31 1 = 1) ∧
  (cur = none ∨ prev = none → bits w 16 10 = enc10 (-512) ∧ bits w 0 10 = enc10 (-512) ∧ bits w 31 1 = 0) ∧
  bits w 10 1 = (if nonfin then 1 else bits w0 10 1) ∧ bits w 11 1 = bits w0 11 1 ∧ bits w 28 2 = bits w0 28 2

/-- Word 0 of a record after a product (R134, R190, R192): the hint it ended with where it was raised or given, its
replays added, NONFIN and SAT set where they occurred, MAXP and VALID as before. -/
def summed (w0 w replays : Nat) (a : Int) (raised nonfin sat : Bool) : Prop :=
  bits w 0 10 = (if raised then enc10 a else bits w0 0 10) ∧ bits w 28 2 = (bits w0 28 2 + replays) % 4 ∧
  bits w 10 1 = (if nonfin then 1 else bits w0 10 1) ∧ bits w 11 1 = (if sat then 1 else bits w0 11 1) ∧
  bits w 16 10 = bits w0 16 10 ∧ bits w 31 1 = bits w0 31 1

/-- The completion objects that some COLLs name are incremented, each once for every COLL (R102, R451). -/
def State.callsSignal (s t : State) (calls : List CollCall) : Prop :=
  ∀ i, (t.obj i).count.toNat = min ((s.obj i).count.toNat + calls.countP (fun q => q.so == some i)) 0xFFFFFFFF

/-- The first row of an append in its frame's image (R267). -/
def KvArgs.rowsVa (k : KvArgs) (r : Roots) (tier n : Nat) : Nat :=
  r.frameVa tier n + (if k.v then 128 * r.rowBytes else 0) + r.rowBytes * (k.pos % 128)

/-- Two ranges of a context share no byte of physical memory. -/
def State.apart (s : State) (c x n y m : Nat) : Prop :=
  ∀ i j pa, i < n → j < m → s.translate c (x + i) = some pa → s.translate c (y + j) ≠ some pa

/-- The rows of an append are mapped, each to bytes of its own, apart from what the append writes beside them: the block's
entry, the stream's descriptor, the frame's record, the block's summary and the rows' scales (R267 to R273). -/
def State.kvRoom (s : State) (c : Nat) (r : Roots) (k : KvArgs) (tier n : Nat) : Prop :=
  let va := k.rowsVa r tier n
  let len := r.rowBytes * k.rows
  let stream := r.stream k.slot k.layer k.head
  let d := s.streamDesc stream
  let b := k.pos / 128
  let sc := r.frameVa tier n + 32768 + (if k.v then 512 else 0) + 4 * (k.pos % 128)
  let scLen := if r.fmt = 0 then 0 else 4 * k.rows
  (∀ i, i < len → (s.translate c (va + i)).isSome = true) ∧
  (∀ i j, i < len → j < len → s.translate c (va + i) = s.translate c (va + j) → i = j) ∧
  s.apart c va len (d.1 + 8 * b) 8 ∧ s.apart c va len (r.descVa stream) 32 ∧ s.apart c va len (r.recVa tier n) 16 ∧
  s.apart c va len (d.2.1 + 256 * b) 256 ∧ s.apart c va len sc scLen ∧
  s.apart c sc scLen (r.descVa stream) 32 ∧ s.apart c (d.1 + 8 * b) 8 (r.descVa stream) 32

/-- The converted rows of an append stand in its frame (R198, R263, R267, R280). -/
def State.kvStored (s t : State) (c core : Nat) (r : Roots) (k : KvArgs) (tier n : Nat) : Prop :=
  ∀ q row, (s.kvRows core k).1[q]? = some row → ∀ j, j < row.1.length →
    t.vbyte c (k.rowsVa r tier n + r.rowBytes * q + j) = row.1.getD j 0

/-- A counter has advanced by `n`, wrapping at its width. -/
def State.counts (s t : State) (f : Fld) (i n : Nat) : Prop := t.get f i = (s.get f i + n) % 2 ^ f.w

/-- A range of a context that is mapped, each of its bytes to a byte of its own. -/
def State.ownBytes (s : State) (c va n : Nat) : Prop :=
  (∀ i, i < n → (s.translate c (va + i)).isSome = true) ∧
  ∀ i j, i < n → j < n → s.translate c (va + i) = s.translate c (va + j) → i = j

/-- Every object is incremented as often as it stands in a list (R102). -/
def State.signalsAll (s t : State) (l : List Nat) : Prop :=
  ∀ i, (t.obj i).count.toNat = min ((s.obj i).count.toNat + l.countP (fun d => d == i)) 0xFFFFFFFF

/-- No update job waits for a root (R348). -/
def State.noRootWaits (s : State) : Prop := ∀ g, ∀ j ∈ (s.group g).jobs, j.phase ≠ .waitRoot

/-- The commands for the boundary of each kind. -/
def boundaryRow (w : BitVec 16) : BoundaryKind → Option Instr
  | .beat => some (.beatBoundary w)
  | .stepEnd => some (.stepEndBoundary w)
  | .switchEnd => some (.switchEnd w)
  | .firstEntry => some (.jobFirstStepEntry w)
  | .fence => some (.deviceFenceCommit w)
  | .self => none

/-- The commands for the page records of each OP (R286). -/
def ringRow : Nat → Option Instr
  | 1 => some .share
  | 2 => some .free
  | 3 => some .promote
  | _ => none

/-- A DATA-class frame that passes every check of R459, R440, R443 and R444 and is the next one of its connection. -/
def State.rxNextFrame (s : State) (h : Hdr) : Prop :=
  s.isFenced h.snode.toNat = false ∧ h.auth = true ∧ s.rxConn h = some h.dcid.toNat ∧
  s.running = some (s.conn h.dcid.toNat).ctx ∧ h.epoch.toNat = (s.ctx (s.conn h.dcid.toNat).ctx).entries % 256 ∧
  (s.conn h.dcid.toNat).rxNext = h.psn.toNat ∧ (s.conn h.dcid.toNat).rxSeen = [] ∧ (s.conn h.dcid.toNat).rxHeld = []

/-- A CONTROL frame that its connection takes (R438, R440, R459). -/
def State.rxControlOk (s : State) (h : Hdr) : Prop :=
  s.isFenced h.snode.toNat = false ∧ h.auth = true ∧ s.rxConn h = some h.dcid.toNat

/-- The commands that `SVC_MBOX_CMD` starts, with their codes (R507, R537, R562). -/
def mailboxRows (path : Path) (tag : Byte) : List (Nat × Instr) :=
  [(0x01, .summary path tag), (0x02, .testNative path tag), (0x03, .testStress path tag), (0x04, .fenceEdit path tag),
   (0x10, .ctxCreate path tag), (0x11, .ctxMap path tag), (0x12, .ctxUnmap path tag), (0x13, .ctxSwitch path tag),
   (0x14, .ctxDestroy path tag), (0x15, .keyImport path tag), (0x16, .attest path tag), (0x20, .imageLoad path tag),
   (0x21, .jobStart path tag), (0x22, .jobLeave path tag), (0x23, .spareJoin path tag)]

/-- The mailbox takes commands of this path (R526, R535). -/
def State.mboxFree (s : State) (path : Path) : Prop := s.live path = true ∧ s.svc.mbox.st ≠ .busy

/-- The members among which a join forms marker peers (R569). -/
def State.joinSet (s : State) (c : Nat) : List Nat :=
  ({ s with flt := { s.flt with map := { FaultMap.reset with members := s.jobMembers c } } } : State).peerSet

/-- A mailbox command has ended with DONE and RESULT 0. -/
def State.mboxOk (t : State) : Prop := t.svc.mbox.st = .done ∧ t.svc.mbox.result = 0 ∧ t.svc.mbox.job = none

/-- A mailbox command has been refused with a RESULT. -/
def State.mboxNo (t : State) (result : BitVec 16) : Prop :=
  t.svc.mbox.st = .refused ∧ t.svc.mbox.result = result ∧ t.svc.mbox.job = none

/-- A mailbox command goes on. -/
def State.mboxRuns (t : State) (j : MboxJob) : Prop := t.svc.mbox.st = .busy ∧ t.svc.mbox.job = some j

/-- Bit `j` of the register at an offset is reserved: no field of its table has it (R16). -/
def reservedBit (off j : Nat) : Prop :=
  inRing off = false ∧ ∀ f ∈ fieldsAt (aliasOf off), j < f.lo ∨ f.lo + f.w ≤ j

end Machine

/-- A report of the checks without errors. -/
def HwReport.clean (hw : HwReport) : Prop := hw.ecc = [] ∧ hw.residue = false ∧ hw.wrong = []

/-- The constructor of a product of each kind (R133). -/
def productInstr (kind : Machine.ProdKind) (a : Site) (p : Pred) (f : MatF) (hw : HwReport) : Instr :=
  match kind with
  | .dense => .mmul a p f hw
  | .sparse => .mmuls a p f hw
  | .multi => .mmulw a p f hw

/-- The site and the condition of a predicated strand instruction (R117, R119). -/
def Instr.condition : Instr → Option (Site × Pred)
  | .pset a p _ _ _ _ _ _ _ _ => some (a, p)
  | .skip a p _ => some (a, p)
  | .sowait a p _ _ _ _ _ => some (a, p)
  | .soinc a p _ _ _ _ => some (a, p)
  | .soset a p _ _ _ _ _ _ _ _ _ => some (a, p)
  | .fence a p _ => some (a, p)
  | .ldt a p _ _ _ _ _ => some (a, p)
  | .stt a p _ _ _ _ _ => some (a, p)
  | .gth a p _ _ _ _ _ _ => some (a, p)
  | .sct a p _ _ _ _ _ _ => some (a, p)
  | .pfh a p _ _ _ _ _ _ _ => some (a, p)
  | .xfer a p _ _ _ _ _ _ => some (a, p)
  | .coll a p _ _ _ _ _ => some (a, p)
  | .mload a p _ _ _ _ _ => some (a, p)
  | .mmul a p _ _ => some (a, p)
  | .mmuls a p _ _ => some (a, p)
  | .mmulw a p _ _ => some (a, p)
  | .mscale a p _ _ _ _ _ _ _ => some (a, p)
  | .vadd a p _ _ => some (a, p)
  | .vmul a p _ _ => some (a, p)
  | .vfma a p _ _ => some (a, p)
  | .vmax a p _ _ => some (a, p)
  | .vred a p _ _ => some (a, p)
  | .vscan a p _ _ => some (a, p)
  | .vexp a p _ _ => some (a, p)
  | .vact a p _ _ => some (a, p)
  | .vder a p _ _ => some (a, p)
  | .vcvt a p _ _ => some (a, p)
  | .ablk a p _ _ _ _ _ _ _ _ _ _ _ _ => some (a, p)
  | .asel a p _ _ _ _ _ _ _ _ _ _ _ _ _ => some (a, p)
  | .kvapp a p _ _ _ _ _ _ _ _ _ _ _ _ => some (a, p)
  | .rtopk a p _ _ _ _ _ _ _ => some (a, p)
  | .disp a p _ _ _ _ _ _ _ => some (a, p)
  | .cmb a p _ _ _ _ _ _ _ => some (a, p)
  | .upd a p _ _ _ _ => some (a, p)
  | .precon a p _ _ _ => some (a, p)
  | .ingest a p _ _ => some (a, p)
  | .ckptFlash a p _ _ _ => some (a, p)
  | .ckptStore a p _ _ _ => some (a, p)
  | .postEvent a p _ _ => some (a, p)
  | _ => none

/-- The strand instruction of a word at site `a`: the operands of its encoding, without what the surroundings of the
device add to it (checks, areas, slack). None for a command that no word encodes. -/
def Instr.bare (a : Site) : Instr → Option Instr
  | .nop _ => some (.nop a)
  | .loop _ lc csrc sreg count body => some (.loop a lc csrc sreg count body)
  | .pset _ p dstp src cmp sel selb imm tsop word => some (.pset a p dstp src cmp sel selb imm tsop word)
  | .skip _ p n => some (.skip a p n)
  | .beat _ _ => some (.beat a 0)
  | .halt _ => some (.halt ⟨a, 0⟩)
  | .sowait _ p index remote tnode dstp thresh => some (.sowait a p index remote tnode dstp thresh)
  | .soinc _ p index remote tnode amount => some (.soinc a p index remote tnode amount)
  | .soset _ p index remote tnode hold hexpl hnode hcore count thresh =>
    some (.soset a p index remote tnode hold hexpl hnode hcore count thresh)
  | .fence _ p scope => some (.fence a p scope)
  | .ldt _ p tsop mop len part _ => some (.ldt a p tsop mop len part Machine.noReport)
  | .stt _ p tsop mop len part _ => some (.stt a p tsop mop len part Machine.noReport)
  | .gth _ p tsop mop len part tsop2 _ => some (.gth a p tsop mop len part tsop2 Machine.noReport)
  | .sct _ p tsop mop len part tsop2 _ => some (.sct a p tsop mop len part tsop2 Machine.noReport)
  | .pfh _ p mop dl part so soen slot fallback => some (.pfh a p mop dl part so soen slot fallback)
  | .xfer _ p tsop mop node len part _ => some (.xfer a p tsop mop node len part Machine.noReport)
  | .coll _ p mop plan step so soen => some (.coll a p mop plan step so soen)
  | .mload _ p tsa tsc fmts sparse _ => some (.mload a p tsa tsc fmts sparse Machine.noReport)
  | .mmul _ p f _ => some (.mmul a p f Machine.noReport)
  | .mmuls _ p f _ => some (.mmuls a p f Machine.noReport)
  | .mmulw _ p f _ => some (.mmulw a p f Machine.noReport)
  | .mscale _ p tsa tsx rows fmtt accum klog _ => some (.mscale a p tsa tsx rows fmtt accum klog Machine.noReport)
  | .vadd _ p f _ => some (.vadd a p f Machine.noReport)
  | .vmul _ p f _ => some (.vmul a p f Machine.noReport)
  | .vfma _ p f _ => some (.vfma a p f Machine.noReport)
  | .vmax _ p f _ => some (.vmax a p f Machine.noReport)
  | .vred _ p f _ => some (.vred a p f Machine.noReport)
  | .vscan _ p f _ => some (.vscan a p f Machine.noReport)
  | .vexp _ p f _ => some (.vexp a p f Machine.noReport)
  | .vact _ p f _ => some (.vact a p f Machine.noReport)
  | .vder _ p f _ => some (.vder a p f Machine.noReport)
  | .vcvt _ p f _ => some (.vcvt a p f Machine.noReport)
  | .ablk _ p tsq tskv tsst fmt bmask first last scale hdim bwd _ _ =>
    some (.ablk a p tsq tskv tsst fmt bmask first last scale hdim bwd Machine.noReport none)
  | .asel _ p tsq tssum tslist qblk qlc qlce topk win first last causal nsum1 _ =>
    some (.asel a p tsq tssum tslist qblk qlc qlce topk win first last causal nsum1 Machine.noReport)
  | .kvapp _ p tsacc tsx slot layer head kv pos plc plce rows1 fmt _ =>
    some (.kvapp a p tsacc tsx slot layer head kv pos plc plce rows1 fmt Machine.noReport)
  | .rtopk _ p tsl tsd e1 k1 ntok norm _ => some (.rtopk a p tsl tsd e1 k1 ntok norm Machine.noReport)
  | .disp _ p tssel mop list cap policy ntok so => some (.disp a p tssel mop list cap policy ntok so)
  | .cmb _ p tsd tssel mop ntok k1 ofmt _ => some (.cmb a p tsd tssel mop ntok k1 ofmt Machine.noReport)
  | .upd _ p mop gate target done => some (.upd a p mop gate target done)
  | .precon _ p mop done kind => some (.precon a p mop done kind)
  | .ingest _ p mop done => some (.ingest a p mop done)
  | .ckptFlash _ p mop done _ => some (.ckptFlash a p mop done [])
  | .ckptStore _ p mop done _ => some (.ckptStore a p mop done [])
  | .postEvent _ p mop x => some (.postEvent a p mop x)
  | _ => none

end Sys2Proof
end

