-- ==== Sys2Proof/Certificates/Slice0/Obligations.lean ====
section
/-!
DEFINITION. Certificates/Slice0/Obligations.lean: the statements for the provers. Each docstring says which rules of
spec/ it formalises; where a clause rests on a choice of the model it names the row of notes/assumptions.
-/

section

open Sys2Proof

open Sys2Proof.Machine

/-- A step runs the command at the front of the queue (00_scope.md). With a command at the front of the queue, step is
exec of that command on the state whose queue is the rest; on an empty queue the block idles. The queue and idling
are the model's choice (log 1). -/
def Obligations.StepTakesFront : Prop :=
  ∀ (s : State), (∀ c rest, s.pending = c :: rest → step s = exec c { s with pending := rest }) ∧
    (s.pending = [] → step s = .next s)

/-- The state right after reset (R47, R67, R70, R446, R463, R526, R543, R556, R564). The queue and memory list nothing,
no context runs, the beat unit is DETACHED with the 8 us period, the sequencer is in STANDBY, the event ring is
empty, and the registers with a stated reset value hold it: the 1,500 W cap, RETX_MAX 7, the stretch limit 4. -/
def Obligations.ResetValues : Prop :=
  State.reset.pending = [] ∧ State.reset.mem = [] ∧ State.reset.so = [] ∧ State.reset.running = none ∧
  State.reset.svc.ring = [] ∧ State.reset.svc.st = .standby ∧ State.reset.bt.st = .detached ∧ State.reset.bt.sel = 2 ∧
  State.reset.svc.mbox.st = .idle ∧
  State.reset.regRead 0x020008 = 1500 ∧ State.reset.get Reg.FAB_CFG_RETX_MAX = 7 ∧
  State.reset.get Reg.BT_STRETCH_CFG_LIMIT = 4

/-- The state after reset is canonical (R15, R391). Every sparse table of the state after reset has rising keys and
lists no default. The canonical form is the model's (log 3). -/
def Obligations.CanonAtReset : Prop := State.reset.canon = true

/-- Every step keeps the canonical form (R15, R391). From a state whose sparse tables (registers, memory, flash, sync
objects, frames, connections, ports, peers, strands, cores, groups, contexts and the tables within them) all have
rising keys and list no default, a step that answers a next state answers one of the same form. The form is the
model's (log 3). -/
def Obligations.CanonKept : Prop := ∀ s t : State, s.canon = true → step s = .next t → t.canon = true

/-- The event ring never holds more than 1,024 records (R543). From a state whose event ring holds at most 1,024
records, every step that answers a next state answers one whose ring holds at most 1,024. -/
def Obligations.RingKept : Prop :=  ∀ s t : State, s.svc.ring.length ≤ 1024 → step s = .next t → t.svc.ring.length ≤ 1024

/-- Predicate p0 reads 1 and discards writes (R73). p0 reads 1, a write to it leaves the strand as it was, a condition
on p0 holds, and an instruction predicated on p0 that can issue executes. -/
def Obligations.PredicateZero : Prop :=
  ∀ (t : Strand) (s : State) (a : Site) (body : State → State), t.pred 0 = true ∧ (∀ v, t.setPred 0 v = t) ∧
    t.cond ⟨0, false⟩ = true ∧ (s.canIssue a = true → s.issue a ⟨0, false⟩ body = body (s.issueFrom a))

/-- A false condition: the strand goes on and nothing else happens (R117, R118). For every predicated strand instruction
the loader accepts: when the strand can issue and the condition is false, the strand goes on at its next
instruction; every other strand is as before, and of the device nothing but which strand its core issues from next.
(How long that takes is not in the model, log 7.) -/
def Obligations.FalsePredicate : Prop :=
  ∀ (i : Instr) (s : State) (a : Site) (p : Pred), s.canon = true → i.condition = some (a, p) → i.wf = true →
    s.canIssue a = true → (s.strand a).cond p = false → ∃ t, exec i s = .next t ∧ t.strand a = s.after a ∧
    s.othersSame t a ∧ s.onlyCores t

/-- NOP, SKIP and LOOP move the program counter (R82, R83, R122, R126, R127). NOP goes on at the next instruction and
SKIP N beyond the next N. LOOP with count 0 skips the body; with another count it sets the counter, enters the body
and remembers its end. At the end of a body the counter is decremented and the body repeated while it exceeds 1,
else the loop is left. No other strand and nothing else of the device changes. The counter's value after the exit is
the model's reading (log 15). -/
def Obligations.NopSkipLoop : Prop :=
  (∀ (s : State) (a : Site), s.canon = true →
    (s.executes a noPred (.nop a) → ∃ t, exec (.nop a) s = .next t ∧
      t.strand a = (s.strand a).goto ((s.strand a).pc.toNat + 1) ∧ s.othersSame t a ∧ s.onlyCores t) ∧
    (∀ p n, s.executes a p (.skip a p n) → ∃ t, exec (.skip a p n) s = .next t ∧
      t.strand a = (s.strand a).goto ((s.strand a).pc.toNat + 1 + n.toNat) ∧ s.othersSame t a ∧ s.onlyCores t) ∧
    (∀ lc csrc sreg count body, s.executes a noPred (.loop a lc csrc sreg count body) →
      ∀ n, n = (if csrc then ((s.strand a).s sreg.toNat).toNat else count.toNat) → n < 2 ^ 32 →
      ∃ t, exec (.loop a lc csrc sreg count body) s = .next t ∧ s.othersSame t a ∧ s.onlyCores t ∧
        (n = 0 → t.strand a =
          ({ s.strand a with lc := Tab.set 0 (s.strand a).lc lc.toNat 0 }).goto ((s.strand a).pc.toNat + 1 + body.toNat)) ∧
        (n ≠ 0 → (t.strand a).lcv lc.toNat = n ∧ (t.strand a).pc = BitVec.ofNat 32 ((s.strand a).pc.toNat + 1) ∧
          (t.strand a).loops = ⟨lc.toNat, (s.strand a).pc.toNat + 1, (s.strand a).pc.toNat + 1 + body.toNat, n⟩ ::
            (s.strand a).loops))) ∧
  (∀ (t : Strand) (f : LoopFrame) (fs : List LoopFrame) (pc : Nat), Tab.wf 0 t.lc = true → t.loops = f :: fs →
    (pc ≠ f.last → t.goto pc = { t with pc := BitVec.ofNat 32 pc }) ∧
    (pc = f.last → 1 < t.lcv f.lc →
      (t.goto pc).pc = BitVec.ofNat 32 f.first ∧ (t.goto pc).lcv f.lc = t.lcv f.lc - 1 ∧ (t.goto pc).loops = t.loops) ∧
    (pc = f.last → t.lcv f.lc ≤ 1 → t.goto pc = ({ t with loops := fs }).goto pc))

/-- PSET writes the value of its comparison (R73, R127, R128). PSET without a conflict and a cause writes its predicate
and goes on; nothing else changes. The value is the comparison of the loop counter, the scalar register or the
tile-store word with the immediate, the combination of two predicates, or whether the prefetch of the named slot has
missed. -/
def Obligations.PredicateWrite : Prop :=
  ∀ (s : State) (a : Site) (p : Pred) (dstp src cmp : BitVec 3) (sel : BitVec 6) (selb : BitVec 3) (imm : BitVec 32)
    (tsop : Tsop) (word : BitVec 7) (i : Instr) (t : Strand), s.canon = true →
    i = .pset a p dstp src cmp sel selb imm tsop word → s.executes a p i → s.clear a i [] → t = s.strand a →
    ∃ (t' : State) (v : Bool), exec i s = .next t' ∧ t'.strand a = (t.setPred dstp.toNat v).goto (t.pc.toNat + 1) ∧
      s.othersSame t' a ∧ s.onlyCores t' ∧
      (src = 0 → (v = true ↔ comparesTo cmp.toNat (BitVec.ofNat 32 (t.lcv sel.toNat)) imm)) ∧
      (src = 1 → (v = true ↔ comparesTo cmp.toNat (t.s sel.toNat) imm)) ∧
      (src = 2 → (v = true ↔ comparesTo cmp.toNat
        (BitVec.ofNat 32 (ofBytes (s.tread a.core.val (Tsop.addr t tsop + 4 * word.toNat) 4))) imm)) ∧
      (src = 3 → (cmp = 0 → v = (t.pred sel.toNat && t.pred selb.toNat)) ∧
        (cmp = 1 → v = (t.pred sel.toNat || t.pred selb.toNat)) ∧
        (cmp = 2 → v = (t.pred sel.toNat != t.pred selb.toNat)) ∧
        (cmp = 3 → v = (t.pred sel.toNat && !t.pred selb.toNat))) ∧
      (src = 4 → v = (s.prefetch a sel.toNat).any (fun q => q.missed))

/-- BEAT and HALT end a segment (R60, R61, R77, R126). HALT ends the strand's programs for the step: one more segment is
done and the strand is idle. A BEAT before the last segment counts its segment and goes on at the next instruction,
at once if the beat of its new segment has begun, else it waits for that beat. The smallest slack of the beat takes
in this segment's, which counts 0 after an overrun; that a HALT's slack counts too is the model's reading (log 36).
Nothing else changes. -/
def Obligations.BeatHalt : Prop :=
  ∀ (s : State) (a : Site) (slack : Nat) (u : Strand), s.canon = true →
    (s.executes a noPred (.halt ⟨a, slack⟩) → ∃ t, exec (.halt ⟨a, slack⟩) s = .next t ∧
      t.strand a = { s.strand a with seg := (s.strand a).seg + 1, overrun := false, overBeats := 0, st := .idle } ∧
      s.othersSame t a ∧
      t.bt.slackMin = slackAfter s.bt.slackMin (if (s.strand a).overrun then 0 else slack) a.core.val ∧
      ({ t with strands := s.strands, cores := s.cores, bt := { t.bt with slackMin := s.bt.slackMin } } : State) = s) ∧
    (s.executes a noPred (.beat a slack) → (s.strand a).seg.toNat + 1 < s.step.beats →
      u = ({ s.strand a with seg := (s.strand a).seg + 1, overrun := false, overBeats := 0 }).goto
        ((s.strand a).pc.toNat + 1) → ∃ t, exec (.beat a slack) s = .next t ∧
      t.strand a = (if u.seg.toNat ≤ s.beat - s.step.firstBeat then u else { u with st := .waitBeat }) ∧
      s.othersSame t a ∧
      t.bt.slackMin = slackAfter s.bt.slackMin (if (s.strand a).overrun then 0 else slack) a.core.val ∧
      ({ t with strands := s.strands, cores := s.cores, bt := { t.bt with slackMin := s.bt.slackMin } } : State) = s)

/-- SOWAIT tests a level; SOSET sets an object (R99, R101, R103, R106, R111, R129). A wait is met when the object's
count reaches the threshold (its own THRESH for 0) or its status is FENCED_RELEASE. A SOWAIT whose node is this one
writes its predicate (0 on FENCED_RELEASE) and goes on when met, else the strand waits with its object, threshold
and predicate. SOSET sets count, threshold and holder (FREE without HOLD; HELD by the named or its own node and core
with it) of its object; no other object and nothing else of the device changes. -/
def Obligations.SyncWaitSet : Prop :=
  (∀ (o : SyncObj) (thresh : Nat), o.met thresh = true ↔
    (o.status = .fencedRelease ∨ (if thresh = 0 then o.thresh.toNat else thresh) ≤ o.count.toNat)) ∧
  (∀ (s : State) (a : Site) (p : Pred) (index : BitVec 13) (remote : Bool) (tnode : NodeOp), s.canon = true →
    s.foreign (s.strand a) remote tnode = false → (remote = true → NodeOp.bad (s.strand a) tnode = false) →
    (∀ dstp thresh, s.executes a p (.sowait a p index remote tnode dstp thresh) → ∃ t,
      exec (.sowait a p index remote tnode dstp thresh) s = .next t ∧ s.othersSame t a ∧ s.onlyCores t ∧
      ((s.obj index.toNat).met thresh.toNat = true → t.strand a =
        ((s.strand a).setPred dstp.toNat ((s.obj index.toNat).status != .fencedRelease)).goto ((s.strand a).pc.toNat + 1)) ∧
      ((s.obj index.toNat).met thresh.toNat = false →
        t.strand a = { s.strand a with st := .waitSo, soWait := some ⟨index.toNat, thresh.toNat, dstp.toNat⟩ })) ∧
    (∀ hold hexpl hnode hcore count thresh, index.toNat < 8128 →
      s.executes a p (.soset a p index remote tnode hold hexpl hnode hcore count thresh) →
      (hold = true → hexpl = true → NodeOp.bad (s.strand a) hnode = false) → ∃ t,
      exec (.soset a p index remote tnode hold hexpl hnode hcore count thresh) s = .next t ∧
      t.strand a = s.after a ∧ s.othersSame t a ∧ ({ t with strands := s.strands, cores := s.cores, so := s.so } : State) = s ∧
      (∀ j, j ≠ index.toNat → t.obj j = s.obj j) ∧
      (t.obj index.toNat).count.toNat = count.toNat ∧ (t.obj index.toNat).thresh = thresh ∧
      (hold = false → (t.obj index.toNat).valid = false ∧ (t.obj index.toNat).status = .free) ∧
      (hold = true → (t.obj index.toNat).valid = true ∧ (t.obj index.toNat).status = .held ∧
        (t.obj index.toNat).node.toNat = (if hexpl then NodeOp.node (s.strand a) hnode else s.node) % 2 ^ 15 ∧
        (t.obj index.toNat).core = (if hexpl then hcore else BitVec.ofNat 7 a.core.val))))

/-- SOINC adds to an object here or sends one frame to another node (R101, R102, R104, R105, R129, R441, R442, R455). A
SOINC of this node adds its amount to one object, saturating at 0xFFFF_FFFF with SO_SATURATE. A SOINC to a node
outside the job stops the strand with cause 0x04; to a fenced node it is discarded and counted; to another node of
the job, when nothing waits and the connection and a port can take it, one SOINC frame with the connection's next
PSN and MSG goes out on that port and is kept until acknowledged. The layout of amount and index in the frame is the
model's (log 8). -/
def Obligations.SyncIncrement : Prop :=
  (∀ (s : State) (a : Site) (p : Pred) (index : BitVec 13) (remote : Bool) (tnode : NodeOp) (amount : BitVec 16),
    s.canon = true → s.executes a p (.soinc a p index remote tnode amount) → index.toNat < 8128 →
    s.foreign (s.strand a) remote tnode = false → (remote = true → NodeOp.bad (s.strand a) tnode = false) → ∃ t,
    exec (.soinc a p index remote tnode amount) s = .next t ∧ t.strand a = s.after a ∧ s.othersSame t a ∧
    (∀ j, j ≠ index.toNat → t.obj j = s.obj j) ∧
    t.obj index.toNat =
      { s.obj index.toNat with count := BitVec.ofNat 32 (min ((s.obj index.toNat).count.toNat + amount.toNat) 0xFFFFFFFF) } ∧
    ((s.obj index.toNat).count.toNat + amount.toNat < 2 ^ 32 →
      ({ t with strands := s.strands, cores := s.cores, so := s.so } : State) = s) ∧
    (2 ^ 32 ≤ (s.obj index.toNat).count.toNat + amount.toNat → s.raised t 0x0231 index.toNat 0xFF ∧
      ({ t with strands := s.strands, cores := s.cores, so := s.so, regs := s.regs, svc := s.svc } : State) = s)) ∧
  (∀ (s : State) (a : Site) (p : Pred) (index : BitVec 13) (n : BitVec 15) (amount : BitVec 16) (f : Frame),
    s.canon = true → s.executes a p (.soinc a p index true (.id n) amount) → index.toNat < 8128 → n.toNat ≠ s.node →
    f = dataFrame 0x02 n.toNat (index.toNat + amount.toNat * 2 ^ 16) 0 true [] →
    (s.inJob n.toNat = false → ∃ t, exec (.soinc a p index true (.id n) amount) s = .next t ∧ (t.strand a).st = .stopped ∧
      t.sent = s.sent ∧ t.so = s.so ∧
      s.raised t 0x0230 (4 + a.strand.val * 2 ^ 8 + (s.strand a).pc.toNat % 2 ^ 22 * 2 ^ 10) a.core.val) ∧
    (s.isFenced n.toNat = true → ∃ t, exec (.soinc a p index true (.id n) amount) s = .next t ∧ t.strand a = s.after a ∧
      s.othersSame t a ∧ t.sent = s.sent ∧ t.waitSends = s.waitSends ∧ t.so = s.so ∧ t.mem = s.mem ∧
      t.get Reg.FAB_DISCARD_COUNT = (s.get Reg.FAB_DISCARD_COUNT + 1) % 2 ^ 64) ∧
    (s.inJob n.toNat = true → s.isFenced n.toNat = false → s.waitSends = [] → ∀ c i port, s.running = some c →
      s.canSend c n.toNat f = some i → s.portFor f = some port → ∃ (t : State) (g : Frame),
      exec (.soinc a p index true (.id n) amount) s = .next t ∧ t.strand a = s.after a ∧ s.othersSame t a ∧
      t.so = s.so ∧ t.mem = s.mem ∧ t.waitSends = [] ∧ t.sent = g :: s.sent ∧ g.ty = 0x02 ∧ g.dnode = n.toNat ∧
      g.port = port ∧ g.snode = s.node ∧ g.enc = true ∧ g.psn = (s.conn i).txPsn ∧ g.msg = (s.conn i).txMsg ∧
      g.last = true ∧ g.addr = f.addr ∧ g.payload = [] ∧
      (t.conn i).unacked = (s.conn i).unacked ++ [⟨g, .strand a, 0, false⟩] ∧
      (t.conn i).txPsn = ((s.conn i).txPsn + 1) % 2 ^ 32))

/-- Sync objects 8,128 to 8,191 are reserved (R100). SOINC and SOSET on a reserved index change no object, stop the
strand and raise STRAND_ERROR with cause SO_RESERVED, strand and instruction index; SOWAIT on one of this node
raises nothing and goes on or waits. -/
def Obligations.ReservedObjects : Prop :=
  ∀ (s : State) (a : Site) (p : Pred) (index : BitVec 13) (remote : Bool) (tnode : NodeOp), s.canon = true →
    8128 ≤ index.toNat →
    (∀ amount, s.executes a p (.soinc a p index remote tnode amount) → ∃ t,
      exec (.soinc a p index remote tnode amount) s = .next t ∧ (t.strand a).st = .stopped ∧ t.so = s.so ∧
      s.raised t 0x0230 (3 + a.strand.val * 2 ^ 8 + (s.strand a).pc.toNat % 2 ^ 22 * 2 ^ 10) a.core.val) ∧
    (∀ hold hexpl hnode hcore count thresh,
      s.executes a p (.soset a p index remote tnode hold hexpl hnode hcore count thresh) → ∃ t,
      exec (.soset a p index remote tnode hold hexpl hnode hcore count thresh) s = .next t ∧
      (t.strand a).st = .stopped ∧ t.so = s.so ∧
      s.raised t 0x0230 (3 + a.strand.val * 2 ^ 8 + (s.strand a).pc.toNat % 2 ^ 22 * 2 ^ 10) a.core.val) ∧
    (∀ dstp thresh, s.executes a p (.sowait a p index remote tnode dstp thresh) → remote = false → ∃ t,
      exec (.sowait a p index remote tnode dstp thresh) s = .next t ∧ t.svc = s.svc ∧
      ((t.strand a).st = .run ∨ (t.strand a).st = .waitSo))

/-- FENCE, and the events that end a wait of a strand (R101, R103, R109, R110, R111, R405, R406). FENCE at CORE and
DEVICE scope goes on at once (log 38); at GLOBAL scope it goes on when none of the strand's sends is outstanding,
else it waits. A fence that is done lets the strand go on at its next instruction; so does a wait that is met, with
its predicate written. A gather or scatter whose missing lines have all come is performed and the strand goes on; no
other strand and no object changes. -/
def Obligations.StrandResumes : Prop :=
  ∀ (s : State) (a : Site), s.canon = true →
    (∀ p scope, s.executes a p (.fence a p scope) → ∃ t, exec (.fence a p scope) s = .next t ∧ s.othersSame t a ∧
      s.onlyCores t ∧
      (scope ≠ .global ∨ s.outstanding (.strand a) = false → t.strand a = s.after a) ∧
      (scope = .global → s.outstanding (.strand a) = true →
        t.strand a = { s.strand a with st := .waitFence, fence := some .global })) ∧
    (∀ scope, (s.strand a).st = .waitFence → (s.strand a).fence = some scope → s.fenceDone a scope = true → ∃ t,
      exec (.fenceComplete a) s = .next t ∧
      t.strand a = ({ s.strand a with st := .run, fence := none }).goto ((s.strand a).pc.toNat + 1) ∧
      s.othersSame t a ∧ s.onlyCores t) ∧
    (∀ w, (s.strand a).st = .waitSo → (s.strand a).soWait = some w → (s.obj w.index).met w.thresh = true → ∃ t,
      exec (.sowaitResume a) s = .next t ∧
      t.strand a = (({ s.strand a with st := .run, soWait := none }).setPred w.dstp
        ((s.obj w.index).status != SoStatus.fencedRelease)).goto ((s.strand a).pc.toNat + 1) ∧
      s.othersSame t a ∧ s.onlyCores t) ∧
    (∀ h, (s.strand a).st = .parkNarrow → (s.strand a).held = some h → h.tags = [] →
      (∃ p op m len part op2 hw, h.instr = .gth a p op m len part op2 hw ∨ h.instr = .sct a p op m len part op2 hw) → ∃ t,
      exec (.narrowMissReturn a) s = .next t ∧ (t.strand a).st = .run ∧ (t.strand a).held = none ∧
      (t.strand a).pc = (s.after a).pc ∧ (∀ b, b ≠ a → t.strand b = s.strand b) ∧ t.so = s.so)

/-- A strand error stops the strands, is recorded and fences the device (R61, R82, R112, R113, R114, R145, R480). A
strand error stops its strand and every other enabled strand that has not halted, leaves the rest as they are,
raises STRAND_ERROR with cause, strand and instruction index, fills the program-error registers and, where no
self-fence is pending or done, asks for the device's fence with cause 5; memory, cores, objects, connections and the
step's state are unchanged. BEAT past the last segment (0x01), LOOP with a register count of 2^32 or more (0x02),
and an LDT to which a cause of its operands applies (the first of R112's order) end so. -/
def Obligations.StrandErrors : Prop :=
  ∀ (s : State) (a : Site), s.canon = true →
    (∀ cause idx, ∃ t, t = s.strandErrorAt a cause idx ∧ (t.strand a).st = .stopped ∧
      (∀ b, b ≠ a → (s.strand b).enabled = true → (s.strand b).st ≠ .idle → (t.strand b).st = .stopped) ∧
      (∀ b, b ≠ a → (s.strand b).enabled = false ∨ (s.strand b).st = .idle → t.strand b = s.strand b) ∧
      s.raised t 0x0230 (cause + a.strand.val * 2 ^ 8 + idx % 2 ^ 22 * 2 ^ 10) a.core.val ∧
      t.svc.progErr = some ⟨BitVec.ofNat 32 (cause + a.strand.val * 2 ^ 8 + idx % 2 ^ 22 * 2 ^ 10), BitVec.ofNat 8 a.core.val,
        s.bt.count⟩ ∧
      (s.flt.selfCause = none → s.flt.fencedSelf = false → t.flt.selfCause = some 5) ∧
      t.mem = s.mem ∧ t.cores = s.cores ∧ t.so = s.so ∧ t.conns = s.conns ∧ t.step = s.step) ∧
    (∀ slack, s.executes a noPred (.beat a slack) → s.step.beats ≤ (s.strand a).seg.toNat + 1 → ∃ t,
      exec (.beat a slack) s = .next t ∧ t = (s.issueFrom a).strandError a 0x01) ∧
    (∀ lc sreg count body, s.executes a noPred (.loop a lc true sreg count body) →
      2 ^ 32 ≤ ((s.strand a).s sreg.toNat).toNat → ∃ t, exec (.loop a lc true sreg count body) s = .next t ∧
      t = (s.issueFrom a).strandError a 0x02) ∧
    (∀ p tsop mop len part hw c k, s.running = some c → s.executes a p (.ldt a p tsop mop len part hw) →
      s.conflict a (Instr.ldt a p tsop mop len part hw).regions = false →
      firstCause (regionCauses (s.strand a) (Instr.ldt a p tsop mop len part hw).regions ++
        s.readCauses a c (.ldt a p tsop mop len part hw) mop 512) = some k → ∃ t,
      exec (.ldt a p tsop mop len part hw) s = .next t ∧ t = (s.issueFrom a).strandError a k)

/-- LDT and GTH copy memory into a tile store (R121, R123, R130, R131, R132, R276, R405, R406, R413, R432). LDT copies
512 bytes a unit from consecutive addresses, GTH 32-byte granules from the addresses its index list gives, of memory
that no prefetch has a claim on. Every other tile byte, every other strand and memory are as before. The group's
read port counts the bytes and its class the requests (wide for LDT, narrow for GTH: log 65), a GTH's granules also
at their hubs; no other register changes. -/
def Obligations.LoadTile : Prop :=
  (∀ (s : State) (a : Site) (p : Pred) (tsop : Tsop) (mop : Mop) (len : BitVec 13) (part : BitVec 3) (hw : HwReport) (c : Nat),
    s.canon = true → s.running = some c → s.executes a p (.ldt a p tsop mop len part hw) → hw.ecc = [] →
    s.clear a (.ldt a p tsop mop len part hw) (s.readCauses a c (.ldt a p tsop mop len part hw) mop 512) →
    s.plainBytes (Mop.addr (s.strand a) mop) (512 * len.toNat) → ∃ t,
    exec (.ldt a p tsop mop len part hw) s = .next t ∧ t.strand a = s.after a ∧
    s.tileGets t a.core.val (Tsop.addr (s.strand a) tsop) (512 * len.toNat)
      (fun k => s.vbyte c (Mop.addr (s.strand a) mop + k)) ∧
    t.mem = s.mem ∧ (∀ b, b ≠ a → t.strand b = s.strand b) ∧
    s.portCounts t (groupOf a.core.val) 1 false (512 * len.toNat) len.toNat ∧
    s.portFrame t (groupOf a.core.val) 1 false (fun _ => False) ∧
    ({ t with strands := s.strands, cores := s.cores, regs := s.regs, sec := s.sec } : State) = s) ∧
  (∀ (s : State) (a : Site) (p : Pred) (tsop tsop2 : Tsop) (mop : Mop) (len : BitVec 13) (part : BitVec 3) (hw : HwReport)
    (c : Nat), s.canon = true → s.running = some c → s.executes a p (.gth a p tsop mop len part tsop2 hw) →
    hw.ecc = [] → hw.miss = false →
    s.clear a (.gth a p tsop mop len part tsop2 hw) (s.readCauses a c (.gth a p tsop mop len part tsop2 hw) mop 32) →
    ∀ gs, gs = s.granules a.core.val (Mop.addr (s.strand a) mop) (Tsop.addr (s.strand a) tsop2) len.toNat →
    (∀ g ∈ gs, s.plainBytes g 32) → ∃ t,
    exec (.gth a p tsop mop len part tsop2 hw) s = .next t ∧ t.strand a = s.after a ∧
    s.tileGets t a.core.val (Tsop.addr (s.strand a) tsop) (32 * len.toNat)
      (fun k => s.vbyte c (gs.getD (k / 32) 0 + k % 32)) ∧
    t.mem = s.mem ∧ (∀ b, b ≠ a → t.strand b = s.strand b) ∧
    s.portCounts t (groupOf a.core.val) 0 false (32 * len.toNat) len.toNat ∧ s.narrowCounts t c gs ∧
    s.portFrame t (groupOf a.core.val) 0 false narrowCounter ∧
    ({ t with strands := s.strands, cores := s.cores, regs := s.regs, sec := s.sec } : State) = s)

/-- STT and SCT copy a tile store into memory (R121, R123, R130, R131, R132, R393, R405, R406, R419, R432). STT writes
512 bytes a unit to consecutive addresses; SCT writes 32-byte granules to the addresses its index list gives,
ascending, the last write prevailing. Every other byte of memory, every tile store and every other strand is as
before. The group's write port counts the bytes and its class the requests (log 65), an SCT's granules also at their
hubs; of other registers only the counters of STALE granules may change (R419). -/
def Obligations.StoreTile : Prop :=
  (∀ (s : State) (a : Site) (p : Pred) (tsop : Tsop) (mop : Mop) (len : BitVec 13) (part : BitVec 3) (hw : HwReport) (c : Nat),
    s.canon = true → s.running = some c → s.executes a p (.stt a p tsop mop len part hw) → hw.ecc = [] →
    ∀ va n, va = Mop.addr (s.strand a) mop → n = 512 * len.toNat → va % 512 = 0 →
    s.clear a (.stt a p tsop mop len part hw) (s.writeCauses c (Mop.bad (s.strand a) mop) [(va, n)]) →
    s.moveHolds c va n = false → ∃ t,
    exec (.stt a p tsop mop len part hw) s = .next t ∧ t.strand a = s.after a ∧
    s.memGets t c n (fun k => va + k) (fun k => Tab.get 0 (s.core a.core.val).tile (Tsop.addr (s.strand a) tsop + k)) ∧
    s.othersSame t a ∧ s.portCounts t (groupOf a.core.val) 1 true n len.toNat ∧
    s.portFrame t (groupOf a.core.val) 1 true staleCounter ∧
    ({ t with strands := s.strands, cores := s.cores, mem := s.mem, regs := s.regs, sec := s.sec, prefetches := s.prefetches } : State) = s) ∧
  (∀ (s : State) (a : Site) (p : Pred) (tsop tsop2 : Tsop) (mop : Mop) (len : BitVec 13) (part : BitVec 3) (hw : HwReport)
    (c : Nat), s.canon = true → s.running = some c → s.executes a p (.sct a p tsop mop len part tsop2 hw) →
    hw.ecc = [] → hw.miss = false → Mop.addr (s.strand a) mop % 32 = 0 →
    ∀ gs, gs = s.granules a.core.val (Mop.addr (s.strand a) mop) (Tsop.addr (s.strand a) tsop2) len.toNat →
    s.clear a (.sct a p tsop mop len part tsop2 hw)
      (s.writeCauses c (Mop.bad (s.strand a) mop) (gs.map (fun g => (g, 32)))) →
    (∀ g ∈ gs, s.moveHolds c g 32 = false) → ∃ t,
    exec (.sct a p tsop mop len part tsop2 hw) s = .next t ∧ t.strand a = s.after a ∧
    s.memGets t c (32 * len.toNat) (fun k => gs.getD (k / 32) 0 + k % 32)
      (fun k => Tab.get 0 (s.core a.core.val).tile (Tsop.addr (s.strand a) tsop + k)) ∧
    s.othersSame t a ∧
    s.portCounts t (groupOf a.core.val) 0 true (32 * len.toNat) len.toNat ∧ s.narrowCounts t c gs ∧
    s.portFrame t (groupOf a.core.val) 0 true (fun off => staleCounter off ∨ narrowCounter off) ∧
    ({ t with strands := s.strands, cores := s.cores, mem := s.mem, regs := s.regs, sec := s.sec, prefetches := s.prefetches } : State) = s)

/-- XFER sends tile bytes to another node (R130, R131, R132, R392, R438, R441, R445). XFER to another member of the job
leaves memory, tile stores and the other strands as they were, counts its bytes and requests at the group's write
port and goes on. When nothing waits, it fits eight units and the connection and a port can take it, one DATA frame
with the bytes, the address, the node and the connection's next PSN and MSG goes out on that port and is kept until
acknowledged. -/
def Obligations.RemoteTransfer : Prop :=
  ∀ (s : State) (a : Site) (p : Pred) (tsop : Tsop) (mop : Mop) (node : NodeOp) (len : BitVec 13) (part : BitVec 3)
    (hw : HwReport) (c : Nat),
    s.canon = true → s.running = some c → s.executes a p (.xfer a p tsop mop node len part hw) → hw.ecc = [] →
    NodeOp.bad (s.strand a) node = false →
    ∀ va n d f, va = Mop.addr (s.strand a) mop → n = 512 * len.toNat → d = NodeOp.node (s.strand a) node →
    f = dataFrame 0x01 d va (n + part.toNat * 2 ^ 32) true (s.tread a.core.val (Tsop.addr (s.strand a) tsop) n) →
    d ≠ s.node → s.inJob d = true → va % 512 = 0 → Mop.bad (s.strand a) mop = false → isView va = false →
    s.clear a (.xfer a p tsop mop node len part hw) [] → ∃ t,
    exec (.xfer a p tsop mop node len part hw) s = .next t ∧ t.strand a = s.after a ∧ t.mem = s.mem ∧
    s.othersSame t a ∧ s.portCounts t (groupOf a.core.val) 1 true n len.toNat ∧
    (∀ i port, s.isFenced d = false → s.waitSends = [] → len.toNat ≤ 8 → s.canSend c d f = some i →
      s.portFor f = some port → ∃ g : Frame, t.sent = g :: s.sent ∧ g.ty = 0x01 ∧ g.dnode = d ∧ g.port = port ∧
      g.snode = s.node ∧ g.enc = true ∧ g.addr = BitVec.ofNat 64 va ∧ g.last = true ∧ g.psn = (s.conn i).txPsn ∧
      g.msg = (s.conn i).txMsg ∧ g.payload = f.payload ∧ t.waitSends = [] ∧
      (t.conn i).unacked = (s.conn i).unacked ++ [⟨g, .strand a, 0, false⟩])

/-- PFH starts a prefetch; it completes, is dropped or misses its deadline (R107, R131, R409, R410, R411, R412, R413,
R414, R417, R418). PFH with a good descriptor and room for its watch installs an active prefetch in its slot, with
the descriptor's source, destination, length and watch and the deadline counted from this beat, and goes on; nothing
else changes. One that has fetched all its bytes in its turn completes: its undelivered bytes are copied, its object
is incremented, MT_PF_DONE counts. One that reaches an unmapped or failing byte stops and MT_PF_DROP counts; had it
been waiting past its deadline it becomes DIRECT and its object is incremented. At the guard before its deadline's
beat (not the one before a step entry) an active one is missed: RECOMPUTE, DIRECT (also for a stopped WAIT) or WAIT
by its fallback, the object incremented unless it waits, DEADLINE contributed, MT_PF_MISS counted. Strands and the
states of other slots are as before. -/
def Obligations.Prefetching : Prop :=
  (∀ (s : State) (a : Site) (p : Pred) (mop : Mop) (dl : BitVec 16) (part : BitVec 3) (so : BitVec 13) (soen : Bool)
    (slot : BitVec 6) (fallback : BitVec 2) (c : Nat),
    s.canon = true → s.running = some c → s.executes a p (.pfh a p mop dl part so soen slot fallback) →
    (∀ q, s.prefetch a slot.toNat = some q → q.st ≠ .active) →
    ∀ va d, va = Mop.addr (s.strand a) mop → d = pfDesc (s.vread c va 64) → Mop.bad (s.strand a) mop = false →
    s.accessOk c va 64 false = true → d.ok = true → s.watchFits c a slot.toNat d = true → ∃ (t : State) (q : Prefetch),
    exec (.pfh a p mop dl part so soen slot fallback) s = .next t ∧ t.strand a = s.after a ∧ t.mem = s.mem ∧
    s.othersSame t a ∧ t.prefetch a slot.toNat = some q ∧ q.src = d.src ∧ q.dst = d.dst ∧ q.len = d.len ∧
    q.deadline = s.beat + dl.toNat ∧ q.st = .active ∧ q.missed = false ∧ q.fallback = fallback.toNat ∧
    q.so = (if soen then some so.toNat else none) ∧
    q.watch = d.watch ∧ (∀ b k, (b, k) ≠ (a, slot.toNat) → t.prefetch b k = s.prefetch b k) ∧
    ({ t with strands := s.strands, cores := s.cores, sec := s.sec, prefetches := s.prefetches } : State) = s) ∧
  (∀ (s : State) (a : Site) (slot : BitVec 6) (c : Nat) (p : Prefetch), s.canon = true → s.running = some c →
    s.prefetch a slot.toNat = some p →
    (p.st = .active → p.stopped = false → s.pfReach c p p.delivered p.len = p.len → p.delivered ≤ p.len →
      s.pfServed c p = true → ∃ (t : State) (q : Prefetch), exec (.prefetchComplete a slot 0) s = .next t ∧
      t.prefetch a slot.toNat = some q ∧ q.st = .done ∧ q.delivered = p.len ∧
      s.memGets t c (p.len - p.delivered) (fun k => p.dst + p.delivered + k) (fun k => s.vbyte c (p.src + p.delivered + k)) ∧
      (∀ i, p.so = some i → s.signals t i) ∧ (p.so = none → t.so = s.so) ∧ t.strands = s.strands ∧ t.cores = s.cores ∧
      (∀ b k, (b, k) ≠ (a, slot.toNat) → (t.prefetch b k).map (·.st) = (s.prefetch b k).map (·.st)) ∧
      t.get Reg.MT_PF_DONE_COUNT (s.pfHub c p) = (s.get Reg.MT_PF_DONE_COUNT (s.pfHub c p) + 1) % 2 ^ 64) ∧
    (p.st = .active ∨ p.st = .waiting → p.stopped = false → ∀ x, x = s.pfReach c p p.delivered p.len → x < p.len →
      ∃ (t : State) (q : Prefetch), exec (.prefetchDrop a slot) s = .next t ∧ t.prefetch a slot.toNat = some q ∧
      q.stopped = true ∧ t.strands = s.strands ∧
      (p.st = .active → q.st = .active ∧ t.so = s.so) ∧
      (p.st = .waiting → q.st = .direct ∧ (∀ i, p.so = some i → s.signals t i) ∧ (p.so = none → t.so = s.so)) ∧
      (∀ b k, (b, k) ≠ (a, slot.toNat) → (t.prefetch b k).map (·.st) = (s.prefetch b k).map (·.st)) ∧
      t.get Reg.MT_PF_DROP_COUNT (s.pfHub c p) = (s.get Reg.MT_PF_DROP_COUNT (s.pfHub c p) + 1) % 2 ^ 64) ∧
    (∀ delivered, p.st = .active → s.bt.inGuard = true → s.entryNext = false → p.deadline ≤ s.beat + 1 →
      ∃ (t : State) (q : Prefetch), exec (.prefetchDeadline a slot delivered) s = .next t ∧
      t.prefetch a slot.toNat = some q ∧ q.missed = true ∧
      q.st = (if p.fallback = 0 then .recompute else if p.fallback = 1 ∨ p.stopped = true then .direct else .waiting) ∧
      (∀ i, p.so = some i → q.st ≠ .waiting → s.signals t i) ∧ (p.so = none ∨ q.st = .waiting → t.so = s.so) ∧
      t.step.contrib.getLsbD 6 = true ∧ t.strands = s.strands ∧
      (∀ b k, (b, k) ≠ (a, slot.toNat) → (t.prefetch b k).map (·.st) = (s.prefetch b k).map (·.st)) ∧
      t.get Reg.MT_PF_MISS_COUNT (s.pfHub c p) = (s.get Reg.MT_PF_MISS_COUNT (s.pfHub c p) + 1) % 2 ^ 64))

/-- COLL starts a plan step; a ready one completes; a starved gather fences (R107, R131, R365, R366, R369, R450, R451,
R452, R570). COLL of the plan's next step with mapped buffers goes on: for an all-reduce, all-gather or circulation
its call is added to the step's operation and the plan awaits the step after (or the last of several positions); for
a pool gather it joins the gather that fills the entry, completes at once on an entry held full (REUSE counted, the
object incremented, the entry's beat of use written), or begins a gather, which waits on the list while the pool has
no room. A step whose contributions are all here completes: each of its calls increments its object, and a pool
gather is counted. A gather that found no room for two beats ends: it raises GP_NOSPACE, sets NOSPACE, increments
its objects, stops every enabled strand that has not halted and, where no self-fence is pending or done, asks for
the device's fence with cause 5. -/
def Obligations.Collectives : Prop :=
  (∀ (s : State) (a : Site) (p : Pred) (mop : Mop) (plan : BitVec 16) (step so : BitVec 13) (soen : Bool) (c : Nat)
    (r : PlanRec) (i : Instr) (q : CollCall), s.canon = true → s.running = some c →
    i = .coll a p mop plan step so soen → s.executes a p i → Mop.bad (s.strand a) mop = false →
    s.plan plan.toNat = some r → s.collBad plan.toNat step.toNat = false →
    (s.collRanges r step.toNat (Mop.addr (s.strand a) mop)).all
      (fun x => decide (x.1 + x.2 ≤ 2 ^ 48) && s.mapped c x.1 x.2) = true →
    q = ⟨(s.nextPosition r plan.toNat step.toNat).getD 0, a, (s.strand a).pc.toNat, Mop.addr (s.strand a) mop,
      if soen then some so.toNat else none⟩ →
    (r.kind = 1 ∨ r.kind = 2 ∨ r.kind = 4 →
      (r.verdict = true → step = 0 → s.step.cut = none → ∀ g, (s.group g).jobs = []) → ∃ (t : State) (o : CollOp),
      exec i s = .next t ∧ t.strand a = s.after a ∧ (∀ b, b ≠ a → t.strand b = s.strand b) ∧
      t.coll plan.toNat step.toNat = some o ∧
      o.calls = ((s.coll plan.toNat step.toNat).map (·.calls)).getD [] ++ [q] ∧
      Tab.get 0 t.collNext plan.toNat =
        (if r.kind ≠ 2 ∨ some q.pos = (s.myPositions r).getLast? then step.toNat + 1 else step.toNat) ∧
      (∀ n, n ≠ plan.toNat → Tab.get 0 t.collNext n = Tab.get 0 s.collNext n)) ∧
    (∀ pool, r.kind = 3 → imgPool s.img = some pool →
      (∀ o, s.filling r.entry = some o → ∃ t, exec i s = .next t ∧ t.strand a = s.after a ∧
        t.colls.find? (fun x => x.id == o.id) = some { o with calls := o.calls ++ [q] } ∧ s.othersSame t a ∧
        ({ t with strands := s.strands, cores := s.cores, colls := s.colls } : State) = s) ∧
      (s.filling r.entry = none → s.poolState pool r.entry = 2 → ∃ t, exec i s = .next t ∧ t.strand a = s.after a ∧
        s.othersSame t a ∧ t.colls = s.colls ∧ t.gathers = s.gathers ∧ t.sent = s.sent ∧
        t.get Reg.UE_GP_REUSE_COUNT = (s.get Reg.UE_GP_REUSE_COUNT + 1) % 2 ^ 64 ∧
        (soen = true → s.signals t so.toNat) ∧ (soen = false → t.so = s.so) ∧
        (pool.etab % 32 = 0 → (∀ k, k < 32 → (s.translate c (pool.etab + 32 * r.entry + k)).isSome = true) →
          t.poolWord c pool r.entry 1 = s.beat % 2 ^ 48)) ∧
      (s.filling r.entry = none → s.poolState pool r.entry ≠ 2 → ∃ (t : State) (o : CollOp), exec i s = .next t ∧
        t.strand a = s.after a ∧ (∀ b, b ≠ a → t.strand b = s.strand b) ∧ t.coll plan.toNat 0 = some o ∧ o.calls = [q] ∧
        (o.waiting = true → ⟨o.id, r.entry, s.beat⟩ ∈ t.gathers) ∧
        (o.waiting = false → ∀ g ∈ t.gathers, g.op ≠ o.id)))) ∧
  (∀ (s : State) (op c : Nat), s.canon = true →
    (∀ u o r, u = s.circDrainAll → u.running = some c → u.colls.find? (fun o => o.id == op) = some o →
      u.plan o.plan = some r → u.collReady r o = true → ∃ t,
      exec (.collStepComplete op) s = .next t ∧ t.colls.find? (fun o => o.id == op) = some { o with complete := true } ∧
      u.callsSignal t o.calls ∧ t.strands = u.strands ∧
      (r.kind = 3 → (imgPool u.img).isSome = true →
        t.get Reg.UE_GP_GATHERS_COUNT = (u.get Reg.UE_GP_GATHERS_COUNT + 1) % 2 ^ 64)) ∧
    (∀ g o p, s.running = some c → s.gathers.find? (fun g => g.op == op) = some g → imgPool s.img = some p →
      s.colls.find? (fun o => o.id == op) = some o → g.since + 2 ≤ s.beat → ∃ t, exec (.gatherTimeout op) s = .next t ∧
      (∀ x ∈ t.gathers, x.op ≠ op) ∧ t.colls.find? (fun o => o.id == op) = some { o with complete := true } ∧
      s.callsSignal t o.calls ∧ t.get Reg.UE_STEP_STATUS_NOSPACE = 1 ∧
      t.newest = some (s.eventRec 0x060D g.entry 0xFF) ∧
      (∀ b, (s.strand b).enabled = true → (s.strand b).st ≠ .idle → (t.strand b).st = .stopped) ∧
      (s.flt.selfCause = none → s.flt.fencedSelf = false → t.flt.selfCause = some 5)))

/-- MLOAD loads the stationary tile (R133, R135, R146, R149, R151, R158, R159, R175). MLOAD without a conflict, a cause
and bad metadata, with room in the array, makes the tile's bytes, metadata and scales its core's stationary tile,
owned by the strand, and counts 128 cycles of loading at the array that serves the core; every tile byte, other
strand, other core, memory and every other register are as before. -/
def Obligations.StationaryLoad : Prop :=
  ∀ (s : State) (a : Site) (p : Pred) (tsa tsc : Tsop) (fmts : BitVec 4) (sparse : BitVec 2) (hw : HwReport),
    s.canon = true → s.executes a p (.mload a p tsa tsc fmts sparse hw) → hw.ecc = [] →
    s.clear a (.mload a p tsa tsc fmts sparse hw) [] →
    ∀ core array ua um md, core = a.core.val → array = s.arrayOf core → s.arrayQueue array < 2 →
    ua = Tsop.unit (s.strand a) tsa → um = Tsop.unit (s.strand a) tsc →
    md = (if sparse.toNat = 0 then 0 else if sparse.toNat = 1 then 2048 else 1024) →
    metaBad sparse.toNat (s.tread core (um * 512) md) = false → ∃ (t : State) (k : StatTile),
    exec (.mload a p tsa tsc fmts sparse hw) s = .next t ∧ t.strand a = s.after a ∧ (t.core core).stat = some k ∧
    k.owner = a.strand.val ∧ k.fmt = fmts.toNat ∧ k.sparse = sparse.toNat ∧ k.written = false ∧
    k.bytes = s.tread core (ua * 512) (statRows sparse.toNat * rowSize fmts.toNat) ∧
    k.metaData = s.tread core (um * 512) md ∧ k.scales = s.scales core fmts.toNat ua (statRows sparse.toNat) ∧
    { (t.core core).still (s.core core) with stat := (s.core core).stat } = s.core core ∧
    (∀ c, c ≠ core → t.core c = s.core c) ∧ (∀ b, b ≠ a → t.strand b = s.strand b) ∧
    t.get Reg.CORE_ARR_LOAD_COUNT array = (s.get Reg.CORE_ARR_LOAD_COUNT array + 128) % 2 ^ 64 ∧
    (∀ off, off ≠ Reg.CORE_ARR_LOAD_COUNT.off array 0 → t.word off = s.word off) ∧ s.onlyRegs t

/-- MMUL, MMULS and MMULW start a product (R133, R134, R135, R143, R147, R154). A product that meets no conflict and no
cause, with a stationary tile and room in the array that serves its core, is queued last with its kind, strand,
instruction, rows, format, accumulation, pass, width, zero-tile and record operands, the stationary tile as it is
now, the anchor (the scalar register's for ANCH 1 without ACCUM, else the record's) and the streamed bytes read now;
nothing else changes and the strand goes on. -/
def Obligations.ProductIssue : Prop :=
  ∀ (kind : ProdKind) (s : State) (a : Site) (p : Pred) (f : MatF) (hw : HwReport) (tile : StatTile) (core : Nat),
    s.canon = true → s.executes a p (productInstr kind a p f hw) → hw.ecc = [] → core = a.core.val →
    s.clear a (productInstr kind a p f hw) (s.productCauses a kind f (s.strand a)) →
    (s.core core).stat = some tile → s.arrayQueue (s.arrayOf core) < 2 → ∃ (t : State) (q : Product),
    exec (productInstr kind a p f hw) s = .next t ∧ t.strand a = s.after a ∧
    (t.core core).prods = (s.core core).prods ++ [q] ∧ q.array = s.arrayOf core ∧
    q.kind = kind ∧ q.strand = a.strand.val ∧ q.idx = (s.strand a).pc.toNat ∧ q.rows = f.rows.toNat ∧
    q.fmtt = f.fmtt.toNat ∧ q.accum = f.accum ∧ q.pass = f.pass.toNat ∧ q.mw = f.mw.toNat ∧ q.zt = f.zt ∧ q.tile = tile ∧
    q.tsc = Tsop.unit (s.strand a) f.tsc ∧ q.tsx = Tsop.unit (s.strand a) f.tsx ∧
    q.anchor = (if f.accum = false ∧ f.anch = 1 then sint10 ((s.strand a).s f.sreg.toNat).toNat
      else sint10 (s.recWord core q.tsx 0)) ∧
    q.stream = s.tread core (q.tsa * 512) (f.rows.toNat * rowSize f.fmtt.toNat) ∧
    (kind ≠ .multi → q.tsa = Tsop.unit (s.strand a) f.tsa) ∧
    { (t.core core).still (s.core core) with prods := (s.core core).prods } = s.core core ∧
    (∀ c, c ≠ core → t.core c = s.core c) ∧ (∀ b, b ≠ a → t.strand b = s.strand b) ∧ s.onlyCores t

/-- The oldest product of a core completes, or its check fails (R133, R134, R147, R181, R182, R183, R191, R192, R197,
R468). Without a fault the oldest product's accumulators are written, summed under the anchor with up to three
raises, and its record ends with the raised or given hint, the replays added and NONFIN and SAT set where they
occurred; every other tile byte, every other core, memory and the strands are as before, and the products behind it
move up. That is stated where record and accumulators do not overlap. With a fault that its check reports: a product
that can be relieved goes to the partner of its array, its strand stands still and CHKFAIL is counted; one that
cannot contributes REPLAY and is counted in FLT_RELIEF_NO. The fault is an operand of the command (R171). -/
def Obligations.ProductCompletes : Prop :=
  ∀ (s : State) (core : Fin 96) (p : Product) (rest : List Product) (n : Nat), s.canon = true → n = core.val →
    (s.core n).prods = p :: rest →
    (∀ r bs w0, r = p.attempts [] (s.accOld n p) 3 0 p.anchor → bs = accBytes (r.2.2.map (fun v => v.map accWord)) →
      w0 = s.recWord n p.tsx 0 →
      (p.tsx * 512 + 4 ≤ p.tsc * 512 ∨ p.tsc * 512 + bs.length ≤ p.tsx * 512) → ∃ t,
      exec (.productComplete core none) s = .next t ∧
      (t.core n).prods.map Product.unwritten = rest.map Product.unwritten ∧ t.strands = s.strands ∧
      t.mem = s.mem ∧ t.tread n (p.tsc * 512) bs.length = bs ∧
      summed w0 (t.recWord n p.tsx 0) r.1 r.2.1 (p.hint.isSome || r.1 != 0)
        ((p.sums [] r.2.1).any (fun v => v.any Option.isNone)) (r.2.2.any (fun v => v.any accOver)) ∧
      (∀ j, (j < p.tsc * 512 ∨ p.tsc * 512 + bs.length ≤ j) → (j < p.tsx * 512 ∨ p.tsx * 512 + 4 ≤ j) →
        Tab.get 0 (t.core n).tile j = Tab.get 0 (s.core n).tile j) ∧
      (∀ c, c ≠ n → t.core c = s.core c)) ∧
    (∀ f e, s.checkProduct n p (some f) = some e →
      (p.relievable = true → (s.reliefOf p.array).isSome = true → ∃ t,
        exec (.productComplete core (some f)) s = .next t ∧
        (t.core n).prods.map Product.unwritten = rest.map Product.unwritten ∧
        (t.core n).relief = (s.core n).relief ++ [(s.partnerOf p.array, p)] ∧ t.mem = s.mem ∧ t.strands = s.strands ∧
        t.frozenAt n p.strand = true ∧
        t.get Reg.CORE_ARR_CHKFAIL_COUNT p.array = (s.get Reg.CORE_ARR_CHKFAIL_COUNT p.array + 1) % 2 ^ 64) ∧
      (p.relievable = false ∨ s.reliefOf p.array = none → ∃ t,
        exec (.productComplete core (some f)) s = .next t ∧
        (t.core n).prods.map Product.unwritten = rest.map Product.unwritten ∧ (t.core n).relief = (s.core n).relief ∧
        t.mem = s.mem ∧ t.strands = s.strands ∧ t.step.contrib.getLsbD 1 = true ∧
        t.get Reg.FLT_RELIEF_NO_COUNT = (s.get Reg.FLT_RELIEF_NO_COUNT + 1) % 2 ^ 64))

/-- A relief replay passes or fails (R467, R468, R469, R501). When the oldest relief replay of a core passes, the
product's accumulators are written and nothing else of the tile stores, its strand no longer stands still for it and
FLT_RELIEF_OK counts; when its check fails too, FLT_RELIEF_NO counts and REPLAY is contributed. Memory and the
strands' own state are unchanged in both. -/
def Obligations.ReliefEnds : Prop :=
  ∀ (s : State) (core : Fin 96) (q : Nat) (p : Product) (rest : List (Nat × Product)) (n : Nat), s.canon = true →
    n = core.val → (s.core n).relief = (q, p) :: rest →
    (∀ bs, bs = accBytes ((p.attempts [] (s.accOld n p) 3 0 p.anchor).2.2.map (fun r => r.map accWord)) →
      ∃ t, exec (.reliefReplayDone core none) s = .next t ∧ (t.core n).relief = rest ∧
      t.get Reg.FLT_RELIEF_OK_COUNT = (s.get Reg.FLT_RELIEF_OK_COUNT + 1) % 2 ^ 64 ∧ t.mem = s.mem ∧
      t.strands = s.strands ∧ t.tread n (p.tsc * 512) bs.length = bs ∧
      (∀ j, (j < p.tsc * 512 ∨ p.tsc * 512 + bs.length ≤ j) →
        Tab.get 0 (t.core n).tile j = Tab.get 0 (s.core n).tile j) ∧ (∀ c, c ≠ n → t.core c = s.core c) ∧
      ((∀ r ∈ rest, r.2.strand ≠ p.strand) → t.frozenAt n p.strand = false)) ∧
    (∀ f e, s.checkProduct n p (some f) = some e → ∃ t, exec (.reliefReplayDone core (some f)) s = .next t ∧
      (t.core n).relief = rest ∧
      t.get Reg.FLT_RELIEF_NO_COUNT = (s.get Reg.FLT_RELIEF_NO_COUNT + 1) % 2 ^ 64 ∧
      t.step.contrib.getLsbD 1 = true ∧ t.mem = s.mem ∧ t.strands = s.strands ∧
      ((∀ r ∈ rest, r.2.strand ≠ p.strand) → t.frozenAt n p.strand = false))

/-- MSCALE scans rows and updates the range and the zero tiles (R133, R163, R185, R186, R189). MSCALE takes the largest
bound of its rows into the strand's current range (started afresh without ACCUM, the range before it kept when the
record is the one scanned last), writes the record's anchor, MAXP, VALID and NONFIN from the two ranges and its
zero-tile word, ANDed with the one before under ACCUM. No other tile byte, core or strand changes; with a value that
is not finite CORE_NUM_FLAGS.NONFIN is set and counted and memory is as before, else nothing else of the device
changes. That MSCALE writes the bits beyond the rows as 0 is the model's choice (log 79). -/
def Obligations.ScaleScan : Prop :=
  ∀ (s : State) (a : Site) (p : Pred) (tsa tsx : Tsop) (rows : BitVec 13) (fmtt : BitVec 4) (accum : Bool) (klog : BitVec 5)
    (hw : HwReport), s.canon = true → s.executes a p (.mscale a p tsa tsx rows fmtt accum klog hw) → hw.ecc = [] →
    ∀ core ux scan top cur prev nonfin, core = a.core.val → ux = Tsop.unit (s.strand a) tsx →
    scan = s.scanRows core fmtt.toNat (Tsop.unit (s.strand a) tsa) rows.toNat →
    top = (scan.flatMap (fun r => r.filterMap (scanBound fmtt.toNat))).max? →
    cur = (if accum then maxOpt (s.strand a).cur top else top) →
    prev = (if accum then (s.strand a).prev else if (s.strand a).lastTsx = some ux then (s.strand a).cur else none) →
    nonfin = scan.any (fun r => r.any (scanNonfin fmtt.toNat)) →
    s.clear a (.mscale a p tsa tsx rows fmtt accum klog hw) [(s.recordBad core ux rows.toNat, 0x0A)] → ∃ t,
    exec (.mscale a p tsa tsx rows fmtt accum klog hw) s = .next t ∧
    t.strand a = ({ s.strand a with cur := cur, prev := prev, lastTsx := some ux }).goto ((s.strand a).pc.toNat + 1) ∧
    scanned (s.recWord core ux 0) (t.recWord core ux 0) cur prev klog.toNat nonfin ∧
    t.recWord core ux 1 = (if accum then Nat.land (s.recWord core ux 1) (zeroTiles fmtt.toNat scan)
      else zeroTiles fmtt.toNat scan) % 2 ^ 32 ∧
    (∀ j, (j < ux * 512 ∨ ux * 512 + 8 ≤ j) → Tab.get 0 (t.core core).tile j = Tab.get 0 (s.core core).tile j) ∧
    (∀ c, c ≠ core → t.core c = s.core c) ∧ (∀ b, b ≠ a → t.strand b = s.strand b) ∧
    (nonfin = false → s.onlyCores t) ∧
    (nonfin = true → t.get Reg.CORE_NUM_FLAGS_NONFIN core = 1 ∧ t.mem = s.mem ∧
      t.get Reg.CORE_NUM_NONFIN_COUNT core = (s.get Reg.CORE_NUM_NONFIN_COUNT core + 1) % 2 ^ 64)

/-- VADD, VMUL, VMAX, VDER, VACT and VFMA act on each element (R137, R211, R213, R214, R215, R216, R218, R224, R225,
R226, R230). Each, without a wait, a cause or a report of the checks, writes to its destination, element by element
in OFMT, its function of the decoded sources, and changes no other tile byte, memory or strand; VL vectors are
counted. -/
def Obligations.VectorElementwise : Prop :=
  ∀ (s : State) (a : Site) (p : Pred) (f : VecF) (hw : HwReport), s.canon = true →
    ∀ (two : (Fv → Fv → Fv) → List Byte) (one : (Fv → Fv) → List Byte),
    (∀ op, two op = vecBytes f (((s.vecSource a f f.tsa).zip (s.vecSource a f f.tsb)).map (fun r => List.zipWith op r.1 r.2))) →
    (∀ op, one op = vecBytes f ((s.vecSource a f f.tsa).map (fun r => r.map op))) →
    (s.executes a p (.vadd a p f hw) → s.vecClear a f shapeAB false hw → ∃ t, exec (.vadd a p f hw) s = .next t ∧
      s.vecWrites t a f (two fadd)) ∧
    (s.executes a p (.vmul a p f hw) → s.vecClear a f shapeAB false hw → ∃ t, exec (.vmul a p f hw) s = .next t ∧
      s.vecWrites t a f (two fmul)) ∧
    (s.executes a p (.vmax a p f hw) → s.vecClear a f shapeAB false hw → ∃ t, exec (.vmax a p f hw) s = .next t ∧
      s.vecWrites t a f (two (if f.func = 0 then fmax else fmin))) ∧
    (s.executes a p (.vder a p f hw) → s.vecClear a f shapeAB false hw → ∃ t, exec (.vder a p f hw) s = .next t ∧
      s.vecWrites t a f (two (derF f.func.toNat))) ∧
    (s.executes a p (.vact a p f hw) → s.vecClear a f shapeA false hw → ∃ t, exec (.vact a p f hw) s = .next t ∧
      s.vecWrites t a f (one (actF f.func.toNat))) ∧
    (s.executes a p (.vfma a p f hw) → s.vecClear a f shapeABC false hw → ∃ t, exec (.vfma a p f hw) s = .next t ∧
      s.vecWrites t a f (vecBytes f ((((s.vecSource a f f.tsa).zip (s.vecSource a f f.tsb)).zip (s.vecSource a f f.tsc)).map
        (fun r => ((r.1.1.zip r.1.2).zip r.2).map (fun e => ffma e.1.1 e.1.2 e.2)))))

/-- VEXP, VRED, VSCAN and VCVT act on rows (R137, R198, R200, R212, R219, R221, R222, R223, R228, R230). VEXP writes the
exponentials, with or without a row vector subtracted; VRED one entry a row; VSCAN the running combination of each
row, with FUNC other than 0 also each row's last state, in FP32, at its TSC, from which its first states come; VCVT
the elements rounded from their exact values or, to an MX format, blocks of elements and their scales at TSC.
Nothing else of the tile stores, memory and the strands changes, and VL vectors are counted. -/
def Obligations.VectorRows : Prop :=
  ∀ (s : State) (a : Site) (p : Pred) (f : VecF) (hw : HwReport) (core rows : Nat), s.canon = true → core = a.core.val →
    rows = 2 * f.vl.toNat →
    (s.executes a p (.vexp a p f hw) → s.vecClear a f (shapeExp f.func.toNat) false hw → ∃ t,
      exec (.vexp a p f hw) s = .next t ∧
      (f.func = 0 → s.vecWrites t a f (vecBytes f ((s.vecSource a f f.tsa).map (fun r => r.map (fun x => expF x fzero x))))) ∧
      (f.func ≠ 0 → s.vecWrites t a f (vecBytes f (((s.vecSource a f f.tsa).zip
        (s.rowVector core (Tsop.unit (s.strand a) f.tsb) rows)).map (fun r => r.1.map (fun e => expSub e r.2)))))) ∧
    (s.executes a p (.vred a p f hw) → s.vecClear a f shapeRed false hw → ∃ t, exec (.vred a p f hw) s = .next t ∧
      s.vecWrites t a f ((s.vecSource a f f.tsa).flatMap (fun r => rowEntry f.ofmt.toNat (reduceRow f.func.toNat r)))) ∧
    (s.executes a p (.vscan a p f hw) → s.vecClear a f (shapeScan f.func.toNat) false hw → ∃ t,
      exec (.vscan a p f hw) s = .next t ∧
      (f.func = 0 → s.vecWrites t a f (vecBytes f ((s.vecSource a f f.tsb).map
        (fun r => scanRow (List.replicate 128 fone) r fzero)))) ∧
      (f.func ≠ 0 → ∀ out, out = (((s.vecSource a f f.tsa).zip (s.vecSource a f f.tsb)).zip
          (s.rowVector core (Tsop.unit (s.strand a) f.tsc) rows)).map (fun r => scanRow r.1.1 r.1.2 r.2) →
        s.vecLeaves t a f ∧
        s.tileGets2 t core (Tsop.addr (s.strand a) f.tsc) (out.flatMap (fun r => toBytes 4 (outCode 8 (r.getD 127 fzero))))
          (Tsop.addr (s.strand a) f.tsd) (vecBytes f out))) ∧
    (∀ x, x = s.sourceExact core f.fmt.toNat (Tsop.unit (s.strand a) f.tsa) rows →
      s.executes a p (.vcvt a p f hw) → s.vecClear a f shapeA (mxFmt f.ofmt.toNat) hw → ∃ t,
      exec (.vcvt a p f hw) s = .next t ∧
      (mxFmt f.ofmt.toNat = false → s.vecWrites t a f (x.flatMap
        (fun r => packRow f.ofmt.toNat (r.map ((fmtOf f.ofmt.toNat).enc (rndOf f.rnd.toNat)))))) ∧
      (mxFmt f.ofmt.toNat = true → ∀ bl, bl = x.map (fun r => (List.range 4).map (fun j =>
          mxBlock f.ofmt.toNat (rndOf f.rnd.toNat) ((r.drop (32 * j)).take 32))) →
        s.vecLeaves t a f ∧
        s.tileGets2 t core (Tsop.addr (s.strand a) f.tsd)
          (bl.flatMap (fun r => packRow f.ofmt.toNat (r.flatMap (fun b => b.2.1))))
          (Tsop.addr (s.strand a) f.tsc) (bl.flatMap (fun r => r.map (fun b => BitVec.ofNat 8 b.1)))))

/-- ABLK and ASEL complete and write only their own state (R138, R139, R235, R237, R245, R249, R250, R252, R253, R255,
R256, R265). With no report of the checks, ABLK makes the core's stationary tile invalid, changes no tile byte
outside its statistics tile (and the gradient partials when backward) and counts its block; ASEL makes the
stationary tile invalid, adds its summaries to the count at the head of its list, changes no tile byte outside that
list and counts a selection with its last call. Memory, other strands and other cores are as before. -/
def Obligations.AttentionSteps : Prop :=
  ∀ (s : State) (a : Site) (p : Pred) (hw : HwReport), s.canon = true → hw.clean →
    (∀ tsq tskv tsst fmt bmask first last scale hdim bwd,
      s.executes a p (.ablk a p tsq tskv tsst fmt bmask first last scale hdim bwd hw none) →
      ∀ core uk us, core = a.core.val → uk = Tsop.unit (s.strand a) tskv → us = Tsop.unit (s.strand a) tsst →
      s.clear a (.ablk a p tsq tskv tsst fmt bmask first last scale hdim bwd hw none)
        [(bwd && (s.partialBad core (uk + 2 * pageTile fmt.toNat) || s.partialBad core (uk + 2 * pageTile fmt.toNat + 257)), 0x0A)] →
      ∃ t, exec (.ablk a p tsq tskv tsst fmt bmask first last scale hdim bwd hw none) s = .next t ∧
      (t.strand a).pc = (s.after a).pc ∧ (t.core core).stat = none ∧ t.mem = s.mem ∧
      (∀ b, b ≠ a → t.strand b = s.strand b) ∧ (∀ c, c ≠ core → t.core c = s.core c) ∧
      (∀ j, (j < us * 512 ∨ (us + 130) * 512 ≤ j) →
        (bwd = true → j < (uk + 2 * pageTile fmt.toNat) * 512 ∨ (uk + 2 * pageTile fmt.toNat + 514) * 512 ≤ j) →
        Tab.get 0 (t.core core).tile j = Tab.get 0 (s.core core).tile j) ∧
      t.get (if bwd then Reg.ATT_BWD_BLOCKS_COUNT else Reg.ATT_FWD_BLOCKS_COUNT) =
        (s.get (if bwd then Reg.ATT_BWD_BLOCKS_COUNT else Reg.ATT_FWD_BLOCKS_COUNT) + 1) % 2 ^ 64) ∧
    (∀ tsq tssum tslist qblk qlc qlce topk win first last causal nsum1,
      s.executes a p (.asel a p tsq tssum tslist qblk qlc qlce topk win first last causal nsum1 hw) →
      ∀ core u done, core = a.core.val → u = Tsop.unit (s.strand a) tslist →
      done = (if first then 0 else ofBytes (s.tread core (u * 512) 4)) →
      s.clear a (.asel a p tsq tssum tslist qblk qlc qlce topk win first last causal nsum1 hw)
        [(decide (131072 < done + (nsum1.toNat + 1)) || decide (131071 < selQblk (s.strand a) qblk qlc qlce) ||
          (!first && ofBytes (s.tread core (u * 512 + 6) 2) != 0), 0x0A)] → ∃ t,
      exec (.asel a p tsq tssum tslist qblk qlc qlce topk win first last causal nsum1 hw) s = .next t ∧
      (t.strand a).pc = (s.after a).pc ∧ (t.core core).stat = none ∧ t.mem = s.mem ∧
      ofBytes (t.tread core (u * 512) 4) = done + (nsum1.toNat + 1) ∧
      (∀ j, (j < u * 512 ∨ u * 512 + 4096 ≤ j) → Tab.get 0 (t.core core).tile j = Tab.get 0 (s.core core).tile j) ∧
      (∀ b, b ≠ a → t.strand b = s.strand b) ∧ (∀ c, c ≠ core → t.core c = s.core c) ∧
      t.get Reg.ATT_SELECTIONS_COUNT = (s.get Reg.ATT_SELECTIONS_COUNT + last.toNat) % 2 ^ 64)

/-- KVAPP appends, is refused beyond the length, or waits for a frame (R139, R263, R280, R281, R283, R284, R299). With
no report of the checks: a position beyond the allowed length is refused with its event and count, and the strand
goes on. With a frame to write the strand goes on, no tile byte but the record's changes, and where the block has
its own frame (not shared) whose rows are mapped apart from what else the append writes, the converted rows stand in
it. A block whose own frame is moving waits for the move; where there is no frame and none free the strand waits,
and KV_POOL_EMPTY is raised once. A waiting append resumes when a frame is there, with the same result; two beats
without one end it in STRAND_ERROR with cause 0x0B. -/
def Obligations.KeyValueAppend : Prop :=
  (∀ (s : State) (a : Site) (p : Pred) (tsacc tsx : Tsop) (slot : BitVec 8) (layer : BitVec 10) (head : BitVec 6) (kv : Bool)
    (pos : BitVec 24) (plc : BitVec 2) (plce : Bool) (rows1 : BitVec 7) (fmt : BitVec 4) (hw : HwReport) (k : KvArgs)
    (i : Instr) (core : Nat), s.canon = true → hw.clean → core = a.core.val →
    i = .kvapp a p tsacc tsx slot layer head kv pos plc plce rows1 fmt hw → kvArgs (s.strand a) i = some k →
    s.executes a p i → s.clear a i [(!k.tooLong && s.kvBad k, 0x0A)] → (s.strand a).kvWait = none →
    (k.tooLong = true → ∃ t, exec i s = .next t ∧ t.strand a = s.after a ∧ s.othersSame t a ∧ t.mem = s.mem ∧
      s.raised t 0x0401 (slot.toNat + layer.toNat * 2 ^ 8 + head.toNat * 2 ^ 18 + (if kv then 2 ^ 24 else 0)) core ∧
      t.get Reg.ATT_LENGTH_REFUSED_COUNT = (s.get Reg.ATT_LENGTH_REFUSED_COUNT + 1) % 2 ^ 64) ∧
    (∀ c r e, k.tooLong = false → s.roots = some (c, r) → e = s.entry (r.stream k.slot k.layer k.head) (k.pos / 128) →
      (s.kvFrame r k = true → ∃ t, exec i s = .next t ∧ t.strand a = s.after a ∧ (∀ b, b ≠ a → t.strand b = s.strand b) ∧
        (∀ j, (j < k.tsx * 512 ∨ k.tsx * 512 + 4 ≤ j) →
          Tab.get 0 (t.core core).tile j = Tab.get 0 (s.core core).tile j) ∧
        (∀ tier n fill, e = .frame tier n fill → s.frRef tier n ≤ 1 → s.kvRoom c r k tier n →
          s.kvStored t c core r k tier n)) ∧
      (∀ tier n fill, e = .frame tier n fill → s.frRef tier n ≤ 1 → s.frState tier n = 3 → ∃ t, exec i s = .next t ∧
        t.strand a = { s.strand a with kvWait := some ⟨i, s.beat, true⟩ } ∧ s.othersSame t a ∧ s.onlyCores t) ∧
      ((∀ tier n fill, e = .frame tier n fill → 1 < s.frRef tier n) → s.allocPage = none → ∃ t, exec i s = .next t ∧
        t.strand a = { s.strand a with kvWait := some ⟨i, s.beat, false⟩ } ∧ s.othersSame t a ∧ t.mem = s.mem ∧
        s.raised t 0x0403 (k.slot + k.layer * 2 ^ 8 + k.head * 2 ^ 18) core))) ∧
  (∀ (s : State) (a : Site) (w : KvWait) (core : Nat), s.canon = true → core = a.core.val → (s.strand a).kvWait = some w →
    (∀ p tsacc tsx slot layer head kv pos plc plce rows1 fmt hw k c r e, hw.clean →
      w.instr = .kvapp a p tsacc tsx slot layer head kv pos plc plce rows1 fmt hw → kvArgs (s.strand a) w.instr = some k →
      s.roots = some (c, r) → e = s.entry (r.stream k.slot k.layer k.head) (k.pos / 128) → s.kvFrame r k = true → ∃ t,
      exec (.kvappResume a) s = .next t ∧
      t.strand a = ({ s.strand a with kvWait := none }).goto ((s.strand a).pc.toNat + 1) ∧
      (∀ b, b ≠ a → t.strand b = s.strand b) ∧
      (∀ tier n fill, e = .frame tier n fill → s.frRef tier n ≤ 1 → s.kvRoom c r k tier n → k.fmt = r.fmt →
        k.fmt = 0 ∨ k.fmt = 2 →
        s.kvStored t c core r k tier n)) ∧
    (w.moving = false → w.since + 2 ≤ s.beat → s.allocPage = none → ∃ t, exec (.kvPoolTimeout a) s = .next t ∧
      (t.strand a).st = .stopped ∧ (t.strand a).kvWait = none ∧ t.mem = s.mem ∧
      s.raised t 0x0230 (0x0B + a.strand.val * 2 ^ 8 + (s.strand a).pc.toNat % 2 ^ 22 * 2 ^ 10) core))

/-- RTOPK, DISP and CMB (R140, R300, R301, R303, R311, R314, R315, R319, R320). With no report of the checks: RTOPK
writes for each token the experts in rank order with the claim bit of those that can be claimed (no claim beyond the
ranks there are) and its K weights, 0 beyond K; it counts the tokens, and no other tile byte, core, strand or memory
changes. DISP with fewer than sixteen dispatches of its group under way: a FORWARD whose holders are all other nodes
is held with its head, site, object, tokens, capacity, claims and the holders it waits for, counts its claims, and a
count frame to each holder that is not fenced is sent or waits; a FORWARD to this node too, a RETURN and a REPLAY go
on at the next instruction; while sends of a RETURN or REPLAY are outstanding it is held, else a RETURN ends and
increments its object. With sixteen it waits and RT_STATUS.FULL is set. CMB writes, for each token, the weighted sum
of its chosen rows in tree order in OFMT and no other tile byte, leaves memory and the other strands as they were
and counts its reads at the group's port. -/
def Obligations.RoutingSteps : Prop :=
  ∀ (s : State) (a : Site) (p : Pred) (hw : HwReport) (c core : Nat), s.canon = true → hw.clean → s.running = some c →
    core = a.core.val →
    (∀ tsl tsd e1 k1 ntok norm, s.executes a p (.rtopk a p tsl tsd e1 k1 ntok norm hw) →
      s.clear a (.rtopk a p tsl tsd e1 k1 ntok norm hw) [] → ∃ t,
      exec (.rtopk a p tsl tsd e1 k1 ntok norm hw) s = .next t ∧ t.strand a = s.after a ∧ t.mem = s.mem ∧
      (∀ b, b ≠ a → t.strand b = s.strand b) ∧
      t.get Reg.RT_TOKENS_COUNT = (s.get Reg.RT_TOKENS_COUNT + ntok.toNat) % 2 ^ 64 ∧
      (∀ j, (j < Tsop.addr (s.strand a) tsd ∨ Tsop.addr (s.strand a) tsd + 64 * ntok.toNat ≤ j) →
        Tab.get 0 (t.core core).tile j = Tab.get 0 (s.core core).tile j) ∧ (∀ n, n ≠ core → t.core n = s.core n) ∧
      ∀ r row, r < ntok.toNat →
        row = (List.range (e1.toNat + 1)).map (fun x => ofF32 (ofBytes (s.tread core
          (Tsop.addr (s.strand a) tsl + 4 * ((e1.toNat + 1) * r + x)) 4))) →
        (∀ j best, (rankRow row)[j]? = some best →
          t.tileWord core (Tsop.addr (s.strand a) tsd + 64 * r + 2 * j) 2 =
            best.2 + (if claimable best.1 then 2 ^ 15 else 0)) ∧
        (∀ j, j < 16 → (rankRow row)[j]? = none →
          bits (t.tileWord core (Tsop.addr (s.strand a) tsd + 64 * r + 2 * j) 2) 12 4 = 0) ∧
        (∀ j, j < 8 → t.tileWord core (Tsop.addr (s.strand a) tsd + 64 * r + 32 + 4 * j) 4 =
          if j < k1.toNat + 1 then
            outCode 8 ((routeWeights norm.toNat (k1.toNat + 1) row (rankRow row)).getD j fzero) % 2 ^ 32 else 0)) ∧
    (∀ tssel mop list cap policy ntok so i h g, i = .disp a p tssel mop list cap policy ntok so → s.executes a p i →
      firstCause (s.dispCauses a tssel mop list policy ntok.toNat) = none → (h.dir ≠ 1 → s.conflict a i.regions = false) →
      h = (dispHead (s.vread c (Mop.addr (s.strand a) mop) 128)).1 → g = groupOf core →
      ((s.group g).disps.length < 16 →
        (h.dir = 0 → s.node ∉ s.holdersOf c h → ∃ (t : State) (d : Dispatch), exec i s = .next t ∧ t.strand a = s.after a ∧
          (∀ b, b ≠ a → t.strand b = s.strand b) ∧ t.mem = s.mem ∧ d ∈ (t.group g).disps ∧ d.head = h ∧ d.site = a ∧
          d.so = so.toNat ∧ d.ntok = ntok.toNat ∧ d.cap = cap.toNat ∧ d.round = 0 ∧ d.waitHolders = s.holdersOf c h ∧
          d.claims = s.claimsOf core (Tsop.unit (s.strand a) tssel) ntok.toNat h.k ∧
          t.get Reg.RT_CLAIMS_COUNT = (s.get Reg.RT_CLAIMS_COUNT + d.claims.length) % 2 ^ 64 ∧
          (∀ n ∈ s.holdersOf c h, s.isFenced n = false → (∃ f ∈ t.sent, f.ty = 0x06 ∧ f.dnode = n) ∨
            ∃ w ∈ t.waitSends, w.frame.ty = 0x06 ∧ w.node = n)) ∧
        (h.dir = 0 → s.node ∈ s.holdersOf c h → ∃ t, exec i s = .next t ∧ (t.strand a).pc = (s.after a).pc) ∧
        (h.dir ≠ 0 → ∃ t, exec i s = .next t ∧ (t.strand a).pc = (s.after a).pc ∧
          ((t.strand a).st ≠ .stopped →
            (∀ d ∈ (s.group g).disps, ¬ (d.head.did = h.did ∧ d.head.pos = h.pos ∧ d.head.dir = h.dir)) →
            t.strand a = s.after a ∧ (∀ b, b ≠ a → t.strand b = s.strand b) ∧
            (t.outstanding (.dispatch h.did h.pos) = true →
              ∃ d ∈ (t.group g).disps, d.head = h ∧ d.site = a ∧ d.so = so.toNat) ∧
            (t.outstanding (.dispatch h.did h.pos) = false → h.dir = 1 → s.signals t so.toNat ∧
              ∀ d ∈ (t.group g).disps, ¬ (d.head.did = h.did ∧ d.head.pos = h.pos ∧ d.head.dir = 1))))) ∧
      (16 ≤ (s.group g).disps.length → ∃ t, exec i s = .next t ∧ t.strands = s.strands ∧ t.mem = s.mem ∧
        t.groups = s.groups ∧ t.get Reg.RT_STATUS_FULL = 1)) ∧
    (∀ tsd tssel mop ntok k1 ofmt, s.executes a p (.cmb a p tsd tssel mop ntok k1 ofmt hw) →
      s.clear a (.cmb a p tsd tssel mop ntok k1 ofmt hw) [] → Mop.bad (s.strand a) mop = false →
      ∀ base sel k, base = Mop.addr (s.strand a) mop → sel = Tsop.unit (s.strand a) tssel → k = k1.toNat + 1 →
      (∀ tok j, tok < ntok.toNat → j < k → (s.rankAt core sel tok j).2 = true →
        s.accessOk c (base + 256 * (tok * k + j)) 256 false = true ∧
        s.directOk c (base + 256 * (tok * k + j)) 256 = true ∧ s.freshBytes (base + 256 * (tok * k + j)) 256) → ∃ t,
      exec (.cmb a p tsd tssel mop ntok k1 ofmt hw) s = .next t ∧ t.strand a = s.after a ∧ t.mem = s.mem ∧
      (∀ b, b ≠ a → t.strand b = s.strand b) ∧
      (∀ rs, rs = s.cmbRanges core sel base ntok.toNat k →
        s.portCounts t (groupOf core) 1 false (256 * rs.length) (wideRequests rs)) ∧
      ∀ (term : Nat → Nat → Nat → Fv) (bs : List Byte), (∀ tok j x, term tok j x = (if (s.rankAt core sel tok j).2 then
          (let w := ofF32 (ofBytes (s.tread core (sel * 512 + 64 * tok + 32 + 4 * j) 4))
           let v := (fmtOf 0).decode (ofBytes (s.vread c (base + 256 * (tok * k + j) + 2 * x) 2))
           if v = fzero ∧ w = fzero then fzero else fmul w v) else fzero)) →
        bs = (List.range ntok.toNat).flatMap (fun tok => packRow ofmt.toNat ((List.range 128).map (fun x =>
          outCode ofmt.toNat (treeFold fadd 4 ((List.range k).map (fun j => term tok j x)))))) →
        s.tileGets t core (Tsop.addr (s.strand a) tsd) bs.length (fun n => bs.getD n 0))

/-- UPD, PRECON, INGEST, the checkpoints and POST_EVENT hand work to an engine or the event log (R141, R142, R322, R324,
R344, R345, R375, R376, R493, R494, R496). UPD adds a waiting job with the descriptor's address, gate, target and
object to its group's queue, or waits while the queue of 64 is full. PRECON with good blocks and headers starts a
root of its SCRATCH in its group, or joins the one already there for the step: its object is added while it runs,
incremented once it is done; of memory only SCRATCH is written. INGEST adds a job with one read operation for each
of its records, with target, bytes, destination and block address. CKPT_FLASH and CKPT_STORE add a job with the
areas in force, the store's with one write for each area unless the guard stops it. POST_EVENT (CODE 4) raises the
record's event and increments its object; after 64 of the core in a step it counts a lost event instead; another
CODE is a strand error with cause 0x08. The strand goes on, and no other strand changes. -/
def Obligations.EngineIssue : Prop :=
  ∀ (s : State) (a : Site) (p : Pred) (mop : Mop) (done : BitVec 13) (c va g : Nat), s.canon = true →
    s.running = some c → Mop.bad (s.strand a) mop = false → va = Mop.addr (s.strand a) mop → g = groupOf a.core.val →
    (∀ gate target, s.executes a p (.upd a p mop gate target done) →
      ((s.group g).jobs.length < 64 → ∃ (t : State) (j : UpdJob),
        exec (.upd a p mop gate target done) s = .next t ∧ t.strand a = s.after a ∧ s.othersSame t a ∧
        (t.group g).jobs = (s.group g).jobs ++ [j] ∧ j.phase = .waiting ∧ j.desc = va ∧ j.gate = gate.toNat ∧
        j.target = target.toNat ∧ j.done = done.toNat ∧ j.site = a ∧
        ({ t with strands := s.strands, cores := s.cores, groups := s.groups, nextOp := s.nextOp } : State) = s ∧
        ∀ k, k ≠ g → t.group k = s.group k) ∧
      (64 ≤ (s.group g).jobs.length → ∃ t, exec (.upd a p mop gate target done) s = .next t ∧ t.strand a = s.strand a ∧
        s.othersSame t a ∧ s.onlyCores t)) ∧
    (∀ kind d h, s.executes a p (.precon a p mop done kind) → d = preconDesc (s.vread c va 64) →
      h = s.shardHead c (gen d.state s.ueStep) → ∀ n, n = (if d.which = 0 then h.kr else h.kc) →
      firstBad (s.preconChecks c (s.vread c va 64) n (shardBytes 3 h.n h.kr h.kc)) = none →
      (s.sameRoot c d.scratch = none → h.stamp = s.ueStep → h.rule = 3 → h.layer = d.layer → 1 ≤ n → n ≤ 2048 →
        s.factorBad c d h = false → ∃ (t : State) (r : RootJob), exec (.precon a p mop done kind) s = .next t ∧
        t.strand a = s.after a ∧ s.othersSame t a ∧ r ∈ (t.group g).roots ∧ r.ctx = c ∧ r.scratch = d.scratch ∧
        r.dones = [done.toNat] ∧ r.issueStep = s.ueStep ∧ r.adoptStep = (s.ueStep + d.adopt) % 2 ^ 32 ∧ r.attempt = 0 ∧
        r.st = .running ∧ r.inverse = (kind == 1) ∧ r.n = n ∧ r.damp.toNat = d.damp ∧
        (∀ pa, (∀ k, k < 512 + 24 * n * n → s.translate c (d.scratch + k) ≠ some pa) → t.pbyte pa = s.pbyte pa) ∧
        (∀ off, ¬ staleCounter off → t.word off = s.word off) ∧
        ({ t with strands := s.strands, cores := s.cores, groups := s.groups, mem := s.mem, nextOp := s.nextOp
                  sec := s.sec, regs := s.regs, prefetches := s.prefetches } : State) = s) ∧
      (∀ k r, s.sameRoot c d.scratch = some (k, r) → ∃ t, exec (.precon a p mop done kind) s = .next t ∧
        t.strand a = s.after a ∧ s.othersSame t a ∧ t.mem = s.mem ∧
        (r.st = .running → t.so = s.so ∧
          (t.group k).roots = (s.group k).roots.map (fun q => if q.id = r.id then { r with dones := r.dones ++ [done.toNat] } else q)) ∧
        (r.st ≠ .running → t.groups = s.groups ∧ s.signals t done.toNat))) ∧
    (∀ x, s.executes a p (.ingest a p mop done) → s.blockBad c va 128 = false → x = ingestArg (s.vread c va 128) →
      s.ingestBad c x = false → ∃ t, exec (.ingest a p mop done) s = .next t ∧ t.strand a = s.after a ∧ s.othersSame t a ∧
      t.ingests = s.ingests ++ [⟨s.nextOp, a, (s.strand a).pc.toNat, x.ng, done.toNat⟩] ∧
      t.nvme.length = s.nvme.length + x.ng ∧ t.mem = s.mem ∧ t.so = s.so ∧
      ∀ k, k < x.ng → ∃ o, t.nvme[s.nvme.length + k]? = some o ∧ o.target = x.target ∧ o.bytes = x.recb ∧
        o.use = .ingest s.nextOp (x.g0 + k) (x.dest + k * x.recb) ∧
        o.lba = (x.slba + s.vfield c (x.entry (s.get Reg.UE_DSTEP_DSTEP) (x.g0 + k)) 8 * (x.recb / blockSize x.lbas)) % 2 ^ 64) ∧
    (∀ areas b, s.executes a p (.ckptFlash a p mop done areas) → s.blockBad c va 64 = false → b = s.vread c va 64 →
      bits (fld b 0 1) 2 6 = 0 → fld b 1 7 = 0 → fld b 16 48 = 0 → s.flashReadOnly = none →
      s.flashRoom c s.ueStep (s.inForce areas) = true → ∃ t, exec (.ckptFlash a p mop done areas) s = .next t ∧
      t.strand a = s.after a ∧ s.othersSame t a ∧ t.ckptFlash = s.ckptFlash ++ [⟨a, done.toNat, fld b 0 1,
        BitVec.ofNat 64 (fld b 8 8), BitVec.ofNat 32 s.ueStep, s.inForce areas, targetAt [] 0, 0, 0, 0, true⟩] ∧
      ({ t with strands := s.strands, cores := s.cores, ckptFlash := s.ckptFlash } : State) = s) ∧
    (∀ areas b, s.executes a p (.ckptStore a p mop done areas) → s.blockBad c va 128 = false → b = s.vread c va 128 →
      fld b 22 1 ≤ 1 → fld b 23 1 ≤ 7 → fld b 40 88 = 0 → (Tab.get none (s.ctx c).slots (fld b 23 1)).isSome = true →
      1 + ((s.inForce areas).map (fun r => (r.2 + blockSize (fld b 22 1) - 1) / blockSize (fld b 22 1))).sum ≤ fld b 32 8 →
      ∃ t, exec (.ckptStore a p mop done areas) s = .next t ∧ t.strand a = s.after a ∧ s.othersSame t a ∧
      t.ckptStore = s.ckptStore ++ [⟨a, done.toNat, 1, 0, BitVec.ofNat 32 s.ueStep, s.inForce areas, targetAt b 0,
        fld b 24 8, blockSize (fld b 22 1), areas.length, !s.flt.guard⟩] ∧
      t.nvme.length = s.nvme.length + (if s.flt.guard then 0 else areas.length) ∧ t.mem = s.mem ∧ t.so = s.so) ∧
    (∀ b, s.executes a p (.postEvent a p mop ⟨done, 4⟩) → s.blockBad c va 16 = false → b = s.vread c va 16 →
      fld b 2 2 = 0 → fld b 8 8 = 0 → 0x0BC0 ≤ fld b 0 2 → fld b 0 2 ≤ 0x0BFF → ∃ t,
      exec (.postEvent a p mop ⟨done, 4⟩) s = .next t ∧ t.strand a = s.after a ∧
      (∀ x, x ≠ a → t.strand x = s.strand x) ∧ t.mem = s.mem ∧ s.signals t done.toNat ∧
      (∀ n, n ≠ a.core.val → (t.core n).still (s.core n) = s.core n) ∧
      ((s.core a.core.val).posted < 64 → s.raised t (fld b 0 2) (fld b 4 4) a.core.val ∧
        (t.core a.core.val).still (s.core a.core.val) =
          { s.core a.core.val with posted := (s.core a.core.val).posted + 1 }) ∧
      (64 ≤ (s.core a.core.val).posted → t.svc = s.svc ∧
        (t.core a.core.val).still (s.core a.core.val) = s.core a.core.val ∧
        t.get Reg.SVC_EVT_LOST_COUNT = (s.get Reg.SVC_EVT_LOST_COUNT + 1) % 2 ^ 64)) ∧
    (∀ code, s.executes a p (.postEvent a p mop ⟨done, code⟩) → code ≠ 4 → ∃ t,
      exec (.postEvent a p mop ⟨done, code⟩) s = .next t ∧ t = (s.issueFrom a).strandError a 0x08)

/-- Update jobs start, complete or are discarded; a root attempt ends (R322, R326, R329, R345, R346, R347, R351, R352,
R353, R359). A waiting job whose gate is FENCED_RELEASE is discarded. The first waiting job with an open gate, while
fewer than four run, starts when its descriptor, header and planes are good: at once, or, where a root it needs
still runs, it waits for it and PRECON_LATE is raised once. A running one with nothing outstanding completes: it
leaves the queue, increments its object and counts job and parameters, and nothing else changes; with a send
outstanding it does nothing. An attempt of a root ends only when its cores are free for it (the model's reading of
R350, log 81), and writes the tile stores of no other core; one that converges is done, one that does not is tried
again up to three times with ten times the damping, its count and ROOT_ESCALATE, and then is STALE with the previous
roots; done or STALE it counts, increments the objects that wait for it, and writes result and header to SCRATCH
where that is mapped bytewise and no update waits for it. -/
def Obligations.UpdateJobs : Prop :=
  (∀ (s : State) (g : Fin 12) (j : UpdJob) (c : Nat), s.canon = true → s.running = some c → j ∈ (s.group g.val).jobs →
    (∀ k ∈ (s.group g.val).jobs, k.id = j.id → k = j) →
    (j.phase = .waiting → j.target ≠ 0 → (s.obj j.gate).status = .fencedRelease → ∀ hw, ∃ t,
      exec (.updJobStart g j.id hw) s = .next t ∧
      (t.group g.val).jobs = (s.group g.val).jobs.filter (fun k => k.id != j.id) ∧
      ({ t with groups := s.groups } : State) = s) ∧
    (∀ hw d h, hw.ecc = [] → j.phase = .waiting → s.gateOpen j = true →
      ((s.group g.val).jobs.filter (fun k => k.phase != .waiting)).length < 4 →
      (s.group g.val).jobs.find? (fun k => k.phase == .waiting && s.gateOpen k) = some j →
      (∀ k ∈ (s.group g.val).jobs, k.target ≠ 0 → (s.obj k.gate).status ≠ .fencedRelease) →
      d = updDesc (s.vread c j.desc 192) → h = s.shardHead c (gen d.state s.ueStep) →
      firstBad (s.updChecks c d h.kr h.kc) = none → headBad s.ueStep d h = false →
      planesBad d.lay (s.readPlanes c (gen d.state s.ueStep) (shardPlanes d.lay d.n h.kr h.kc)) = false →
      ((d.rule = 3 → s.rootRuns c d.scrl = false ∧ s.rootRuns c d.scrr = false) → ∃ (t : State) (k : UpdJob),
        exec (.updJobStart g j.id hw) s = .next t ∧ k ∈ (t.group g.val).jobs ∧ k = { j with phase := .running, params := d.n } ∧
        t.strands = s.strands ∧ t.so = s.so) ∧
      (d.rule = 3 → s.rootRuns c d.scrl = true ∨ s.rootRuns c d.scrr = true → j.late = false → ∃ (t : State),
        exec (.updJobStart g j.id hw) s = .next t ∧ { j with phase := .waitRoot, late := true } ∈ (t.group g.val).jobs ∧
        s.raised t 0x0605 (g.val + s.ueStep % 2 ^ 24 * 2 ^ 8) 0xFF ∧ t.get Reg.UE_STATUS_LATE = 1 ∧
        t.strands = s.strands ∧ t.so = s.so ∧ t.mem = s.mem)) ∧
    (j.phase = .running → s.outstanding (.tee g.val j.id) = false → ∃ t,
      exec (.updJobComplete g j.id) s = .next t ∧
      (t.group g.val).jobs = (s.group g.val).jobs.filter (fun k => k.id != j.id) ∧ s.signals t j.done ∧
      t.get Reg.UE_JOBS_COUNT g.val = (s.get Reg.UE_JOBS_COUNT g.val + 1) % 2 ^ 64 ∧
      t.get Reg.UE_PARAMS_COUNT g.val = (s.get Reg.UE_PARAMS_COUNT g.val + j.params) % 2 ^ 64 ∧
      ({ t with groups := s.groups, so := s.so, regs := s.regs } : State) = s) ∧
    (j.phase = .running → s.outstanding (.tee g.val j.id) = true → exec (.updJobComplete g j.id) s = .next s)) ∧
  (∀ (s : State) (g : Fin 12) (r : RootJob) (c : Nat), s.canon = true → s.running = some c → r.st = .running →
    (s.group g.val).roots.find? (fun q => q.id == r.id && q.st == .running) = some r → ∀ free res,
    free = (Config.freeWord s.draw).toNat →
    res = rootAttempt (if r.inverse then 1 else 4) r.n (s.vread c (r.scratch + 512 + 4 * r.n * r.n) (4 * r.n * r.n))
      (ofF32 r.damp.toNat) free →
    (s.attemptRuns g.val r res.2 = false → exec (.preconAttemptEnd g r.id) s = .next s) ∧
    (s.attemptRuns g.val r res.2 = true →
      (∀ out stale, (∀ x, res.1 = some x → out = x.bytes ∧ stale = false) → (res.1 = none → 3 ≤ r.attempt ∧ out = r.roots ∧
        stale = true) → ∃ (t : State) (q : RootJob), exec (.preconAttemptEnd g r.id) s = .next t ∧
        q ∈ (t.group g.val).roots ∧ q = { r with st := if stale then .stale else .done } ∧
        t.get Reg.UE_PRECON_RUNS_COUNT g.val = (s.get Reg.UE_PRECON_RUNS_COUNT g.val + 1) % 2 ^ 64 ∧
        (stale = true → t.get Reg.UE_PRECON_STALE_CNT_COUNT g.val =
          (s.get Reg.UE_PRECON_STALE_CNT_COUNT g.val + 1) % 2 ^ 64) ∧
        (s.noRootWaits → s.signalsAll t r.dones ∧ (s.ownBytes c r.scratch (512 + out.length) →
          (∀ k, k < out.length → t.vbyte c (r.scratch + 512 + k) = out.getD k 0) ∧
          ∀ k, k < 16 → t.vbyte c (r.scratch + k) = (scratchHead r.issueStep r.adoptStep (if stale then 3 else 2) r.attempt
            res.2 (if r.inverse then 1 else 0) r.damp.toNat).getD k 0))) ∧
      (res.1 = none → r.attempt < 3 → ∃ (t : State) (q : RootJob), exec (.preconAttemptEnd g r.id) s = .next t ∧
        q ∈ (t.group g.val).roots ∧
        q = { r with attempt := r.attempt + 1, damp := (fmul (ofF32 r.damp.toNat) (.num false 10 0)).bits32 } ∧
        t.so = s.so ∧ t.get Reg.UE_PRECON_ESC_COUNT g.val = (s.get Reg.UE_PRECON_ESC_COUNT g.val + 1) % 2 ^ 64 ∧
        s.raised t 0x0602 (g.val + (r.attempt + 1) * 2 ^ 4 + (if r.right then 2 ^ 6 else 0) + r.layer * 2 ^ 7) 0xFF) ∧
      (∀ t, exec (.preconAttemptEnd g r.id) s = .next t → ∀ core ∉ s.rootCores g.val r,
        (t.core core).tile = (s.core core).tile)))

/-- A checkpoint to flash or to the store ends (R107, R493, R494, R495, R496). Outside the guard the oldest flash
checkpoint becomes the newest generation, with its context, stamp, tag, areas, bytes and the context's flash key,
and increments its object; in the guard it does nothing. The oldest store checkpoint with no write left increments
its object and is noted as the store's generation; with a write left or in the guard it does nothing; one with an
error is dropped with its operations and its event and increments nothing. -/
def Obligations.CheckpointEnds : Prop :=
  ∀ (s : State) (j : CkptJob) (rest : List CkptJob), s.canon = true →
    (∀ c, s.ckptFlash = j :: rest → s.running = some c → s.flt.guard = false → ∃ (t : State) (g : FlashGen),
      exec .ckptFlashDone s = .next t ∧ t.ckptFlash = rest ∧ t.gens.head? = some g ∧ g.ctx = c ∧ g.stamp = j.stamp ∧
      g.tag = j.tag ∧ g.own = (j.what % 2 == 1) ∧ g.heldCopies = (j.what / 2 % 2 == 1) ∧ g.areas = j.areas ∧
      g.key = (s.ctx c).flashKey ∧ g.cells = s.rangeCells c j.areas ∧ s.signals t j.done ∧
      ({ t with ckptFlash := s.ckptFlash, gens := s.gens, so := s.so, regs := s.regs, svc := s.svc } : State) = s) ∧
    (s.ckptFlash = j :: rest → s.flt.guard = true → exec .ckptFlashDone s = .next s) ∧
    (s.ckptStore = j :: rest → s.flt.guard = false → j.left = 0 → ∃ t, exec (.ckptStoreDone none) s = .next t ∧
      t.ckptStore = rest ∧ s.signals t j.done ∧ t.svc.storeGen = some (j.stamp, 0, s.bt.count) ∧ t.mem = s.mem ∧
      t.strands = s.strands) ∧
    (s.ckptStore = j :: rest → s.flt.guard = true ∨ 0 < j.left → exec (.ckptStoreDone none) s = .next s) ∧
    (s.ckptStore = j :: rest → ∀ st, ∃ t, exec (.ckptStoreDone (some st)) s = .next t ∧ t.ckptStore = rest ∧
      t.so = s.so ∧ t.mem = s.mem ∧ t.strands = s.strands ∧ s.raised t 0x0B62 st.toNat 0xFF ∧
      t.nvme = s.nvme.filter (fun o => o.use != NvmeUse.ckptStore))

/-- Frames leave quarantine, are scrubbed and move; page frames age and are released (R288, R289, R290, R420, R421,
R423, R512, R524). A frame in quarantine for two beats (at once while DETACHED) goes to scrub, before that it stays;
a scrubbed frame is free and reads zero, no other byte changed. A pool move between HBM and LPDDR copies its frame,
maps the new one in its place and quarantines the old. A page move that is done leaves the list, and one from HBM is
counted as aged. A page frame whose quarantine is over returns to FREE, or stays with KV_QUAR_HOLD raised while a
read resolved before is still held. -/
def Obligations.FrameEvents : Prop :=
  ∀ (s : State) (f : Nat), s.canon = true →
    (∀ b, s.frame f = .quarantine b → b + 2 ≤ s.beat ∨ s.bt.st = .detached → ∃ t, exec (.framePoolReturn f) s = .next t ∧ t.frame f = .scrub ∧
      (∀ g, g ≠ f → t.frame g = s.frame g) ∧ ({ t with frames := s.frames } : State) = s) ∧
    (∀ b, s.frame f = .quarantine b → s.beat < b + 2 → s.bt.st ≠ .detached → exec (.framePoolReturn f) s = .next s) ∧
    (s.frame f = .scrub → ∃ t, exec (.frameScrub f) s = .next t ∧ t.frame f = .free ∧
      (∀ g, g ≠ f → t.frame g = s.frame g) ∧ (∀ pa, pa / 2 ^ 21 = f → t.pbyte pa = 0) ∧
      (∀ pa, pa / 2 ^ 21 ≠ f → t.pbyte pa = s.pbyte pa) ∧
      t.get Reg.SEC_SCRUBBED_COUNT = (s.get Reg.SEC_SCRUBBED_COUNT + 1) % 2 ^ 64) ∧
    (∀ c vf m tier g, s.allMaps.find? (fun e => e.2.2.frame == f && e.2.2.moving.isSome) = some (c, vf, m) →
      m.moving = some (tier, g) → tier ≠ .flash → m.tier ≠ .flash → g ≠ f → ∃ t, exec (.poolMoveDone f) s = .next t ∧
      Tab.get none (t.ctx c).maps vf = some { m with frame := g, tier := tier, moving := none } ∧
      t.frame f = .quarantine s.beat ∧ (∀ k, k < 2 ^ 21 → t.pbyte (g * 2 ^ 21 + k) = s.pbyte (f * 2 ^ 21 + k)) ∧
      (∀ pa, pa / 2 ^ 21 ≠ g → t.pbyte pa = s.pbyte pa)) ∧
    (∀ c r m, s.roots = some (c, r) → s.pages.moves.find? (fun m => m.lpddr == (f % 2 == 1) && m.src == f / 2) = some m → ∃ t,
      exec (.kvMoveDone f) s = .next t ∧ t.pages.moves = s.pages.moves.erase m ∧ t.strands = s.strands ∧
      (f % 2 = 0 → t.get Reg.KVP_AGED_COUNT = (s.get Reg.KVP_AGED_COUNT + 1) % 2 ^ 64)) ∧
    (∀ c r, s.roots = some (c, r) → f / 2 < r.extent (f % 2) → s.quarDue (f % 2) (f / 2) = true →
      (s.resolvedBefore (f % 2) (f / 2) (s.frBeat (f % 2) (f / 2)) = true → ∃ t, exec (.kvQuarantineRelease f) s = .next t ∧
        t.mem = s.mem ∧ s.raised t 0x0407 (s.quarHeld r) 0xFF ∧ t.get Reg.KVP_STATUS_QUAR_HOLD = 1) ∧
      (s.resolvedBefore (f % 2) (f / 2) (s.frBeat (f % 2) (f / 2)) = false →
        exec (.kvQuarantineRelease f) s = .next (s.setRec (f % 2) (f / 2) 0 0 0 0 s.beat)))

/-- SHARE, FREE and PROMOTE are performed from the command ring (R285, R286, R287, R299). When the doorbell exceeds the
consumer count, the next record's command counts it and increments its done object and leaves strands and
connections alone; a bad record sets CMD, raises its event and changes no page; a good FREE adds its blocks to the
pages to free. -/
def Obligations.PageCommands : Prop :=
  ∀ (s : State) (c k : Nat) (r : Roots) (x : RingRec) (i : Instr), s.canon = true → s.roots = some (c, r) →
    k = s.get Reg.KVP_CMD_CONS_K → x = s.ringRec c r k → 0 < r.ringN → k < (s.obj r.doorbell).count.toNat →
    ringRow x.op = some i → ∃ t, exec i s = .next t ∧ t.get Reg.KVP_CMD_CONS_K = (k + 1) % 2 ^ 32 ∧ s.signals t x.done ∧
      t.strands = s.strands ∧ t.conns = s.conns ∧
      (s.badRecord r x = true → t.get Reg.KVP_STATUS_CMD = 1 ∧ t.pages = s.pages ∧
        ((s.obj x.done).count.toNat + 1 < 2 ^ 32 → s.raised t 0x0406 (k % r.ringN) 0xFF)) ∧
      (s.badRecord r x = false → x.op = 2 →
        t.pages = { s.pages with frees := s.pages.frees ++ (List.range x.count).map (fun n => (x.src, x.first + n)) })

/-- Lock, holdover, time-outs and silences of the beat unit (R53, R56, R57, R58, R71, R475, R476, R480, R540). In
ACQUIRE, 16 good beats lock; in LOCKED, a guard without a usable marker goes to HOLDOVER (not at the reference);
4,096 beats of acquiring end DETACHED with BT_ACQUIRE_FAIL and the largest offset of the last beat, and end a
JOB_START in progress with RESULT 6. A peer silent in the guard raises MARKER_MISS once a run. Eight lost peers, an
offset beyond the limit twice and a late join ask, where no self-fence is pending or done, for the device's fence
with causes 1, 2 and 14; a silent watched node is proposed. That a lock during a join raises no event is part of
R71's reading (log 75). -/
def Obligations.BeatUnitEvents : Prop :=
  ∀ (s : State), s.canon = true →
    (s.bt.st = .acquire → 16 ≤ s.bt.lockRun → ∃ t, exec .beatLock s = .next t ∧ t.bt = { s.bt with st := .locked } ∧
      (s.svc.mbox.job = none → s.raised t 0x0101 ((s.bt.refNode.map (·.toNat)).getD 0) 0xFF)) ∧
    (s.bt.st = .locked → s.bt.inGuard = true → s.bt.usable = false → s.bt.refNode ≠ some (BitVec.ofNat 15 s.node) →
      exec .holdoverEntry s = .next { s with bt := { s.bt with st := .holdover } }) ∧
    (s.bt.st = .acquire → 4096 ≤ s.bt.acquireBeats → ∃ t, exec .acquireTimeout s = .next t ∧ t.bt.st = .detached ∧
      t.bt.count = s.bt.count ∧ (s.svc.mbox.job = none → s.raised t 0x010A (min s.bt.offLast (2 ^ 32 - 1)) 0xFF) ∧
      (∀ c o, s.svc.mbox.job = some (.jobStart c o) → t.svc.mbox.st = .done ∧ t.svc.mbox.result = 6 ∧
        (t.ctx c).job = none)) ∧
    (∀ (p : Fin 17) q, s.bt.inGuard = true → s.peer p.val = some q → q.heard = false → ∃ t,
      exec (.markerSilence p) s = .next t ∧ t.get Reg.BT_STATUS_MARKER_MISS = 1 ∧
      (q.missSent = false → s.raised t 0x0109 p.val 0xFF ∧ t.peer p.val = some { q with missSent := true }) ∧
      (q.missSent = true → t.svc = s.svc ∧ t.bt = s.bt)) ∧
    (s.bt.inGuard = true → 8 ≤ s.lostPeers → s.flt.selfCause = none → s.flt.fencedSelf = false →
      exec .markerLoss s = .next { s with flt := { s.flt with selfCause := some 1 } }) ∧
    (s.bt.st ≠ .detached → 2 ≤ s.bt.offHighRun → s.flt.selfCause = none → s.flt.fencedSelf = false →
      exec .offsetLimit s = .next { s with flt := { s.flt with selfCause := some 2 } }) ∧
    (∀ (node : BitVec 15) (k : Nat) (q : Peer), s.portOf node.toNat = some k → s.peer k = some q → q.watched = true →
      (q.alive = false ∨ q.unreach = true) → 1 ≤ q.silent → s.watching = true → s.bt.inGuard = true →
      s.isFenced node.toNat = false → node.toNat ∉ s.flt.proposed → exec (.watchSilence node) s =
        .next { s with flt := { s.flt with proposed := s.flt.proposed ++ [node.toNat] } }) ∧
    (∀ c order j, s.svc.mbox.job = some (.jobStart c order) → (s.ctx c).job = some j → s.bt.st ≠ .detached →
      j.startBeat ≤ s.beat + 16 → j.late = false → s.flt.selfCause = none → s.flt.fencedSelf = false → ∃ t,
      exec .joinDeadline s = .next t ∧ t.flt.selfCause = some 14 ∧ s.raised t 0x0B06 order 0xFF ∧
      (t.ctx c).job = some { j with late := true })

/-- The guard opens or stretches the beat; the device fences itself (R49, R64, R65, R67, R68, R477, R480, R499). At the
guard of a beat that is to be stretched, not stretched yet and in no fence window, the stretch is granted: counted,
with its event, and against the limit unless it was asked for in a supply guard. Otherwise the guard opens and the
fences whose quorum names this beat become due. A self-fence stops every enabled strand that has not halted, closes
every connection, drops prefetches and collectives and detaches, at the boundary that opens the next beat; one with
cause 11 takes the main rails down and loses memory and strands but no flash generation. -/
def Obligations.GuardAndSelfFence : Prop :=
  ∀ (s : State), s.canon = true →
    (s.bt.st ≠ .detached → s.bt.inGuard = false →
      (∀ n, s.stretchNow = some n → s.bt.stretched = false → s.fenceWindow = false → ∃ t, exec .guardStart s = .next t ∧
        t.bt = { s.bt with stretched := true, runStretch := if n.exempt then s.bt.runStretch else s.bt.runStretch + 1 } ∧
        t.get Reg.BT_STRETCH_GRANTED = (s.get Reg.BT_STRETCH_GRANTED + 1) % 2 ^ 32 ∧ s.raised t 0x0104 n.node 0xFF) ∧
      (s.stretchNow = none ∨ s.bt.stretched = true ∨ s.fenceWindow = true → ∃ t, exec .guardStart s = .next t ∧
        t.bt.inGuard = true ∧ t.bt.count = s.bt.count ∧ t.flt.due = (s.flt.quorum.filter (fun q =>
          q.2.1 == s.beat32 && !s.isFenced q.1 && q.1 != s.node)).map (fun q => (q.1, q.2.2)))) ∧
    (∀ cause, s.flt.selfCause = some cause → ∃ t, exec .selfFencing s = .next t ∧ t.flt.selfCause = none ∧
      t.bt.st = .detached ∧ t.pending = s.pending ∧
      (cause ≠ 11 → t.flt.fencedSelf = true ∧ t.get Reg.FLT_STATUS_SELF = 1 ∧
        t.bt.count = (if s.bt.st = .detached then s.bt.count else s.bt.count + 1) ∧
        (∀ a, (s.strand a).enabled = true → (s.strand a).st ≠ .idle → (t.strand a).st = .stopped) ∧ t.openConns = [] ∧ t.prefetches = [] ∧
        t.colls = [] ∧ (s.svc.st ≠ .standby → s.svc.st ≠ .unusable → t.svc.st = .selfFenced)) ∧
      (cause = 11 → t.pins.rails = false ∧ t.mem = [] ∧ t.strands = [] ∧ t.gens = s.gens ∧
        (s.svc.st ≠ .unusable → t.svc.st = .standby)))

/-- A boundary opens the next beat (R64, R65, R69, R80, R385, R386, R389, R477, R492, R510, R540). A boundary that a
stretch holds back does not open. The boundary command of the kind that is due opens the next beat: beat and heart
are counted, the guard is over, the power is recorded. The end of a switch and a first entry record the residence;
the context of a first entry runs with entry 0 of its job where no role mask is set, and does not start where one is
set and its image has no record for it. A fence boundary commits the fences due, and ends a planned removal
detached. A step end outside a fence, a stop and a spare's wait records step, verdict and action, and advances the
step on COMMIT only. -/
def Obligations.BoundaryOpens : Prop :=
  ∀ (s : State) (w : BitVec 16) (k : BoundaryKind) (i : Instr), s.canon = true → boundaryRow w k = some i →
    (∀ n, s.bt.st ≠ .detached → s.bt.inGuard = false → s.stretchNow = some n → s.bt.stretched = false →
      s.fenceWindow = false → ∃ t, exec i s = .next t ∧ t.bt.count = s.bt.count ∧ t.bt.stretched = true ∧
      t.strands = s.strands) ∧
    (s.bt.inGuard = true → s.boundaryKind = some k → ∃ t, exec i s = .next t ∧ t.bt.count = s.bt.count + 1 ∧
      t.bt.heart = s.bt.heart + 1 ∧ t.bt.inGuard = false ∧ t.pending = s.pending ∧
      (s.flt.removal ≠ 2 → t.get Reg.PWR_POWER_WATTS = w.toNat) ∧
      (k = .switchEnd → t.get Reg.SEC_RESIDENT_SINCE = (s.bt.count + 1).toNat % 2 ^ Reg.SEC_RESIDENT_SINCE.w) ∧
      (∀ c, k = .firstEntry → s.firstJob = some c →
        t.get Reg.SEC_RESIDENT_SINCE = (s.bt.count + 1).toNat % 2 ^ Reg.SEC_RESIDENT_SINCE.w ∧
        ((s.fltOf c).roleMask = 0 → t.running = some c ∧ (t.ctx c).entries = 0 ∧
          (t.ctx c).job.any (fun j => j.entered) = true) ∧
        ((s.fltOf c).roleMask ≠ 0 → (∀ o ∈ survivorOvls ((s.ctx c).image.getD []), fld o.head 0 2 ≠ (s.fltOf c).roleMask) →
          t.running ≠ some c ∧ (t.ctx c).job = none)) ∧
      (k = .fence → (s.flt.due ≠ [] → t.get Reg.FLT_STATUS_DEV_FENCE = 1 ∧ t.flt.due = []) ∧
        (s.flt.removal = 2 → t.flt.removal = 3 ∧ t.bt.st = .detached)) ∧
      (∀ c v, k = .stepEnd → s.atStepEnd = true → s.running = some c → (s.ctx c).job.any (fun j => j.spare) = false →
        s.flt.stop = false → s.coresDue = false → s.step.reduced = some v → actionOf v ≠ .replay →
        t.get Reg.UE_LAST_STEP = s.ueStep ∧ t.get Reg.UE_LAST_VERDICT = v.toNat ∧
        t.get Reg.UE_LAST_ACTION = stepActionCode (actionOf v) ∧
        (s.sec.switchTo = none → s.spareWaiting = none →
          t.ueStep = if actionOf v = .commit then (s.ueStep + 1) % 2 ^ 32 else s.ueStep)))

/-- Shadow checks, hangs and overruns (R60, R62, R63, R67, R384, R470, R472, R473, R501). A mismatch in a sampled
segment (by core, strand and parity) contributes REPLAY, is counted and raises SHADOW_FAIL and its record is kept;
with a record of the strand from an earlier entry it decides the core's fence with cause 2 instead. A match clears
its own record and changes nothing else. A strand whose overrun has lasted the limit asks, where no self-fence is
pending or done, for the device's fence with cause 9. A segment overrun is raised and asks for a stretch, in a
supply guard or while the image and the limit allow; otherwise it contributes REPLAY, at the limit with
STRETCH_LIMIT. -/
def Obligations.FaultEvents : Prop :=
  ∀ (s : State) (a : Site), s.canon = true →
    (∀ (seg : BitVec 28) (before now : Bool), s.running.isSome = true → s.step.active = true →
      s.sampled a seg.toNat = true → seg.toNat ≤ (s.strand a).seg.toNat →
      before = (s.group (groupOf a.core.val)).shadow.any (fun e => e.1 % 384 == siteKey a && e.2 != s.entriesNow) →
      now = s.replayRecord a seg.toNat →
      (∃ t, exec (.shadowCheck ⟨a, seg⟩ true) s = .next t ∧ t.step.contrib.getLsbD 1 = true ∧ t.mem = s.mem ∧
        t.strands = s.strands ∧ t.get Reg.FLT_SHADOW_COUNT = (s.get Reg.FLT_SHADOW_COUNT + 1) % 2 ^ 64 ∧
        (before = false → s.raised t 0x0904 (a.core.val + a.strand.val * 2 ^ 7) a.core.val ∧ t.cores = s.cores ∧
          (t.group (groupOf a.core.val)).shadow.any (fun e => e.1 == siteKey a + 384 * seg.toNat) = true) ∧
        (before = true → (t.group (groupOf a.core.val)).shadow.any (fun e => e.1 % 384 == siteKey a) = false ∧
          ((s.core a.core.val).fenceDecided = none → s.flt.fenced.getLsbD a.core.val = false →
            (t.core a.core.val).fenceDecided = some 2))) ∧
      (∃ t, exec (.shadowCheck ⟨a, seg⟩ false) s = .next t ∧ ({ t with groups := s.groups } : State) = s ∧
        t.replayRecord a seg.toNat = false ∧ (now = false → t.groups = s.groups))) ∧
    ((s.strand a).st = .run → s.frozen a = false → (s.strand a).overrun = true → max 8 (s.get Reg.FLT_CFG_HANG) ≤ (s.strand a).overBeats →
      s.flt.selfCause = none → s.flt.fencedSelf = false → ∃ t, exec (.hangDetect a) s = .next t ∧
      t.flt.selfCause = some 9 ∧ ({ t with flt := s.flt } : State) = s) ∧
    (∀ cycles, s.running.isSome = true → s.step.active = true → s.owes (s.strand a) = true → (s.strand a).beatReq = false →
      ∃ t, exec (.segmentOverrun a cycles) s = .next t ∧ (t.strand a).overrun = true ∧
      (∀ b, b ≠ a → t.strand b = s.strand b) ∧ t.get Reg.BT_STATUS_OVERRUN = 1 ∧ t.bt.slackMin.map (·.1) = some 0 ∧
      (s.flt.guard = true ∨ (imgOvrFault s.img = false ∧ s.bt.runStretch < s.stretchLimit) → t.bt.ownReq = true ∧
        t.step = s.step ∧ s.raised t 0x0103 (a.strand.val + cycles.toNat * 2 ^ 16) a.core.val) ∧
      (s.flt.guard = false → imgOvrFault s.img = true → t.step.contrib.getLsbD 1 = true ∧ t.bt.ownReq = s.bt.ownReq ∧
        s.raised t 0x0103 (a.strand.val + cycles.toNat * 2 ^ 16) a.core.val) ∧
      (s.flt.guard = false → imgOvrFault s.img = false → s.stretchLimit ≤ s.bt.runStretch →
        t.step.contrib.getLsbD 1 = true ∧ t.newest = some (s.eventRec 0x0106 s.bt.runStretch 0xFF)))

/-- Temperature reports, over-temperature, and background flash work (R407, R408, R426, R427, R431, R563, R564). A
report sets temperature, threshold, peak and level, with the event when the level changes; the level rises at once
and counts sixteen hot beats; sixteen hot beats ask for the device's fence with cause 6, a junction at 105 C with
cause 16 (where no self-fence is pending or done). Background work adds to the flash counters, lowers the spares,
never lowers the wear, and makes the tier read-only when the last spare is gone; memory and flash keep their bytes. -/
def Obligations.ThermalEvents : Prop :=
  (∀ (s : State), s.canon = true →
    (∀ (stack : Fin 8) (temp thresh : Byte) h j old new, h = stack.val / 2 → j = stack.val % 2 →
      old = s.get Reg.MT_THERM_LEVEL h j → new = nextLevel old temp.toNat thresh.toNat → ∃ t,
      exec (.hbmTempReport stack temp thresh) s = .next t ∧ t.get Reg.MT_THERM_LEVEL h j = new ∧
      t.get Reg.MT_THERM_TEMP h j = temp.toNat ∧ t.get Reg.MT_THERM_THRESH h j = thresh.toNat ∧
      t.get Reg.MT_THERM_PEAK h j = max temp.toNat (s.get Reg.MT_THERM_PEAK h j) ∧ t.throttle = s.throttle ∧
      (old = new → t.svc = s.svc) ∧
      (old ≠ new → t.get Reg.MT_STATUS_THROTTLE h = 1 ∧
        s.raised t 0x0701 (stack.val + new * 2 ^ 3 + temp.toNat * 2 ^ 8) 0xFF) ∧
      (old ≤ throttleLevel temp.toNat thresh.toNat → new = throttleLevel temp.toNat thresh.toNat) ∧
      Tab.get 0 t.hotBeats stack.val =
        (if thresh.toNat + 15 ≤ temp.toNat then Tab.get 0 s.hotBeats stack.val + 1 else 0)) ∧
    (∀ (stack : Fin 8), 16 ≤ Tab.get 0 s.hotBeats stack.val → s.flt.selfCause = none → s.flt.fencedSelf = false → ∃ t,
      exec (.stackOvertemp stack) s = .next t ∧ t.flt.selfCause = some 6 ∧
      s.raised t 0x0702 (stack.val + s.get Reg.MT_THERM_TEMP (stack.val / 2) (stack.val % 2) * 2 ^ 8) 0xFF) ∧
    (∀ tj : Byte, ∃ t, exec (.junctionLimit tj) s = .next t ∧ t.get Reg.PWR_THERM_TJ = tj.toNat ∧
      (105 ≤ tj.toNat → s.pins.rails = true → s.flt.selfCause = none → s.flt.fencedSelf = false →
        t.flt.selfCause = some 16 ∧ t.get Reg.PWR_STATUS_HOT = 1 ∧ s.raised t 0x0B72 tj.toNat 0xFF) ∧
      (tj.toNat < 105 → t.flt = s.flt ∧ t.svc = s.svc))) ∧
  (∀ (s : State) (hub3 : Bool) (reclaimed retired refreshed written : Nat) (h : Nat), s.canon = true → h = hub3.toNat → ∃ t,
    exec (.ftlBackgroundWork hub3 reclaimed retired refreshed written) s = .next t ∧
    t.get Reg.MT_FTL_SPARE_BLOCKS h = s.get Reg.MT_FTL_SPARE_BLOCKS h - retired ∧
    t.get Reg.MT_FTL_RETIRED_COUNT h = (s.get Reg.MT_FTL_RETIRED_COUNT h + retired) % 2 ^ Reg.MT_FTL_RETIRED_COUNT.w ∧
    t.get Reg.MT_FTL_REFRESH_COUNT h = (s.get Reg.MT_FTL_REFRESH_COUNT h + refreshed) % 2 ^ Reg.MT_FTL_REFRESH_COUNT.w ∧
    t.get Reg.MT_FTL_WRITTEN_COUNT h = (s.get Reg.MT_FTL_WRITTEN_COUNT h + written) % 2 ^ Reg.MT_FTL_WRITTEN_COUNT.w ∧
    s.get Reg.MT_FTL_WEAR_PCT h ≤ t.get Reg.MT_FTL_WEAR_PCT h ∧
    (s.get Reg.MT_FTL_SPARE_BLOCKS h - retired = 0 → 0 < s.get Reg.MT_FTL_SPARE_BLOCKS h →
      t.get Reg.MT_FTL_WEAR_READONLY h = 1 ∧ t.newest = some (s.eventRec 0x0708 h 0xFF)) ∧
    t.mem = s.mem ∧ t.flash = s.flash ∧ t.strands = s.strands)

/-- DATA, SOINC, COLL and NREQ frames are applied once and in order, or dropped (R438, R439, R441, R442, R443, R444,
R455, R459). The next frame of a connection, authenticated, of the running context and its epoch, is applied and the
connection advances: a DATA frame's bytes are written; a SOINC adds to its object, but one of amount 1 from a holder
of a dispatch that waits on that object is kept with the dispatch (R306); a contribution of a COLL not yet reached
is held, a result also forwarded at once to this node's children; bytes of a pool gather under way are written at
their place and counted as landed; a page request is answered by a frame sent or waiting. A frame that fails
authentication is counted, sixteen of them close the connection with SESSION_LOST; one without its connection is
counted; one of another context applies nothing; one of another epoch or already seen is counted and applies
nothing. -/
def Obligations.DataFrames : Prop :=
  (∀ (s : State) (h : Hdr) (i c : Nat), s.canon = true → i = h.dcid.toNat → c = (s.conn i).ctx → s.rxNextFrame h →
    (∀ addr bytes row, ∃ t, exec (.dataReceive h addr bytes row) s = .next t ∧
      (t.conn i).rxNext = (h.psn.toNat + 1) % 2 ^ 32 ∧ t.strands = s.strands ∧
      (row = none → t.so = s.so ∧
        s.memGets t c bytes.length (fun k => addr.toNat + k) (fun k => bytes.getD k 0))) ∧
    (∀ index amount, ∃ t, exec (.soincFrameReceive h index amount) s = .next t ∧ t.mem = s.mem ∧ t.strands = s.strands ∧
      (t.conn i).rxNext = (h.psn.toNat + 1) % 2 ^ 32 ∧ (∀ j, j ≠ index.toNat → t.obj j = s.obj j) ∧
      (amount.toNat ≠ 1 ∨ s.dispOf c h.snode.toNat index.toNat = none → t.groups = s.groups ∧
        t.obj index.toNat = { s.obj index.toNat with
          count := BitVec.ofNat 32 (min ((s.obj index.toNat).count.toNat + amount.toNat) 0xFFFFFFFF) }) ∧
      (∀ g d, amount.toNat = 1 → s.dispOf c h.snode.toNat index.toNat = some (g, d) → t.so = s.so ∧
        { d with early := d.early ++ [h.snode.toNat] } ∈ (t.group g).disps)) ∧
    (∀ x r, s.plan x.plan.toNat = some r → s.coll x.plan.toNat x.step.toNat = none → x.result = false → ∃ t,
      exec (.collFrameReceive h x) s = .next t ∧ t.collHeld = s.collHeld ++ [(h.snode.toNat, x)] ∧ t.mem = s.mem ∧
      t.so = s.so ∧ t.strands = s.strands ∧ (t.conn i).rxNext = (h.psn.toNat + 1) % 2 ^ 32) ∧
    (∀ x r, s.plan x.plan.toNat = some r → s.coll x.plan.toNat x.step.toNat = none → x.result = true →
      (∀ e ∈ s.collHeld, ¬ (e.2.plan = x.plan ∧ e.2.step = x.step ∧ e.2.item = x.item ∧ e.2.offset = x.offset)) → ∃ t,
      exec (.collFrameReceive h x) s = .next t ∧ t.collHeld = s.collHeld ++ [(h.snode.toNat, x)] ∧ t.mem = s.mem ∧
      t.so = s.so ∧ t.strands = s.strands ∧ (t.conn i).rxNext = (h.psn.toNat + 1) % 2 ^ 32 ∧
      ∀ n ∈ s.children c r x.step.toNat x.item, s.isFenced n = false →
        (∃ f ∈ t.sent, f.ty = 0x03 ∧ f.dnode = n ∧ f.payload = x.payload) ∨
        ∃ w ∈ t.waitSends, w.frame.ty = 0x03 ∧ w.node = n ∧ w.frame.payload = x.payload) ∧
    (∀ x r o p, s.plan x.plan.toNat = some r → s.coll x.plan.toNat x.step.toNat = some o → r.kind = 3 →
      imgPool s.img = some p → (∀ q ∈ imgPlans s.img, q.kind ≠ 4) → o.waiting = false → o.complete = false →
      x.result = true → (x.item, x.offset) ∉ o.seen → x.offset ≠ 0 → ∃ t,
      exec (.collFrameReceive h x) s = .next t ∧ (t.conn i).rxNext = (h.psn.toNat + 1) % 2 ^ 32 ∧ t.so = s.so ∧
      t.strands = s.strands ∧
      (t.coll x.plan.toNat x.step.toNat).map (·.landed) = some (o.landed + x.payload.length) ∧
      s.memGets t c x.payload.length (fun k => p.vbase + r.entry * p.esize + x.item * r.shardBytes + x.offset + k)
        (fun k => x.payload.getD k 0)) ∧
    (∀ slot layer head block tag, s.roots.isSome = true → ∃ t, exec (.nreqReceive h slot layer head block tag) s = .next t ∧
      (t.conn i).rxNext = (h.psn.toNat + 1) % 2 ^ 32 ∧ t.strands = s.strands ∧ t.so = s.so ∧
      ((∃ f ∈ t.sent, f.ty = 0x05 ∧ f.dnode = h.snode.toNat) ∨
        ∃ w ∈ t.waitSends, w.frame.ty = 0x05 ∧ w.node = h.snode.toNat))) ∧
  (∀ (s : State) (h : Hdr) (addr : W64) (bytes : List Byte) (row : Option RowInfo) (i : Nat), s.canon = true →
    i = h.dcid.toNat → s.isFenced h.snode.toNat = false → ∃ t, exec (.dataReceive h addr bytes row) s = .next t ∧
    (h.auth = false → t.mem = s.mem ∧ t.so = s.so ∧
      t.get Reg.FAB_AUTH_DROP_COUNT = (s.get Reg.FAB_AUTH_DROP_COUNT + 1) % 2 ^ 64 ∧
      ((s.conn i).opened = true → (s.conn i).authFails + 1 < 16 →
        t.conn i = { s.conn i with authFails := (s.conn i).authFails + 1 }) ∧
      ((s.conn i).opened = true → 16 ≤ (s.conn i).authFails + 1 → (t.conn i).opened = false ∧
        (t.conn i).dgen = (s.conn i).dgen + 1 ∧ s.raised t 0x0804 ((s.conn i).peer + i * 2 ^ 16) 0xFF)) ∧
    (h.auth = true → s.rxConn h = none → t.mem = s.mem ∧ t.conns = s.conns ∧
      t.get Reg.FAB_DUP_DROP_COUNT = (s.get Reg.FAB_DUP_DROP_COUNT + 1) % 2 ^ 64) ∧
    (h.auth = true → s.rxConn h = some i → s.running ≠ some (s.conn i).ctx → t.mem = s.mem ∧ t.so = s.so ∧
      (t.conn i).rxNext = (s.conn i).rxNext) ∧
    (h.auth = true → s.rxConn h = some i → s.running = some (s.conn i).ctx →
      h.epoch.toNat ≠ (s.ctx (s.conn i).ctx).entries % 256 ∨ (s.conn i).seen h.psn.toNat = true → t.mem = s.mem ∧
      t.so = s.so ∧ (t.conn i).rxNext = (s.conn i).rxNext ∧
      t.get Reg.FAB_DUP_DROP_COUNT = (s.get Reg.FAB_DUP_DROP_COUNT + 1) % 2 ^ 64))

/-- Count, grant and page-response frames (R277, R296, R297, R306, R311, R312, R321). A count frame that is not the last
of its round is kept with its holder and nothing else changes; one that does not match sets RT_STATUS.MISMATCH,
raises its event and asks, where no self-fence is pending or done, for the device's fence with cause 7. A grant is
kept with its dispatch and its holder no longer awaited, while others are. A failed page response is counted and
raised and its tag no longer awaited, while others are; one that is not its last frame changes no memory and no
object and keeps the tags. -/
def Obligations.RoutingFrames : Prop :=
  ∀ (s : State) (h : Hdr) (c : Nat), s.canon = true → c = (s.conn h.dcid.toNat).ctx → s.rxNextFrame h →
    (∀ f q, q = s.holderFor f → q.mismatch f = false →
      (q.frames ++ [(h.snode.toNat, f)]).countP (fun e => e.2.round == q.round) < q.first.members → ∃ t,
      exec (.dcountReceive h f) s = .next t ∧ t.mem = s.mem ∧ t.so = s.so ∧ t.strands = s.strands ∧
      (∀ k, { t.group k with holders := (s.group k).holders } = s.group k) ∧
      t.holder f.did.toNat = some { q with frames := q.frames ++ [(h.snode.toNat, f)] }) ∧
    (∀ f q, q = s.holderFor f → q.mismatch f = true → s.flt.selfCause = none → s.flt.fencedSelf = false → ∃ t,
      exec (.dcountReceive h f) s = .next t ∧ t.mem = s.mem ∧ t.flt.selfCause = some 7 ∧ t.get Reg.RT_STATUS_MISMATCH = 1 ∧
      s.raised t 0x0503 (f.did.toNat + h.snode.toNat * 2 ^ 16) 0xFF) ∧
    (∀ f g d rest, s.allDisps.find? (fun e => e.2.head.did == f.did.toNat && e.2.head.pos == f.pos && e.2.head.dir == 0
        && e.2.round == f.round && e.2.waitHolders.contains f.holder.toNat) = some (g, d) →
      rest = d.waitHolders.erase f.holder.toNat → rest ≠ [] → ∃ t, exec (.dgrantReceive h f) s = .next t ∧ t.mem = s.mem ∧
      { d with grants := d.grants ++ [f], waitHolders := rest } ∈ (t.group g).disps) ∧
    (∀ tag offset pad bytes a k c r, s.tagOwner tag.toNat = some a → s.roots = some (c, r) →
      (s.strand a).held = some k → h.last = true → k.tags.filter (fun e => e.1 != tag.toNat) ≠ [] → ∃ t,
      exec (.nrespReceive h tag offset pad true false bytes) s = .next t ∧ t.mem = s.mem ∧
      (t.strand a).held.map (·.tags) = some (k.tags.filter (fun e => e.1 != tag.toNat)) ∧
      (t.strand a).st = (s.strand a).st ∧
      t.get Reg.KVP_REMOTE_FAIL_COUNT = (s.get Reg.KVP_REMOTE_FAIL_COUNT + 1) % 2 ^ 64 ∧
      s.raised t 0x0408 h.snode.toNat 0xFF) ∧
    (∀ tag offset pad fail full bytes a k c r, s.tagOwner tag.toNat = some a → s.roots = some (c, r) →
      (s.strand a).held = some k → h.last = false → ∃ t,
      exec (.nrespReceive h tag offset pad fail full bytes) s = .next t ∧ t.mem = s.mem ∧ t.so = s.so ∧
      (t.strand a).held.map (·.tags) = some k.tags ∧ (∀ b, b ≠ a → t.strand b = s.strand b))

/-- ACK, CONNECT, ACCEPT and CLOSE frames, and the timers of a connection (R438, R439, R440, R442, R444, R445, R446,
R447, R459, R463, R515). While nothing waits to be sent: an ACK removes what it acknowledges and changes no other
connection; with NOTRUN it sets MISMATCH, raises its event and asks, where no self-fence is pending or done, for the
device's fence with cause 8. CLOSE resets its connection and advances its DGEN. A good CONNECT opens the lowest free
connection with the sender's ID and generation and the sessions of node and context, and an ACCEPT with this one's
answers it; one with a bad certificate opens nothing and raises SESSION. A good ACCEPT opens the connection that
waits for it. An ACK that is due is sent once with the next PSN and the bitmap and is due no more. A rekey gives the
session new keys and is counted. A time-out sends the packet again, with a new XSN, on another port and counts it;
after the limit of tries it raises RETX_LIMIT, marks the peer unreachable and goes on; with no port it does nothing.
That a CONNECT carries its generation in ADDR is the model's choice (log 72). -/
def Obligations.ConnectionFrames : Prop :=
  (∀ (s : State) (h : Hdr) (i : Nat), s.canon = true → i = h.dcid.toNat → s.waitSends = [] →
    (∀ next bitmap, s.rxControlOk h → ∃ t, exec (.ackReceive h next bitmap false) s = .next t ∧
      t.conn i = { s.conn i with
        authFails := 0, lastBeat := s.beat
        unacked := (s.conn i).unacked.filter (fun p => !acked next.toNat bitmap p.frame.psn) } ∧
      (∀ j, j ≠ i → t.conn j = s.conn j) ∧ t.strands = s.strands ∧ t.sent = s.sent ∧ t.mem = s.mem ∧
      (s.allDisps = [] → t.so = s.so)) ∧
    (∀ next bitmap, s.rxControlOk h → s.flt.selfCause = none → s.flt.fencedSelf = false → ∃ t,
      exec (.ackReceive h next bitmap true) s = .next t ∧ t.flt.selfCause = some 8 ∧ t.get Reg.FAB_STATUS_MISMATCH = 1 ∧
      s.raised t 0x0807 ((s.conn i).peer + (s.conn i).ctx * 2 ^ 16) 0xFF) ∧
    (s.rxControlOk h → ∃ t, exec (.closeReceive h) s = .next t ∧
      t.conn i = { Conn.reset with dgen := (s.conn i).dgen + 1 } ∧ (∀ j, j ≠ i → t.conn j = s.conn j) ∧ t.so = s.so ∧
      t.mem = s.mem) ∧
    (∀ (ctx : BitVec 4) theirs port k, s.isFenced h.snode.toNat = false → s.bt.st ≠ .detached →
      (s.ctx ctx.toNat).st ≠ .free → s.connOf ctx.toNat h.snode.toNat = none → s.freeConn = some (k, false) →
      s.portFor (controlFrame 0x0A h.snode.toNat 0 0 0) = some port → ∃ (t : State) (f : Frame),
      exec (.connectReceive h ctx theirs true) s = .next t ∧
      t.conn k = { Conn.reset with
        opened := true, peer := h.snode.toNat, ctx := ctx.toNat, theirs := theirs.toNat % 2 ^ 13
        theirGen := BitVec.ofNat 3 (theirs.toNat / 2 ^ 13), dgen := (s.conn k).dgen, lastBeat := s.beat } ∧
      (t.session h.snode.toNat (some ctx.toNat)).isSome = true ∧ (t.session h.snode.toNat none).isSome = true ∧
      t.sent = f :: s.sent ∧ f.ty = 0x0A ∧ f.port = port ∧ f.dnode = h.snode.toNat ∧ f.dcid = theirs.toNat ∧
      f.addr = BitVec.ofNat 64 (k + (s.conn k).dgen.toNat * 2 ^ 13)) ∧
    (∀ (ctx : BitVec 4) theirs, s.isFenced h.snode.toNat = false → s.bt.st ≠ .detached →
      (s.ctx ctx.toNat).st ≠ .free → ∃ t, exec (.connectReceive h ctx theirs false) s = .next t ∧ t.conns = s.conns ∧
      t.get Reg.SEC_STATUS_SESSION = 1 ∧ s.raised t 0x0A04 (h.snode.toNat + ctx.toNat * 2 ^ 15) 0xFF) ∧
    (∀ theirs, (s.conn i).pendingOpen = true → (s.conn i).peer = h.snode.toNat → (s.conn i).dgen = h.dgen →
      s.isFenced (s.conn i).peer = false → ∃ t, exec (.acceptReceive h theirs true) s = .next t ∧
      t.conn i = { s.conn i with
        opened := true, pendingOpen := false, theirs := theirs.toNat % 2 ^ 13
        theirGen := BitVec.ofNat 3 (theirs.toNat / 2 ^ 13), lastBeat := s.beat } ∧
      (t.session (s.conn i).peer (some (s.conn i).ctx)).isSome = true ∧ (∀ j, j ≠ i → t.conn j = s.conn j) ∧
      t.sent = s.sent)) ∧
  (∀ (s : State) (conn : BitVec 13) (c : Conn) (i : Nat), s.canon = true → i = conn.toNat → c = s.conn i →
    (∀ port, c.opened = true → 0 < c.ackDue → s.portFor (controlFrame 0x08 c.peer 0 0 0) = some port →
      ∃ (t : State) (f : Frame), exec (.ackTimer conn) s = .next t ∧
      t.conn i = { c with ackDue := 0, lastBeat := s.beat } ∧ t.sent = f :: s.sent ∧ f.ty = 0x08 ∧ f.dnode = c.peer ∧
      f.port = port ∧ f.dcid = c.dcid ∧ f.addr = BitVec.ofNat 64 c.rxNext ∧ f.payload = toBytes 32 c.bitmap ∧
      (∀ j, j ≠ i → t.conn j = s.conn j)) ∧
    (c.opened = false ∨ c.ackDue = 0 → exec (.ackTimer conn) s = .next s) ∧
    (∀ x, c.opened = true → s.session c.peer (some c.ctx) = some x → ∃ t, exec (.sessionRekey conn) s = .next t ∧
      t.session c.peer (some c.ctx) = some (s.newKeys c.peer (some c.ctx)) ∧
      (∀ n k, (n, k) ≠ (c.peer, some c.ctx) → t.session n k = s.session n k) ∧ t.conns = s.conns ∧ t.sent = s.sent ∧
      t.get Reg.SEC_REKEYS_COUNT = (s.get Reg.SEC_REKEYS_COUNT + 1) % 2 ^ 64) ∧
    (∀ psn p, c.unacked.find? (fun p => p.frame.psn == psn.toNat) = some p →
      (s.portAgain p.frame = none → p.limited = false → p.tries < max 1 (s.get Reg.FAB_CFG_RETX_MAX) →
        exec (.retransmitTimeout conn psn) s = .next s) ∧
      (∀ port, s.portAgain p.frame = some port → p.limited = true ∨ p.tries < max 1 (s.get Reg.FAB_CFG_RETX_MAX) →
        ∃ (t : State) (f : Frame), exec (.retransmitTimeout conn psn) s = .next t ∧ t.sent = f :: s.sent ∧
        f = { s.framed port p.frame with retx := true, xsn := (s.takeXsn c.peer (some c.ctx)).2 } ∧
        t.get Reg.FAB_RETX_COUNT = (s.get Reg.FAB_RETX_COUNT + 1) % 2 ^ 64 ∧
        { p with tries := if p.limited then p.tries else p.tries + 1, frame := f } ∈ (t.conn i).unacked ∧
        (p.limited = true → ∀ k, s.portOf c.peer = some k → (t.peer k).any (fun q => q.unreach) = true) ∧
        (p.limited = false → t.bt = s.bt)) ∧
      (p.limited = false → max 1 (s.get Reg.FAB_CFG_RETX_MAX) ≤ p.tries → ∃ t,
        exec (.retransmitTimeout conn psn) s = .next t ∧
        t.sent = s.sent ∧ t.get Reg.FAB_STATUS_RETX_LIMIT = 1 ∧ s.raised t 0x0803 c.peer 0xFF ∧
        { p with limited := true } ∈ (t.conn i).unacked ∧
        (∀ k, s.portOf c.peer = some k → (t.peer k).any (fun q => q.unreach) = true))))

/-- Ports: buffers, pauses, links, the spray set and malformed frames (R434, R435, R438, R448, R462, R464). Draining a
receive buffer to 4,096 bytes or below sends XON where XOFF had been sent; a pause and its end are noted (while
nothing waits to be sent). A link that is up with all its lanes is noted and a port that has not left and has been
clean long enough is back in the spray set; one that is down or has lost a lane leaves it at the next boundary, or
at once while DETACHED with its event, and starts its clean run again. A good port rejoins after 131,072 clean beats
with its event, else not. A malformed frame changes only counters: the bytes, FCS errors of the port and, unless of
those or untagged, the bad frames. What a frame's bytes on the wire are is in log 71. -/
def Obligations.PortEvents : Prop :=
  ∀ (s : State) (port : Fin 16) (q : Port), s.canon = true → q = s.port port.val →
    (∀ bytes, ∃ t, exec (.rxbufXon port bytes) s = .next t ∧ (t.port port.val).rxbuf = q.rxbuf - bytes ∧
      (q.rxbuf - bytes ≤ 4096 → q.xoff = true → (t.port port.val).xoff = false ∧ ∃ f : Frame, t.sent = f :: s.sent ∧
        f.ty = 0x104 ∧ f.port = port.val ∧ f.addr = 0) ∧
      (4096 < q.rxbuf - bytes ∨ q.xoff = false → t = s.setPort port.val { q with rxbuf := q.rxbuf - bytes })) ∧
    (∀ xoff, xoff = true ∨ s.waitSends = [] → ∃ t, exec (.pfcReceive port xoff) s = .next t ∧
      t.port port.val = { q with paused := xoff, pausedBeat := q.pausedBeat && xoff } ∧
      s.counts t Reg.FAB_PORT_RXBYTES_COUNT port.val 64 ∧
      (∀ p, p ≠ port.val → t.port p = s.port p) ∧ ({ t with ports := s.ports, regs := s.regs } : State) = s) ∧
    (∀ cause, ∃ t, exec (.linkStateChange port true 15 cause) s = .next t ∧ t.port port.val = { q with
      link := true, lock := 15
      spray := q.spray || (s.flag Reg.FAB_PORT_CTRL_EN port.val && q.leave.isNone && decide (131072 ≤ q.clean)) } ∧
      ({ t with ports := s.ports } : State) = s) ∧
    (∀ up lock cause, up = false ∨ lock ≠ 15 → ∃ t, exec (.linkStateChange port up lock cause) s = .next t ∧
      (t.port port.val).link = (up || (q.link && (cause != .link && cause != .disabled))) ∧ (t.port port.val).lock = lock ∧
      (t.port port.val).clean = 0 ∧
      (s.bt.st ≠ .detached → (t.port port.val).spray = q.spray ∧
        (t.port port.val).leave = some (q.leave.getD (if up then .lock else cause)) ∧ t.sent = s.sent) ∧
      (s.bt.st = .detached → (t.port port.val).spray = false ∧ (t.port port.val).leave = none ∧
        (q.spray = true → t.get Reg.FAB_STATUS_PORT_DOWN = 1 ∧
          s.raised t 0x0801 (port.val + portCauseCode (if up then .lock else cause) * 2 ^ 4) 0xFF))) ∧
    (s.portGood port.val = true → q.spray = false → 131072 ≤ q.clean → ∃ t, exec (.portRejoin port) s = .next t ∧
      t.port port.val = { q with spray := true } ∧ s.raised t 0x0802 port.val 0xFF) ∧
    (s.portGood port.val = false ∨ q.spray = true ∨ q.clean < 131072 → exec (.portRejoin port) s = .next s) ∧
    (∀ bytes why, ∃ t, exec (.badFrameReceive port ⟨bytes, why⟩) s = .next t ∧ ({ t with regs := s.regs } : State) = s ∧
      s.counts t Reg.FAB_PORT_RXBYTES_COUNT port.val bytes ∧
      s.counts t Reg.FAB_PORT_FCSERR_COUNT port.val (if why = .fcs then 1 else 0) ∧
      s.counts t Reg.FAB_BAD_DROP_COUNT 0 (if why = .fcs ∨ why = .untagged then 0 else 1))

/-- ICMP, neighbour discovery, ARP and MGMT frames (R436, R437, R456, R463). With IP enabled: an echo request is
answered on its port with its bytes; a neighbour or router message and an ARP message note the address, a router
advertisement the router, and a solicitation of this device's address is answered; no other frame is sent. A MGMT
frame that fails authentication under a session is counted and changes nothing else. From the enabled management
node an authenticated read is answered with the bytes of the window, a write of the cap is performed and answered;
any other is refused with its bit and counted and changes no register but the counters. What a refusal's data holds
is free (log 2); when the device session is there is log 74's reading. -/
def Obligations.NetworkFrames : Prop :=
  ∀ (s : State) (port : Fin 16), s.canon = true →
    (s.flag Reg.FAB_IP_CFG_EN = true →
      (∀ src bytes, ∃ (t : State) (f : Frame), exec (.icmpEchoRequest port src bytes) s = .next t ∧ t.sent = f :: s.sent ∧
        f.ty = 0x101 ∧ f.port = port.val ∧ f.payload = bytes ∧
        s.counts t Reg.FAB_PORT_RXBYTES_COUNT port.val (70 + bytes.length) ∧
        s.counts t Reg.FAB_PORT_TXBYTES_COUNT port.val (70 + bytes.length) ∧
        ({ t with sent := s.sent, regs := s.regs, ports := s.ports } : State) = s) ∧
      (∀ kind src mac, s.nvme = [] → kind.toNat ∈ [134, 135, 136] → ∃ t,
        exec (.neighbourDiscoveryReceive port kind src mac) s = .next t ∧
        t.neighbours.head? = some (src, mac) ∧ (∀ e ∈ t.neighbours, e.1 = src → e.2 = mac) ∧
        (kind = 134 → t.router = some src) ∧ (kind ≠ 134 → t.router = s.router) ∧ (kind ≠ 135 → t.sent = s.sent) ∧
        (kind = 135 → ∃ f : Frame, t.sent = f :: s.sent ∧ f.ty = 0x102 ∧ f.port = port.val)) ∧
      (∀ request src target mac, s.nvme = [] → ∃ t, exec (.arpReceive port request src target mac) s = .next t ∧
        (BitVec.ofNat 128 (mapped4 src.toNat), mac) ∈ t.neighbours ∧
        (request = true → s.ipAddr = mapped4 target.toNat → ∃ f : Frame, t.sent = f :: s.sent ∧ f.ty = 0x103 ∧
          f.port = port.val) ∧
        (request = false ∨ s.ipAddr ≠ mapped4 target.toNat → t.sent = s.sent))) ∧
    (∀ h write offset data, s.isFenced h.snode.toNat = false → h.auth = false → (s.session h.snode.toNat none).isSome = true →
      ∃ t, exec (.mgmtReceive h write offset data) s = .next t ∧ s.counts t Reg.FAB_AUTH_DROP_COUNT 0 1 ∧
      ({ t with regs := s.regs } : State) = s) ∧
    (∀ h offset data k, s.isFenced h.snode.toNat = false → s.portFor (controlFrame 0x0E h.snode.toNat 0 0 0) = some k →
      (h.auth = true → s.flag Reg.FAB_MGMT_EN = true → s.get Reg.FAB_MGMT_NODE = h.snode.toNat →
        (∃ (t : State) (f : Frame), exec (.mgmtReceive h false offset data) s = .next t ∧ t.sent = f :: s.sent ∧
          f.ty = 0x0E ∧ f.port = k ∧ f.dnode = h.snode.toNat ∧ f.aux = 0 ∧ f.addr = BitVec.ofNat 64 offset.toNat ∧
          f.payload = ((s.rxBytes h.port.val 8).addSession h.snode.toNat none).windowBytes offset.toNat 8 ∧
          t.pending = s.pending) ∧
        (s.pins.stage2 = true → ∃ (t : State) (f : Frame), exec (.mgmtReceive h true 0x020008 data) s = .next t ∧
          t.sent = f :: s.sent ∧ f.ty = 0x0E ∧ f.aux = 1 ∧ t.get Reg.PWR_CAP_WATTS = data.toNat % 2 ^ 11)) ∧
      (∀ write, h.auth = true ∨ s.session h.snode.toNat none = none →
        h.auth = false ∨ s.flag Reg.FAB_MGMT_EN = false ∨ s.get Reg.FAB_MGMT_NODE ≠ h.snode.toNat →
        ∃ (t : State) (f : Frame), exec (.mgmtReceive h write offset data) s = .next t ∧ t.sent = f :: s.sent ∧
        f.ty = 0x0E ∧ f.port = k ∧ f.aux = BitVec.ofNat 64 (write.toNat + 2) ∧ s.counts t Reg.FAB_BAD_DROP_COUNT 0 1 ∧
        ({ t with sent := s.sent, regs := s.regs, freeCounter := s.freeCounter, ports := s.ports, sec := s.sec } : State) = s))

/-- Markers and formation messages (R51, R53, R56, R66, R457, R458, R459, R460, R475, R476, R539). A marker that is not
authenticated is counted and changes neither beat unit nor faults; one with another period ends acquiring; a good
one with a measured delay within the limit is noted at its peer (heart, hops, alive while the heart moves) and, in
ACQUIRE, the first of the device's reference from a peer that is not itself without a path sets the beat, no other
does. A stretch notice that comes late asks for the fence with cause 3, a commit notice for this node with cause 13.
A formation message that differs ends the join with a RESULT; one that agrees counts its peer. -/
def Obligations.MarkersAndMessages : Prop :=
  ∀ (s : State), s.canon = true →
    (∀ (p : Fin 17) (m : Marker) (q : Peer), s.peer p.val = some q → s.bt.st ≠ .detached → s.isFenced q.node.toNat = false →
      (∃ t, exec (.markerReceive p false m) s = .next t ∧ t.bt = s.bt ∧ t.flt = s.flt ∧
        t.get Reg.FAB_AUTH_DROP_COUNT = (s.get Reg.FAB_AUTH_DROP_COUNT + 1) % 2 ^ 64) ∧
      (s.bt.st = .acquire → m.period ≠ s.bt.sel → ∃ t, exec (.markerReceive p true m) s = .next t ∧ t.bt.st = .detached) ∧
      ((s.bt.st = .acquire → m.period = s.bt.sel) →
        p.val = 16 ∨ m.turn = 0xFFFFFFFF ∨ (m.elapsed.toNat - m.turn.toNat) / 2 ≤ 3200 →
        (m.notices = [] → m.strReq = false → m.strNotice = false → ∃ (t : State) (r : Peer),
          exec (.markerReceive p true m) s = .next t ∧ t.peer p.val = some r ∧ r.node = q.node ∧ r.heard = true ∧
          r.heart = m.heart ∧ r.hops = m.hops ∧ r.answered = true ∧
          (r.alive = (q.alive || (decide (0 < (m.heart - q.heart).toNat) && decide ((m.heart - q.heart).toNat < 2 ^ 31)))) ∧
          t.flt = s.flt ∧ t.strands = s.strands ∧
          (s.bt.st = .acquire → s.bt.heardAny = false → s.bt.refNode = some m.refNode → m.refNode ≠ BitVec.ofNat 15 s.node →
            m.hops ≠ 7 → t.bt.count = m.beat ∧ t.bt.heardAny = true) ∧
          (s.bt.st ≠ .acquire ∨ s.bt.heardAny = true ∨ m.hops = 7 → t.bt.count = s.bt.count)) ∧
        (∀ node, m.notices = [] → m.strNotice = true → m.strNode = some node → s.guardBegun m.strBeat.toNat = true →
          s.bt.stretches.any (fun n => n.beat == m.strBeat.toNat) = false → s.flt.selfCause = none →
          s.flt.fencedSelf = false → s.bt.st ≠ .acquire → ∃ t, exec (.markerReceive p true m) s = .next t ∧ t.flt.selfCause = some 3 ∧
          t.get Reg.BT_STATUS_STRETCH_LATE = 1) ∧
        (∀ n, m.notices = [n] → m.strReq = false → m.strNotice = false → n.kind = 3 → n.node.toNat = s.node →
          s.flt.notices.any (fun h => h.notice == n && h.sender == q.node.toNat) = false → s.flt.selfCause = none →
          s.flt.fencedSelf = false → ∃ t, exec (.markerReceive p true m) s = .next t ∧ t.flt.selfCause = some 13))) ∧
    (∀ (peer : BitVec 15) (f : Formation) c o sp j, s.joining = some (c, o, sp) → o < 4 → (s.ctx c).job = some j →
      (∀ k, s.formationDiff c j f = some k → ∃ t, exec (.formationExchange peer f) s = .next t ∧ (t.ctx c).job = none ∧
        t.svc.mbox.job = none ∧ t.svc.mbox.result ≠ 0) ∧
      (s.formationDiff c j f = none → ∃ t, exec (.formationExchange peer f) s = .next t ∧ peer.toNat ∈ t.svc.formed))

/-- NVMe messages of a store connection (R376, R377, R460, R496). A connection is brought up in order (ICResp, Connect,
Property Get, Identify), each answer sending the next command. Data of an ingest read is gathered, and only the last
of it writes the record, ascending, counts the bytes and, for the last record of the job, increments its object. A
write of a checkpoint that ends is one less to wait for. An error status sets FAB_STATUS.NVME and the operation is
tried again on another port up to three times, then ends; memory keeps its bytes. R2T sends the range asked for.
TermReq and a bad digest end the connection, a bad digest with a TermReq. PDU and command codes are the model's (log
71). -/
def Obligations.StoreMessages : Prop :=
  ∀ (s : State) (port : Fin 16) (conn : BitVec 6) (k : Nat) (c : TcpConn), s.canon = true → k = conn.toNat →
    s.tcpConn k = some c → (∀ o ∈ s.nvme, o.conn.isSome = true) →
    (∀ pdu next, (pdu = .icResp ∧ c.phase = .icReq ∧ next = TcpPhase.connect) ∨
        (pdu = .resp none 0 ∧ ((c.phase = .connect ∧ next = .property) ∨ (c.phase = .property ∧ next = .identify) ∨
          (c.phase = .identify ∧ next = .ready))) → ∃ t,
      exec (.nvmePduReceive ⟨port, conn⟩ pdu) s = .next t ∧ t.tcpConn k = some { c with phase := next } ∧
      (∀ j, j ≠ k → t.tcpConn j = s.tcpConn j) ∧ t.nvme = s.nvme ∧ t.mem = s.mem ∧
      (next = .ready → t.sent = s.sent) ∧ (next ≠ .ready → ∃ f, t.sent = f :: s.sent ∧ f.ty = 0x100)) ∧
    (∀ op o, s.nvmeOp k op = some o →
      (∀ cx job slot dest bs, s.running = some cx → c.phase = .ready → o.payload = [] → o.use = .ingest job slot dest →
        o.got.length ≤ o.bytes → bs.length ≤ o.bytes - o.got.length → ∃ t,
        exec (.nvmePduReceive ⟨port, conn⟩ (.data op bs)) s = .next t ∧
        (o.got.length + bs.length < o.bytes → t.mem = s.mem ∧ t.so = s.so ∧
          t.nvme = s.nvme.map (fun q => if q.id = o.id then { o with got := o.got ++ bs } else q)) ∧
        (o.got.length + bs.length = o.bytes → t.nvme = s.nvme.filter (fun q => q.id != o.id) ∧
          s.memGets t cx o.bytes (fun n => dest + n) (fun n => (o.got ++ bs).getD n 0) ∧
          s.counts t Reg.UE_INGEST_BYTES_COUNT 0 o.bytes ∧
          (∀ j, s.ingests.find? (fun q => q.id == job) = some j →
            (j.left ≤ 1 → s.signals t j.done) ∧ (1 < j.left → t.so = s.so)))) ∧
      (∀ j rest, o.use = .ckptStore → o.payload ≠ [] → s.ckptStore = j :: rest → ∃ t,
        exec (.nvmePduReceive ⟨port, conn⟩ (.resp (some op) 0)) s = .next t ∧
        t.nvme = s.nvme.filter (fun q => q.id != o.id) ∧ t.ckptStore = { j with left := j.left - 1 } :: rest ∧
        ({ t with nvme := s.nvme, ckptStore := s.ckptStore, regs := s.regs } : State) = s) ∧
      (∀ st, st ≠ 0 → ∃ t, exec (.nvmePduReceive ⟨port, conn⟩ (.resp (some op) st)) s = .next t ∧
        t.get Reg.FAB_STATUS_NVME = 1 ∧ t.mem = s.mem ∧
        (o.tries < 3 → ∃ x ∈ t.nvme, x.id = o.id ∧ x.tries = o.tries + 1 ∧ x.port = s.otherPort o.port ∧ x.got = []) ∧
        (3 ≤ o.tries → t.nvme = s.nvme.filter (fun q => q.id != o.id))) ∧
      (∀ offset length, ∃ t, exec (.nvmePduReceive ⟨port, conn⟩ (.r2t op offset length)) s = .next t ∧ t.nvme = s.nvme ∧
        t.mem = s.mem ∧
        t.sent.length = s.sent.length + (packets 4096 ((o.payload.drop offset).take length)).length)) ∧
    (s.nvme = [] → (∃ t, exec (.nvmePduReceive ⟨port, conn⟩ .termReq) s = .next t ∧ t.tcpConn k = none ∧ t.sent = s.sent) ∧
      ∃ (t : State) (f : Frame), exec (.nvmePduReceive ⟨port, conn⟩ .badDigest) s = .next t ∧ t.tcpConn k = none ∧
        t.sent = f :: s.sent ∧ (f.nvme.map (·.pdu)) = some pduTermReq)

/-- Every mailbox command: not live, busy, taken (R507, R526, R535, R536, R537). On a path that is not live a mailbox
command does nothing; while BUSY it raises MBOX_BUSY and changes nothing else; otherwise it copies its tag and code.
In UNUSABLE every command but two is refused with RESULT 1. An argument is written only while the mailbox is not
busy. -/
def Obligations.MailboxProtocol : Prop :=
  ∀ (s : State) (path : Path) (tag : Byte) (code : Nat) (i : Instr), s.canon = true → (code, i) ∈ mailboxRows path tag →
    (s.live path = false → exec i s = .next s) ∧
    (s.live path = true → s.svc.mbox.st = .busy → ∃ t, exec i s = .next t ∧ t.svc.mbox = s.svc.mbox ∧
      s.raised t 0x0B07 (code + pathBit path * 2 ^ 8) 0xFF ∧ ({ t with svc := s.svc, regs := s.regs } : State) = s) ∧
    (s.mboxFree path → ∃ t, exec i s = .next t ∧ t.svc.mbox.tag = tag ∧ t.svc.mbox.code = BitVec.ofNat 8 code ∧
      t.pending = s.pending ∧ (s.svc.st = .unusable → code ≠ 0x01 → code ≠ 0x04 → t.mboxNo 1)) ∧
    (∀ k v, s.mboxFree path → exec (.mboxArgWrite path k v) s = .next (s.put Reg.SVC_MBOX_ARG_ARG v.toNat 0 k.toNat)) ∧
    (∀ k v, s.live path = true → s.svc.mbox.st = .busy → ∃ t, exec (.mboxArgWrite path k v) s = .next t ∧
      t.get Reg.SVC_MBOX_ARG_ARG 0 k.toNat = s.get Reg.SVC_MBOX_ARG_ARG 0 k.toNat ∧
      s.raised t 0x0B07 (pathBit path * 2 ^ 8) 0xFF)

/-- SUMMARY, the field tests, FENCE_EDIT, IMAGE_LOAD, JOB_LEAVE, JOB_START and SPARE_JOIN (R500, R507, R534, R537, R538,
R539, R541, R542, R543, R562). Each in the states that accept it: SUMMARY ends at once with 4,096 bytes and marks
128 records read, or goes on while a beat is held; the field tests go on; FENCE_EDIT ends at once, sets and clears
cores and has the record written; IMAGE_LOAD goes on with its range, from the store with a read operation of its
target; JOB_LEAVE sets the end beat; JOB_START and SPARE_JOIN give the context its job: beside a beat already held
without acquiring, else they acquire where a pairing of the members is found, and JOB_START ends with RESULT 6 and
no job where none is. -/
def Obligations.MailboxServices : Prop :=
  ∀ (s : State) (path : Path) (tag : Byte) (c : Nat), s.canon = true → s.mboxFree path → c = (ctxArg s.args).1 →
    ((s.svc.st = .standby ∨ s.svc.st = .rails ∨ s.svc.st = .bist ∨ s.bt.st = .detached) → ∃ t,
      exec (.summary path tag) s = .next t ∧ t.mboxOk ∧ t.svc.mbox.len = 4096 ∧
      t.svc.ring = (s.svc.ring.take 128).map (fun e => (e.1, true)) ++ s.svc.ring.drop 128) ∧
    ((s.svc.st = .ready ∨ s.svc.st = .joining ∨ s.svc.st = .running) → s.bt.st ≠ .detached → ∃ t,
      exec (.summary path tag) s = .next t ∧ t.mboxRuns .summary ∧ t.svc.ring = s.svc.ring) ∧
    (s.svc.st = .ready → s.noContext = true →
      (∃ t, exec (.testNative path tag) s = .next t ∧ t.mboxRuns (.test false) ∧ t.flt = s.flt) ∧
      (∃ t, exec (.testStress path tag) s = .next t ∧ t.mboxRuns (.test true) ∧ t.flt = s.flt)) ∧
    ((s.svc.st = .ready ∨ s.svc.st = .unusable) → s.noContext = true → fld s.args 24 1 ≤ 7 → ∃ t,
      exec (.fenceEdit path tag) s = .next t ∧ t.mboxOk ∧ t.svc.writeTo.length = s.svc.writeTo.length + 1 ∧
      (∀ k, k < 96 → (BitVec.ofNat 96 (fld s.args 0 12)).getLsbD k = true →
        (BitVec.ofNat 96 (fld s.args 12 12)).getLsbD k = false → t.flt.fenced.getLsbD k = true)) ∧
    ((s.svc.st = .ready ∨ s.svc.st = .joining ∨ s.svc.st = .running) → s.idleCtx c = true → (ctxArg s.args).2 = false →
      fld s.args 1 1 ≤ 1 → fld s.args 2 1 = 0 → fld s.args 8 8 % 512 = 0 →
      s.mapsRange c (fld s.args 8 8) (fld s.args 16 8) = true → ∃ t, exec (.imageLoad path tag) s = .next t ∧
      t.mboxRuns (.imageLoad c (fld s.args 8 8) (fld s.args 16 8) (fld s.args 1 1 == 0)) ∧ t.nvme = s.nvme) ∧
    ((s.svc.st = .ready ∨ s.svc.st = .joining ∨ s.svc.st = .running) → s.idleCtx c = true → (ctxArg s.args).2 = false →
      fld s.args 1 1 ≤ 1 → fld s.args 2 1 = 1 → fld s.args 54 1 ≤ 1 → fld s.args 8 8 % 512 = 0 →
      s.mapsRange c (fld s.args 8 8) (fld s.args 16 8) = true → ∃ (t : State) (o : NvmeOp),
      exec (.imageLoad path tag) s = .next t ∧ o ∈ t.nvme ∧ o.use = .imageLoad ∧ o.target = targetAt s.args 32 ∧
      o.lba = fld s.args 56 8 ∧ o.bytes = fld s.args 16 8 ∧
      t.mboxRuns (.imageLoad c (fld s.args 8 8) (fld s.args 16 8) (fld s.args 1 1 == 0))) ∧
    (∀ j, (s.svc.st = .joining ∨ s.svc.st = .running) → (s.ctx c).job = some j → (ctxArg s.args).2 = false → ∃ t,
      exec (.jobLeave path tag) s = .next t ∧ t.mboxOk ∧ (t.ctx c).job = some { j with endBeat := some (fld s.args 8 8) }) ∧
    ((s.svc.st = .ready ∨ s.svc.st = .joining ∨ s.svc.st = .running) → s.mayStart c = true → s.svc.recBad = false →
      (ctxArg s.args).2 = false → fld s.args 1 1 ≤ 1 →
      (s.beatHeld = true → ∃ t, exec (.jobStart path tag) s = .next t ∧ t.svc.st = .joining ∧
        (t.ctx c).job.any (fun j => !j.spare && j.startBeat == fld s.args 8 8) = true) ∧
      (s.beatHeld = false → s.running = none → (pairing (s.joinSet c) 0).isSome = true → ∃ t,
        exec (.jobStart path tag) s = .next t ∧ t.svc.st = .joining ∧ t.mboxRuns (.jobStart c 0) ∧ t.bt.st = .acquire ∧
        (t.ctx c).job.any (fun j => !j.spare && j.startBeat == fld s.args 8 8) = true) ∧
      (s.beatHeld = false → s.running = none → pairing (s.joinSet c) 0 = none → ∃ t,
        exec (.jobStart path tag) s = .next t ∧ t.svc.mbox.st = .done ∧ t.svc.mbox.result = 6 ∧ t.svc.mbox.job = none ∧
        (t.ctx c).job = none)) ∧
    (s.svc.st = .ready → s.mayStart c = true → (ctxArg s.args).2 = false →
      (s.beatHeld = true → ∃ t, exec (.spareJoin path tag) s = .next t ∧ (t.ctx c).job.any (fun j => j.spare) = true) ∧
      (s.beatHeld = false → s.running = none → (pairing (s.joinSet c) 0).isSome = true → ∃ t,
        exec (.spareJoin path tag) s = .next t ∧ (t.ctx c).job.any (fun j => j.spare) = true ∧ t.mboxRuns (.spareJoin c 0) ∧
        t.bt.st = .acquire))

/-- The services that go on: field tests, image and state loads, derivation (R89, R354, R490, R497, R500, R533, R538,
R539). A field test fences what failed and has the record written; an image load ends with RESULT 5 on an error, 3
on a fault of the image, 0 with the image loaded, and a raw load leaves the image; a state load ends with 5 and no
job on an I/O error (a flash generation that failed is gone), 4 and no job where the state is not there or a shard's
stamp differs, else with 0 at the step: from the store, from flash and afresh. The working-copy derivation ends the
need of it and notes the copies, whose bytes stand where they were derived; without the need it does nothing. -/
def Obligations.ServiceEnds : Prop :=
  ∀ (s : State), s.canon = true →
    (∀ stress failing groups, s.svc.mbox.job = some (.test stress) → ∃ t, exec (.fieldTestDone failing groups) s = .next t ∧
      t.mboxOk ∧ t.svc.writeTo.length = s.svc.writeTo.length + 1 ∧
      (∀ k, k < 96 → failing.getLsbD k = true ∨ s.flt.fenced.getLsbD k = true → t.flt.fenced.getLsbD k = true)) ∧
    (∀ c dest len image, s.svc.mbox.job = some (.imageLoad c dest len image) →
      (∃ t, exec (.imageLoadDone none) s = .next t ∧ t.svc.mbox.st = .done ∧ t.svc.mbox.result = 5 ∧ t.mem = s.mem) ∧
      (∀ bs, image = false → ∃ t, exec (.imageLoadDone (some bs)) s = .next t ∧ t.mboxOk ∧
        (t.ctx c).image = (s.ctx c).image) ∧
      (∀ bs u, image = true → u = ({ s with nvme := s.nvme.filter (fun o => o.use != NvmeUse.imageLoad) } : State).pokes c
          dest (bs.take len) →
        (u.loadFault c (bs.take len) = none → ∃ t, exec (.imageLoadDone (some bs)) s = .next t ∧ t.mboxOk ∧
          (t.ctx c).image.isSome = true) ∧
        (∀ f, u.loadFault c (bs.take len) = some f → ∃ t, exec (.imageLoadDone (some bs)) s = .next t ∧
          t.svc.mbox.st = .done ∧ t.svc.mbox.result = 3 ∧ (t.ctx c).image = none))) ∧
    (∀ c j found stored, s.svc.mbox.job = some (.jobStart c 4) → (s.ctx c).job = some j → ∀ n, n = j.step.toNat →
      (∃ t, exec (.stateLoadDone found true stored) s = .next t ∧ t.svc.mbox.st = .done ∧ t.svc.mbox.result = 5 ∧
        (t.ctx c).job = none ∧ (j.source = .flash → t.gens = s.gens.filter (fun g => !(s.flashGens c j.step).contains g)) ∧
        (j.source ≠ .flash → t.gens = s.gens)) ∧
      (j.source = .store → found = true →
        (shardSkew n (stored.map (fun e => (e.1.at_ n, e.2))) = none → ∃ t,
          exec (.stateLoadDone found false stored) s = .next t ∧ t.mboxOk ∧ t.stepOf c = n) ∧
        (∀ layer stamp, shardSkew n (stored.map (fun e => (e.1.at_ n, e.2))) = some (layer, stamp) → ∃ t,
          exec (.stateLoadDone found false stored) s = .next t ∧ t.svc.mbox.result = 4 ∧ (t.ctx c).job = none ∧
          t.mem = s.mem ∧ t.get Reg.UE_STATUS_STEPSKEW = 1)) ∧
      (j.source = .store → found = false → ∃ t, exec (.stateLoadDone found false stored) s = .next t ∧
        t.svc.mbox.result = 4 ∧ (t.ctx c).job = none) ∧
      (j.source = .flash → (s.flashGens c j.step).any (fun g => g.own) = false → ∃ t,
        exec (.stateLoadDone found false stored) s = .next t ∧ t.svc.mbox.result = 4 ∧ (t.ctx c).job = none) ∧
      (j.source = .flash → (s.flashGens c j.step).any (fun g => g.own) = true →
        shardSkew n ((s.flashGens c j.step).flatMap FlashGen.ranges) = none → ∃ t,
        exec (.stateLoadDone found false stored) s = .next t ∧ t.mboxOk ∧ t.stepOf c = n ∧ t.gens = s.gens) ∧
      (j.source = .fresh → shardSkew n (stored.map (fun e => (e.1.at_ n, (List.range 8).map (fun k =>
          s.peek c (e.1.at_ n + k))))) = none → ∃ t,
        exec (.stateLoadDone found false stored) s = .next t ∧ t.mboxOk ∧ t.stepOf c = n ∧ t.mem = s.mem)) ∧
    (∀ copies, (∀ c, s.running = some c → s.flt.map.derive = true → ∃ t,
        exec (.workingCopyDerivationDone copies) s = .next t ∧ t.flt.map.derive = false ∧
        t.flt.map.derived = s.flt.map.derived.filter (fun w => !copies.contains w) ++ copies ∧ t.pending = s.pending ∧
        t.strands = s.strands ∧
        (s.colls = [] → t.mem = (copies.foldl (fun (u : State) w => u.deriveWork c w.desc) s).mem)) ∧
      (s.running = none ∨ s.flt.map.derive = false → exec (.workingCopyDerivationDone copies) s = .next s))

/-- CTX_CREATE, CTX_MAP, CTX_UNMAP, CTX_SWITCH and CTX_DESTROY (R393, R394, R503, R504, R505, R507, R508, R509, R512).
With the arguments their rules allow: CTX_CREATE makes a free context LOADED with a zeroed save frame; on a context
that exists it is refused, as every other command is on a free one, with RESULT 1, REFUSED and the event. CTX_MAP
and CTX_UNMAP go on with their change queued for the boundary, CTX_SWITCH notes its target and beat; CTX_DESTROY
frees a context that is neither running nor being switched to and ends its sessions, and is refused for the running
one. -/
def Obligations.ContextCommands : Prop :=
  ∀ (s : State) (path : Path) (tag : Byte) (a : List Byte) (c : Nat), s.canon = true → s.mboxFree path → s.svcUp = true →
    a = s.args → c = (ctxArg a).1 → (ctxArg a).2 = false →
    ((s.ctx c).st = .free →
      (∀ save, save = fld a 8 8 → save % frameBytes = 0 → save / frameBytes < hbmFrames →
        (s.frame (save / frameBytes)).taken = false → fld a 1 1 < 2 → fld a 2 1 < 16 →
        argsDirty a [(0, 3), (8, 8)] = false → ∃ t, exec (.ctxCreate path tag) s = .next t ∧ t.mboxOk ∧
        (t.ctx c).st = .loaded ∧ t.frame (save / frameBytes) = .save c ∧ (t.ctx c).maps = [] ∧
        (∀ pa, pa / frameBytes = save / frameBytes → t.pbyte pa = 0) ∧ (∀ d, d ≠ c → t.ctx d = s.ctx d)) ∧
      (∀ i code, (code, i) ∈ [(0x11, Instr.ctxMap path tag), (0x12, .ctxUnmap path tag), (0x13, .ctxSwitch path tag),
          (0x14, .ctxDestroy path tag), (0x15, .keyImport path tag), (0x16, .attest path tag)] → ∃ t,
        exec i s = .next t ∧ t.mboxNo 1 ∧ t.get Reg.SEC_STATUS_REFUSED = 1 ∧ t.sec = s.sec ∧
        s.raised t 0x0A03 (code + c * 2 ^ 8) 0xFF)) ∧
    ((s.ctx c).st ≠ .free →
      (∃ t, exec (.ctxCreate path tag) s = .next t ∧ t.mboxNo 1 ∧ t.sec = s.sec ∧
        s.raised t 0x0A03 (0x10 + c * 2 ^ 8 + 2 ^ 12) 0xFF) ∧
      (∀ va n, va = fld a 8 8 → n = fld a 16 4 → fld a 1 1 = 0 → s.supply false ≥ n → (s.ctx c).covers (va / frameBytes) n = false →
        baseBad va n = false → 0 < n → n ≤ 2 ^ 24 → argsDirty a [(0, 2), (8, 12)] = false → s.bt.st ≠ .detached → ∃ t,
        exec (.ctxMap path tag) s = .next t ∧
        t.mboxRuns (.mapping (.map c (va / frameBytes) n .hbm false false false false (fld a 24 8 / frameBytes) (fld a 32 8 / frameBytes))) ∧
        t.mapChanges = s.mapChanges ++ [.map c (va / frameBytes) n .hbm false false false false (fld a 24 8 / frameBytes) (fld a 32 8 / frameBytes)] ∧
        t.sec = s.sec) ∧
      (∀ va n, va = fld a 8 8 → n = fld a 16 4 → va % frameBytes = 0 → va / frameBytes < viewStart →
        argsDirty a [(0, 1), (8, 12)] = false → s.bt.st ≠ .detached → ∃ t, exec (.ctxUnmap path tag) s = .next t ∧
        t.mboxRuns (.mapping (.unmap c (va / frameBytes) n)) ∧
        t.mapChanges = s.mapChanges ++ [.unmap c (va / frameBytes) n] ∧ t.sec = s.sec) ∧
      (argsDirty a [(0, 1), (8, 8)] = false → ∃ t, exec (.ctxSwitch path tag) s = .next t ∧ t.mboxOk ∧
        t.sec.switchTo = some (Fin.ofNat 16 c, fld a 8 8) ∧ t.sec.run = s.sec.run) ∧
      (argsDirty a [(0, 1)] = false → s.running ≠ some c → s.sec.switching.any (fun w => w.1.val == c) = false → ∃ t,
        exec (.ctxDestroy path tag) s = .next t ∧ t.mboxOk ∧ t.ctx c = Ctx.reset ∧ (∀ e ∈ t.sec.sessions, e.ctx ≠ some c)) ∧
      (argsDirty a [(0, 1)] = false → s.running = some c → ∃ t, exec (.ctxDestroy path tag) s = .next t ∧ t.mboxNo 1 ∧
        t.sec = s.sec ∧ s.raised t 0x0A03 (0x14 + c * 2 ^ 8 + 2 * 2 ^ 12) 0xFF))

/-- KEY_IMPORT, ATTEST and unsealing (R507, R508, R517, R518, R519, R524, R525). A key that unwraps fills its slot and
spends the ephemeral key; one that does not is refused with RESULT 2 and its event and fills nothing. ATTEST answers
1,024 bytes and a fresh ephemeral key. A sealed key that unseals becomes the flash key; one that does not leaves it,
with its event. The cryptography itself is free (log 12). -/
def Obligations.KeysAndReports : Prop :=
  ∀ (s : State) (path : Path) (tag : Byte) (a : List Byte) (c : Nat), s.canon = true →
    (s.mboxFree path → s.svcUp = true → a = s.args → c = (ctxArg a).1 → (ctxArg a).2 = false → (s.ctx c).st ≠ .free →
      (∀ slot, slot = fld a 1 1 → slot < 8 → argsDirty a [(0, 2), (16, 144)] = false →
        (∀ key, s.importKey c slot ((a.drop 16).take 144) = .ok key → ∃ t, exec (.keyImport path tag) s = .next t ∧
          t.mboxOk ∧ Tab.get none (t.ctx c).slots slot = some key ∧ (∀ k nonce spent, (t.ctx c).ephemeral = some (k, nonce, spent) → spent = true)) ∧
        (∀ why, s.importKey c slot ((a.drop 16).take 144) = .error why → ∃ t, exec (.keyImport path tag) s = .next t ∧
          t.mboxNo 2 ∧ t.sec = s.sec ∧ t.get Reg.SEC_STATUS_IMPORT = 1 ∧
          s.raised t 0x0A05 (c + slot * 2 ^ 4 + why * 2 ^ 7) 0xFF)) ∧
      (argsDirty a [(0, 1), (16, 64)] = false → ∃ t, exec (.attest path tag) s = .next t ∧ t.mboxOk ∧
        t.svc.mbox.len = 1024 ∧ (t.ctx c).ephemeral = some (Config.key s.draw, BitVec.ofNat 512 (ofBytes ((a.drop 16).take 64)), false) ∧
        (t.ctx c).slots = (s.ctx c).slots)) ∧
    (∀ (ctx : Fin 16) n img k, (s.ctx ctx.val).sealedSlot = some n → (s.ctx ctx.val).image = some img →
      Tab.get none (s.ctx ctx.val).slots 0 = some k →
      (∀ key, Tab.get none s.svc.blobs n = some (BitVec.ofNat 384 (ofBytes (imgDigestField img)), k, key) → ∃ t,
        exec (.unsealAttempt ctx) s = .next t ∧ (t.ctx ctx.val).flashKey = key ∧ (t.ctx ctx.val).unsealed = true ∧
        (t.ctx ctx.val).sealedSlot = none) ∧
      (Tab.get none s.svc.blobs n = none → ∃ t, exec (.unsealAttempt ctx) s = .next t ∧
        (t.ctx ctx.val).flashKey = (s.ctx ctx.val).flashKey ∧ (t.ctx ctx.val).sealedSlot = none ∧
        t.get Reg.SEC_STATUS_UNSEAL = 1 ∧ s.raised t 0x0A07 ctx.val 0xFF))

/-- Reserved bits read 0 and are ignored; an unassigned offset reads 0 and ignores writes (R16). At every offset: a bit
that no field of the register table has reads 0, and a write with it set does what the write with it clear does; an
offset no chapter assigns reads 0 and ignores aligned writes; a narrow or unaligned write changes no register but
the event counters and raises REG_WIDTH. -/
def Obligations.ReservedBits : Prop :=
  ∀ (s : State) (path : Path) (off : BitVec 24) (v : W64), s.canon = true → off.toNat % 8 = 0 →
    (∀ j, j < 64 → reservedBit off.toNat j → (s.regRead off.toNat).getLsbD j = false ∧
      exec (.registerWrite path off (v ||| BitVec.ofNat 64 (2 ^ j))) s =
        exec (.registerWrite path off (v &&& ~~~ BitVec.ofNat 64 (2 ^ j))) s) ∧
    (inRing off.toNat = false → fieldsAt (aliasOf off.toNat) = [] → s.regRead off.toNat = 0 ∧
      exec (.registerWrite path off v) s = .next s) ∧
    (∀ (o : BitVec 24) width, s.live path = true → (width ≠ 8 ∨ o.toNat % 8 ≠ 0) → ∃ (t : State) (d : Nat),
      exec (.narrowRegisterWrite path o width v) s = .next t ∧ s.raised t 0x0B40 d 0xFF ∧
      ({ t with svc := s.svc, regs := s.regs, freeCounter := s.freeCounter } : State) = s ∧
      (∀ r, r ≠ 0x000018 → r ≠ 0x000020 → t.word r = s.word r))

/-- BT_PERIOD is written only while DETACHED (R50). While DETACHED a write of BT_PERIOD.SEL other than 0b11 takes
effect; in any other state, or of 0b11, it is discarded, raises BT_PERIOD_LOCKED and changes nothing but the event
registers and the ring. -/
def Obligations.PeriodLocked : Prop :=
  ∀ (s : State) (v : W64), s.canon = true →
    (s.bt.st = .detached → v.setWidth 2 ≠ (3 : BitVec 2) →
      exec (.btPeriodWrite v) s = .next { s with bt := { s.bt with sel := v.setWidth 2 } }) ∧
    (s.bt.st ≠ .detached ∨ v.setWidth 2 = (3 : BitVec 2) → ∃ (t : State) (d : Nat), exec (.btPeriodWrite v) s = .next t ∧
      s.raised t 0x0108 d 0xFF ∧ ({ t with svc := s.svc, regs := s.regs } : State) = s)

/-- Writes and reads through the register window (R6, R12, R13, R14, R15, R92, R463, R507, R535, R543, R551, R564). A
register write is the command of the register it names: the period, the node, the mode, the cap, the debug data, the
removal bits, the mailbox and its arguments; a sync object's count and threshold and PWR_STATUS are written as their
fields say. The SMBus reaches the same registers with a good PEC and nothing with a bad one. A node, mode or cap
write takes effect or is refused as its rule says; a read of a PEAK field restarts it; a read of a ring record marks
it. -/
def Obligations.RegisterWindow : Prop :=
  (∀ (s : State) (path : Path) (v : W64), s.canon = true → s.live path = true →
    (exec (.registerWrite path 0x010008 v) s = exec (.btPeriodWrite v) s) ∧
    (exec (.registerWrite path 0x094000 v) s = exec (.fabNodeWrite v) s) ∧
    (exec (.registerWrite path 0x020000 v) s = exec (.modeRequest v) s) ∧
    (exec (.registerWrite path 0x020008 v) s = exec (.powerCapWrite v) s) ∧
    (exec (.registerWrite path 0x400018 v) s = exec (.dbgDataWrite v) s) ∧
    (exec (.registerWrite path 0x030060 0x4) s = exec .removalRequest s) ∧
    (exec (.registerWrite path 0x030060 0x8) s = exec .removalCancel s) ∧
    (∀ code i tag, (code, i) ∈ mailboxRows path tag → v.toNat % 2 ^ 8 = code →
      tag = BitVec.ofNat 8 (v.toNat / 2 ^ 8) → v.getLsbD 63 = true → exec (.registerWrite path 0x000100 v) s = exec i s) ∧
    (∀ k : BitVec 5, exec (.registerWrite path (BitVec.ofNat 24 (0x200 + 8 * k.toNat)) v) s = exec (.mboxArgWrite path k v) s) ∧
    (∀ i : BitVec 13, ∃ t, exec (.registerWrite path (BitVec.ofNat 24 (0x0A0000 + 8 * i.toNat)) v) s = .next t ∧
      t.obj i.toNat = { s.obj i.toNat with count := v.setWidth 32, thresh := BitVec.ofNat 32 (v.toNat / 2 ^ 32) } ∧
      (∀ j, j ≠ i.toNat → t.obj j = s.obj j) ∧ ({ t with so := s.so } : State) = s) ∧
    (∃ t, exec (.registerWrite path 0x020040 v) s = .next t ∧
      (∀ off, off ≠ 0x020040 → t.word off = s.word off) ∧
      t.get Reg.PWR_STATUS_HOT = (if v.getLsbD 3 then 0 else s.get Reg.PWR_STATUS_HOT) ∧ ({ t with regs := s.regs } : State) = s) ∧
    (∀ off, s.pins.stage2 = true → exec (.smbusWrite true off v) s = exec (.registerWrite .smbus off v) s ∧
      exec (.smbusRead true off) s = exec (.peakRegisterRead off 8) s) ∧
    (∀ off, exec (.smbusWrite false off v) s = .next s ∧ exec (.smbusRead false off) s = .next s) ∧
    (exec (.narrowRegisterWrite path 0x020008 8 v) s = exec (.registerWrite path 0x020008 v) s)) ∧
  (∀ (s : State) (v : W64), s.canon = true →
    (s.bt.st = .detached → ∃ t, exec (.fabNodeWrite v) s = .next t ∧ t.node = v.toNat % 2 ^ 15 ∧
      t.get Reg.FAB_NODE_VALID = v.toNat / 2 ^ 15 % 2 ∧ (∀ off, off ≠ 0x094000 → t.word off = s.word off)) ∧
    (s.bt.st ≠ .detached → ∃ t, exec (.fabNodeWrite v) s = .next t ∧ t.node = s.node ∧
      s.raised t 0x080A (v.toNat % 2 ^ 15) 0xFF) ∧
    (∀ q, q = v.toNat / 16 % 4 → ∃ t, exec (.modeRequest v) s = .next t ∧ t.get Reg.PWR_MODE_REQ = q ∧
      t.modeInForce = s.modeInForce ∧
      (s.running = none ∨ imgHasMode s.img q = true → t.modePend = true ∧ t.svc = s.svc) ∧
      (∀ c, s.running = some c → imgHasMode s.img q = false → t.modePend = false ∧ s.raised t 0x0B21 q 0xFF)) ∧
    (∃ t, exec (.powerCapWrite v) s = .next t ∧ t.get Reg.PWR_CAP_WATTS = v.toNat % 2 ^ 11 ∧ t.capInForce = s.capInForce ∧
      ({ t with regs := s.regs } : State) = s) ∧
    (∃ t, exec (.peakRegisterRead 0x020018 8) s = .next t ∧ t.get Reg.PWR_POWER_PEAK = s.get Reg.PWR_POWER_WATTS ∧
      t.get Reg.PWR_POWER_WATTS = s.get Reg.PWR_POWER_WATTS ∧ ({ t with regs := s.regs } : State) = s) ∧
    (∀ p : Fin 16, ∃ t, exec (.peakRegisterRead (BitVec.ofNat 24 (Reg.FAB_PORT_RXBUF_PEAK.off p.val 0)) 8) s = .next t ∧
      t.get Reg.FAB_PORT_RXBUF_PEAK p.val = (s.port p.val).rxbuf % 2 ^ Reg.FAB_PORT_RXBUF_PEAK.w ∧
      ({ t with regs := s.regs } : State) = s) ∧
    (∀ k r, k < 1024 → s.svc.ring[s.ringPlace k]? = some r →
      exec (.eventRingRead (BitVec.ofNat 24 (0x4000 + 16 * k)) 8) s =
        .next { s with svc := { s.svc with ring := s.svc.ring.set (s.ringPlace k) (r.1, true) } }))

/-- The debug block (R520, R521, R522, R523). HALT and RESUME of a context wait for the boundary and are recorded; a
data access that is not allowed reads 0, sets ERR and advances ADDR; an allowed one reads or writes the tile store
(SPACE 1) or the context's memory (SPACE 0), advances ADDR and is recorded; BUSY ends with DBG_DATA_ACCESS_END. -/
def Obligations.DebugBlock : Prop :=
  ∀ (s : State) (c unit addr : Nat) (v : W64), s.canon = true → c = s.get Reg.DBG_CTRL_CTX →
    unit = s.get Reg.DBG_CTRL_UNIT → addr = s.get Reg.DBG_ADDR_ADDR →
    ((s.ctx c).st ≠ .free →
      (∃ t, exec .dbgHalt s = .next t ∧ t.sec.haltPend = s.sec.haltPend ++ [(c, true)] ∧
        (t.ctx c).dbgBits.getLsbD 0 = true ∧ t.strands = s.strands ∧ t.sec.halted = s.sec.halted) ∧
      (∃ t, exec .dbgResume s = .next t ∧ t.sec.haltPend = s.sec.haltPend ++ [(c, false)] ∧
        (t.ctx c).dbgBits.getLsbD 0 = true ∧ t.strands = s.strands ∧ t.sec.halted = s.sec.halted)) ∧
    (s.dbgBad = true →
      (∃ t, exec .dbgDataRead s = .next t ∧ t.get Reg.DBG_DATA_DATA = 0 ∧ t.get Reg.DBG_STATUS_ERR = 1 ∧
        t.get Reg.DBG_ADDR_ADDR = (addr + 8) % 2 ^ 48 ∧ t.sec = s.sec) ∧
      (∃ t, exec (.dbgDataWrite v) s = .next t ∧ t.get Reg.DBG_STATUS_ERR = 1 ∧
        t.get Reg.DBG_ADDR_ADDR = (addr + 8) % 2 ^ 48 ∧ ({ t with regs := s.regs } : State) = s)) ∧
    (s.dbgBad = false → s.get Reg.DBG_CTRL_SPACE = 1 →
      (∃ t, exec .dbgDataRead s = .next t ∧ t.get Reg.DBG_DATA_DATA = ofBytes (s.tread unit addr 8) % 2 ^ 64 ∧
        t.get Reg.DBG_ADDR_ADDR = (addr + 8) % 2 ^ 48 ∧ t.sec.dbgBusy = true ∧ t.cores = s.cores ∧ t.mem = s.mem) ∧
      (∃ t, exec (.dbgDataWrite v) s = .next t ∧ s.tileGets t unit addr 8 (fun k => (toBytes 8 v.toNat).getD k 0) ∧
        t.get Reg.DBG_ADDR_ADDR = (addr + 8) % 2 ^ 48 ∧ t.sec.dbgBusy = true ∧ t.mem = s.mem ∧ t.strands = s.strands)) ∧
    (s.dbgBad = false → s.get Reg.DBG_CTRL_SPACE = 0 → ∃ t, exec .dbgDataRead s = .next t ∧
      t.get Reg.DBG_DATA_DATA = ofBytes ((List.range 8).map (fun k => s.peek c (addr + k))) % 2 ^ 64 ∧
      t.get Reg.DBG_ADDR_ADDR = (addr + 8) % 2 ^ 48 ∧ (t.ctx c).dbgBits.getLsbD 3 = true ∧ t.mem = s.mem) ∧
    (s.dbgBad = false → s.get Reg.DBG_CTRL_SPACE = 0 → ∃ t, exec (.dbgDataWrite v) s = .next t ∧
      t.mem = (s.pokes c addr (toBytes 8 v.toNat)).mem ∧ t.get Reg.DBG_ADDR_ADDR = (addr + 8) % 2 ^ 48 ∧
      (t.ctx c).dbgBits.getLsbD 4 = true ∧ t.strands = s.strands) ∧
    (exec .dbgDataAccessEnd s = .next { s with sec := { s.sec with dbgBusy := false } })

/-- The stages of power-up and the self-test (R43, R498, R526, R527, R528, R529, R530, R531, R532, R533, R555). Standby
power-up resets all but flash and the fence records; the management stage opens the window; the main path, main-good
and the rails follow in order; a slice passes, is tried a second time, or fails with its event; the self-test ends
READY with what the records fence, or UNUSABLE when a slice of the device itself failed. -/
def Obligations.StartUp : Prop :=
  (∀ (s : State), s.canon = true →
    (∀ feed hubpos latch seated, s.pins.stby = false → ∃ t, exec (.standbyPowerUp feed hubpos latch seated) s = .next t ∧
      t.pins.stby = true ∧ t.pins.stage2 = false ∧ t.pins.latchClosed = latch ∧ t.pins.seated = seated ∧
      t.svc.st = .standby ∧ t.svc.ring = [] ∧ t.svc.feed = feed ∧ t.svc.recA = s.svc.recA ∧ t.svc.recB = s.svc.recB ∧
      t.flash = s.flash ∧ t.gens = s.gens ∧ t.mem = [] ∧ t.pending = s.pending) ∧
    (∃ t, exec .standbyPowerLoss s = .next t ∧ t.pins.stby = false ∧ t.pins.stage2 = false ∧ t.svc.ring = [] ∧
      t.svc.recA = s.svc.recA ∧ t.svc.recB = s.svc.recB ∧ t.flash = s.flash ∧ t.gens = s.gens ∧ t.mem = [] ∧
      t.pending = s.pending) ∧
    (s.pins.stby = true → s.pins.stage2 = false →
      (∃ t, exec (.managementStageDone true) s = .next t ∧ t.pins.stage2 = true ∧ t.svc.recBad = s.svc.best.isNone ∧
        (s.svc.best = none → s.raised t 0x0B04 0 0xFF)) ∧
      (∃ (t : State) (d : Nat), exec (.managementStageDone false) s = .next t ∧ t.pins = s.pins ∧ s.raised t 0x0B01 d 0xFF)) ∧
    (exec .seatInsert s = .next { s with pins := { s.pins with seated := true } }) ∧
    (s.pins.seated = true → s.pins.stage2 = true → exec .mainPathOn s = .next { s with pins := { s.pins with pathOn := true } }) ∧
    (s.pins.seated = false ∨ s.pins.stage2 = false → exec .mainPathOn s = .next s) ∧
    (∀ v : BitVec 16, s.pins.pathOn = true → ∃ t, exec (.mainGood v) s = .next t ∧ t.get Reg.PWR_INPUT_MAIN = v.toNat ∧
      (s.svc.st = .standby → s.pins.stage2 = true → 4400 ≤ v.toNat → v.toNat ≤ 5800 → t.svc.st = .rails) ∧
      (v.toNat < 4400 ∨ 5800 < v.toNat → t.svc = s.svc)) ∧
    (s.svc.st = .rails → (∃ t, exec (.railsUp true) s = .next t ∧ t.svc.st = .bist ∧ t.pins.rails = true ∧
        t.svc.bist = Svc.reset.bist) ∧ exec (.railsUp false) s = .next s) ∧
    (∃ t, exec .perstDeassert s = .next t ∧ t.pins.perst = false ∧
      (s.pins.rails = true → s.svc.bist.passed.contains 108 = true → t.pins.pcieTrained = true))) ∧
  (∀ (s : State), s.canon = true →
    (∀ k : Fin 113, s.sliceRuns k.val = true → k.val ∉ s.svc.bist.passed → k.val ∉ s.svc.bist.failed →
      (k.val < 108 ∨ k.val - 108 ∉ s.svc.hubBad → ∃ t, exec (.bistSliceDone k true) s = .next t ∧
        t.svc.bist = { s.svc.bist with passed := s.svc.bist.passed ++ [k.val] } ∧ t.svc.ring = s.svc.ring) ∧
      (k.val ∉ s.svc.bist.once →
        (∃ t, exec (.bistSliceDone k false) s = .next t ∧
          t.svc.bist = { s.svc.bist with once := k.val :: s.svc.bist.once } ∧ t.svc.ring = s.svc.ring) ∧
        (∃ t, exec (.bistSliceTimeout k) s = .next t ∧
          t.svc.bist = { s.svc.bist with once := k.val :: s.svc.bist.once } ∧ t.svc.ring = s.svc.ring)) ∧
      (k.val ∈ s.svc.bist.once →
        (∃ t, exec (.bistSliceDone k false) s = .next t ∧ t.svc.bist.failed = s.svc.bist.failed ++ [k.val] ∧
          s.raised t 0x0B02 k.val 0xFF) ∧
        (∃ t, exec (.bistSliceTimeout k) s = .next t ∧ t.svc.bist.failed = s.svc.bist.failed ++ [k.val] ∧
          s.raised t 0x0B02 (k.val + 2 ^ 8) 0xFF))) ∧
    (∀ ms, s.svc.st = .bist → s.bistOver = true → s.svc.bist.failed.any (fun k => decide (108 ≤ k)) = false → ∃ t,
      exec (.bistComplete ms) s = .next t ∧ t.svc.st = .ready ∧ t.get Reg.SVC_BIST_MS = ms.toNat ∧
      s.raised t 0x0B03 ms.toNat 0xFF ∧
      (∀ c, c < 96 → s.unionRecord.fenced.getLsbD c = true → t.flt.fenced.getLsbD c = true) ∧
      (∀ f ∈ s.unionRecord.retired, t.frame f = .retired)) ∧
    (∀ ms, s.svc.st = .bist → s.bistOver = true → s.svc.bist.failed.any (fun k => decide (108 ≤ k)) = true → ∃ t,
      exec (.bistComplete ms) s = .next t ∧ t.svc.st = .unusable ∧ t.pins.rails = false ∧
      t.get Reg.SVC_BIST_MS = ms.toNat) ∧
    (∀ e rest, s.svc.writeTo = e :: rest → e.1.valid = true → ∃ t, exec .fenceRecordWritten s = .next t ∧
      t.svc.writeTo = rest ∧ t.svc.best = some { e.1 with seq := max s.svc.recA.seq s.svc.recB.seq + 1 }))

/-- The supply thresholds, the seat, planned removal and the latch (R480, R492, R498, R499, R555, R557, R558, R559,
R560, R563). Below 43.0 V the supply guard opens with its event and count and contributes SUPPLY while a step is
active; it ends on recovery above 44.0 V, at once while DETACHED, or asks for the fence with cause 11 after 10 ms;
below 40.0 V the main rails fall, and above 58.0 V for the time-out, above 60.0 V or unseated the path opens too:
memory is lost, flash not. A removal is requested with its event, refused to half of a D2 with a failed node,
cancelled while not announced, or carried out once nothing writes flash or the fence record; an open latch fences a
device with a job and powers an idle one down. -/
def Obligations.SupplyAndRemoval : Prop :=
  (∀ (s : State) (input : BitVec 16) (v : Nat), s.canon = true → v = input.toNat →
    (s.pins.rails = true → v < 4300 → ∃ t, exec (.supplyWarning input) s = .next t ∧ t.flt.guard = true ∧
      t.get Reg.PWR_INPUT_MAIN = v ∧ s.raised t 0x0B50 v 0xFF ∧
      (s.flt.guard = false → t.get Reg.FLT_GUARDS_COUNT = (s.get Reg.FLT_GUARDS_COUNT + 1) % 2 ^ 64) ∧
      (s.running.isSome = true → s.step.active = true → t.step.contrib.getLsbD 2 = true) ∧
      t.strands = s.strands ∧ t.mem = s.mem) ∧
    (∀ us, s.flt.guard = true → 4400 < v → ∃ t, exec (.supplyRecovery input us) s = .next t ∧
      (s.bt.st ≠ .detached → t.flt = { s.flt with guardEnd := true } ∧ s.raised t 0x0B51 (min us (2 ^ 16 - 1)) 0xFF) ∧
      (s.bt.st = .detached → t.flt.guard = false)) ∧
    (s.pins.rails = true ∨ s.svc.st = .rails → v < 4000 → ∃ t, exec (.supplyReset input) s = .next t ∧
      t.pins.rails = false ∧ t.mem = [] ∧ t.strands = [] ∧ t.flash = s.flash ∧ t.gens = s.gens ∧
      (s.svc.st ≠ .unusable → t.svc.st = .standby) ∧ t.get Reg.PWR_INPUT_MAIN = v) ∧
    (∀ us, s.flt.guard = true → 10000 < us → s.flt.selfCause = none → s.flt.fencedSelf = false → ∃ t,
      exec (.guardTimeout input us) s = .next t ∧ t.flt.selfCause = some 11 ∧ s.raised t 0x0B52 v 0xFF) ∧
    (s.pins.pathOn = true → 5800 < v → ∃ t, exec (.supplyOverTimeout input) s = .next t ∧ t.pins.pathOn = false ∧
      t.get Reg.PWR_STATUS_OVER = 1 ∧ (s.pins.rails = true → t.pins.rails = false ∧ t.mem = [])) ∧
    (s.pins.pathOn = true → 6000 < v → ∃ t, exec (.mainOvervoltage input) s = .next t ∧ t.pins.pathOn = false ∧
      t.get Reg.PWR_INPUT_MAIN = v ∧ (s.pins.rails = true → t.pins.rails = false ∧ t.mem = [])) ∧
    (∃ t, exec .seatRelease s = .next t ∧ t.pins.seated = false ∧ t.pins.pathOn = false ∧ t.flash = s.flash ∧
      (s.pins.rails = true → t.pins.rails = false ∧ t.mem = []) ∧
      (s.pins.rails = false → s.svc.st ≠ .rails → t.mem = s.mem))) ∧
  (∀ (s : State), s.canon = true →
    (s.flt.removal = 0 → s.pins.rails = true → s.isD2 = false ∨ s.anyJob = false ∨ s.flt.map.failed = [] →
      (∃ t, exec .removalRequest s = .next t ∧ t.flt.removal = 1 ∧ s.raised t 0x0911 1 0xFF ∧
        (s.anyJob = false → t.flt.map = s.flt.map)) ∧
      (∀ ms, 500 ≤ ms → ms ≤ 3000 → ∃ t, exec (.attnRelease ms) s = .next t ∧ t.flt.removal = 1 ∧
        s.raised t 0x0911 0 0xFF ∧ t.pins.button = false)) ∧
    (∀ f rest, s.flt.removal = 0 → s.pins.rails = true → s.isD2 = true → s.anyJob = true → s.flt.map.failed = f :: rest → ∃ t,
      exec .removalRequest s = .next t ∧ t.flt = s.flt ∧ s.raised t 0x0B73 f.node 0xFF) ∧
    (∀ ms, ms < 500 ∨ 3000 < ms → exec (.attnRelease ms) s = .next { s with pins := { s.pins with button := false } }) ∧
    (s.flt.removal = 1 →
      (∃ t, exec .removalCancel s = .next t ∧ t.flt.removal = 0 ∧ s.raised t 0x0911 2 0xFF ∧ t.pins = s.pins) ∧
      (∃ t, exec .attnHold s = .next t ∧ t.flt.removal = 0 ∧ s.raised t 0x0911 2 0xFF ∧ t.pins.button = true)) ∧
    (s.flt.removal ≠ 1 → exec .removalCancel s = .next s) ∧
    (s.pins.rails = true → s.flt.removal = 3 ∨ (s.flt.removal = 1 ∧ s.anyJob = false) → s.flashWrites = false →
      s.svc.writeTo = [] → ∃ t, exec .mainRailsDown s = .next t ∧ t.pins.rails = false ∧ t.pins.okSteady = true ∧
      t.mem = [] ∧ t.flash = s.flash ∧ (s.svc.mbox.st ≠ .busy → s.raised t 0x0B71 0 0xFF)) ∧
    (s.flashWrites = true ∨ s.svc.writeTo ≠ [] → exec .mainRailsDown s = .next s) ∧
    (s.pins.rails = true → s.pins.okSteady = false →
      (s.anyJob = true → s.flt.selfCause = none → s.flt.fencedSelf = false → ∃ t, exec .latchOpening s = .next t ∧
        t.flt.selfCause = some 15 ∧ t.pins.latchClosed = false ∧ t.pins.rails = true ∧ t.pins.forced = true ∧
        t.get Reg.PWR_STATUS_LATCH_OPEN = 1 ∧ s.raised t 0x0B70 1 0xFF) ∧
      (s.anyJob = false → ∃ t, exec .latchOpening s = .next t ∧ t.pins.latchClosed = false ∧ t.pins.rails = false ∧
        t.mem = [] ∧ t.get Reg.PWR_STATUS_LATCH_OPEN = 1)) ∧
    (s.pins.forced = true → s.flt.selfCause = none → ∃ t, exec .latchPowerDown s = .next t ∧ t.pins.rails = false ∧
      t.pins.forced = false ∧ t.mem = [] ∧ t.flash = s.flash ∧ (s.svc.mbox.st ≠ .busy → s.raised t 0x0B71 1 0xFF)))

/-- Decoding what is encoded gives every strand instruction back (R116, R117, R121, R123, R124, R126, R127, R129, R130,
R133, R137, R141). For every strand instruction that a word encodes, with every operand at every value its field
admits, the encoding is a 128-bit word and decoding it gives the instruction (without what the surroundings add to
it: checks, areas, slack). Left out are POST_EVENTs with CODE 1 to 3: those words are the other services of SVC
(R141). -/
def Obligations.DecodeEncode : Prop :=
  ∀ (a : Site) (i j : Instr), i.bare a = some j → encode i < 2 ^ 128 ∧
    ((∀ p mop x, j = .postEvent a p mop x → x.code ≠ 1 ∧ x.code ≠ 2 ∧ x.code ≠ 3) → decode a (encode i) = some j)

/-- Every command ends in a next state, or its words were rejected at load (R89, R112, R120, R126, R144). For every
command and every state: a command whose words the loader accepts answers a next state; one whose words it does not
is refused as rejected at load, and only a strand instruction can be such. -/
def Obligations.EveryCommandEnds : Prop :=
  ∀ (i : Instr) (s : State), (i.wf = true → ∃ t, exec i s = .next t) ∧
    (i.wf = false → exec i s = .refused .rejectedAtLoad ∧ ∃ (a : Site) (j : Instr), i.bare a = some j)

end
end

