-- ==== Sys2Proof/Laws/State.lean ====
section
/-!
SUPPORT. Laws/State.lean: one lemma per field per named update, true by computation, and what an update
leaves at the place it writes. A lemma `X_frame` lists the fields that `X` leaves alone.
-/

namespace Sys2Proof.Machine

variable (s : State)

@[simp] theorem State.setWord_frame (off : Nat) (w : W64) :
    (s.setWord off w).strands = s.strands ∧ (s.setWord off w).cores = s.cores ∧ (s.setWord off w).groups = s.groups ∧
    (s.setWord off w).so = s.so ∧ (s.setWord off w).mem = s.mem ∧ (s.setWord off w).frames = s.frames ∧
    (s.setWord off w).flash = s.flash ∧ (s.setWord off w).gens = s.gens ∧ (s.setWord off w).bt = s.bt ∧
    (s.setWord off w).flt = s.flt ∧ (s.setWord off w).step = s.step ∧ (s.setWord off w).sec = s.sec ∧
    (s.setWord off w).svc = s.svc ∧ (s.setWord off w).pins = s.pins ∧ (s.setWord off w).pages = s.pages ∧
    (s.setWord off w).prefetches = s.prefetches ∧ (s.setWord off w).gathers = s.gathers ∧
    (s.setWord off w).conns = s.conns ∧ (s.setWord off w).waitSends = s.waitSends ∧
    (s.setWord off w).ports = s.ports ∧ (s.setWord off w).colls = s.colls ∧ (s.setWord off w).collNext = s.collNext ∧
    (s.setWord off w).circNext = s.circNext ∧ (s.setWord off w).collHeld = s.collHeld ∧
    (s.setWord off w).nextOp = s.nextOp ∧ (s.setWord off w).nvme = s.nvme ∧ (s.setWord off w).tcp = s.tcp ∧
    (s.setWord off w).neighbours = s.neighbours ∧ (s.setWord off w).router = s.router ∧
    (s.setWord off w).ingests = s.ingests ∧ (s.setWord off w).ckptFlash = s.ckptFlash ∧
    (s.setWord off w).ckptStore = s.ckptStore ∧ (s.setWord off w).mapChanges = s.mapChanges ∧
    (s.setWord off w).modeInForce = s.modeInForce ∧ (s.setWord off w).modePend = s.modePend ∧
    (s.setWord off w).capInForce = s.capInForce ∧ (s.setWord off w).rate64 = s.rate64 ∧
    (s.setWord off w).throttle = s.throttle ∧ (s.setWord off w).hotBeats = s.hotBeats ∧
    (s.setWord off w).sent = s.sent ∧ (s.setWord off w).freeCounter = s.freeCounter ∧
    (s.setWord off w).pending = s.pending := by
  and_intros <;> rfl

@[simp] theorem State.put_frame (f : Fld) (v i j : Nat) :
    (s.put f v i j).strands = s.strands ∧ (s.put f v i j).cores = s.cores ∧ (s.put f v i j).groups = s.groups ∧
    (s.put f v i j).so = s.so ∧ (s.put f v i j).mem = s.mem ∧ (s.put f v i j).frames = s.frames ∧
    (s.put f v i j).flash = s.flash ∧ (s.put f v i j).gens = s.gens ∧ (s.put f v i j).bt = s.bt ∧
    (s.put f v i j).flt = s.flt ∧ (s.put f v i j).step = s.step ∧ (s.put f v i j).sec = s.sec ∧
    (s.put f v i j).svc = s.svc ∧ (s.put f v i j).pins = s.pins ∧ (s.put f v i j).pages = s.pages ∧
    (s.put f v i j).prefetches = s.prefetches ∧ (s.put f v i j).gathers = s.gathers ∧
    (s.put f v i j).conns = s.conns ∧ (s.put f v i j).waitSends = s.waitSends ∧ (s.put f v i j).ports = s.ports ∧
    (s.put f v i j).colls = s.colls ∧ (s.put f v i j).collNext = s.collNext ∧ (s.put f v i j).circNext = s.circNext ∧
    (s.put f v i j).collHeld = s.collHeld ∧ (s.put f v i j).nextOp = s.nextOp ∧ (s.put f v i j).nvme = s.nvme ∧
    (s.put f v i j).tcp = s.tcp ∧ (s.put f v i j).neighbours = s.neighbours ∧ (s.put f v i j).router = s.router ∧
    (s.put f v i j).ingests = s.ingests ∧ (s.put f v i j).ckptFlash = s.ckptFlash ∧
    (s.put f v i j).ckptStore = s.ckptStore ∧ (s.put f v i j).mapChanges = s.mapChanges ∧
    (s.put f v i j).modeInForce = s.modeInForce ∧ (s.put f v i j).modePend = s.modePend ∧
    (s.put f v i j).capInForce = s.capInForce ∧ (s.put f v i j).rate64 = s.rate64 ∧
    (s.put f v i j).throttle = s.throttle ∧ (s.put f v i j).hotBeats = s.hotBeats ∧ (s.put f v i j).sent = s.sent ∧
    (s.put f v i j).freeCounter = s.freeCounter ∧ (s.put f v i j).pending = s.pending := by
  and_intros <;> rfl

@[simp] theorem State.bump_frame (f : Fld) (i j n : Nat) :
    (s.bump f i j n).strands = s.strands ∧ (s.bump f i j n).cores = s.cores ∧ (s.bump f i j n).groups = s.groups ∧
    (s.bump f i j n).so = s.so ∧ (s.bump f i j n).mem = s.mem ∧ (s.bump f i j n).frames = s.frames ∧
    (s.bump f i j n).flash = s.flash ∧ (s.bump f i j n).gens = s.gens ∧ (s.bump f i j n).bt = s.bt ∧
    (s.bump f i j n).flt = s.flt ∧ (s.bump f i j n).step = s.step ∧ (s.bump f i j n).sec = s.sec ∧
    (s.bump f i j n).svc = s.svc ∧ (s.bump f i j n).pins = s.pins ∧ (s.bump f i j n).pages = s.pages ∧
    (s.bump f i j n).prefetches = s.prefetches ∧ (s.bump f i j n).gathers = s.gathers ∧
    (s.bump f i j n).conns = s.conns ∧ (s.bump f i j n).waitSends = s.waitSends ∧ (s.bump f i j n).ports = s.ports ∧
    (s.bump f i j n).colls = s.colls ∧ (s.bump f i j n).collNext = s.collNext ∧
    (s.bump f i j n).circNext = s.circNext ∧ (s.bump f i j n).collHeld = s.collHeld ∧
    (s.bump f i j n).nextOp = s.nextOp ∧ (s.bump f i j n).nvme = s.nvme ∧ (s.bump f i j n).tcp = s.tcp ∧
    (s.bump f i j n).neighbours = s.neighbours ∧ (s.bump f i j n).router = s.router ∧
    (s.bump f i j n).ingests = s.ingests ∧ (s.bump f i j n).ckptFlash = s.ckptFlash ∧
    (s.bump f i j n).ckptStore = s.ckptStore ∧ (s.bump f i j n).mapChanges = s.mapChanges ∧
    (s.bump f i j n).modeInForce = s.modeInForce ∧ (s.bump f i j n).modePend = s.modePend ∧
    (s.bump f i j n).capInForce = s.capInForce ∧ (s.bump f i j n).rate64 = s.rate64 ∧
    (s.bump f i j n).throttle = s.throttle ∧ (s.bump f i j n).hotBeats = s.hotBeats ∧
    (s.bump f i j n).sent = s.sent ∧ (s.bump f i j n).freeCounter = s.freeCounter ∧
    (s.bump f i j n).pending = s.pending := by
  and_intros <;> rfl

@[simp] theorem State.setStrand_frame (a : Site) (t : Strand) :
    (s.setStrand a t).regs = s.regs ∧ (s.setStrand a t).cores = s.cores ∧ (s.setStrand a t).groups = s.groups ∧
    (s.setStrand a t).so = s.so ∧ (s.setStrand a t).mem = s.mem ∧ (s.setStrand a t).frames = s.frames ∧
    (s.setStrand a t).flash = s.flash ∧ (s.setStrand a t).gens = s.gens ∧ (s.setStrand a t).bt = s.bt ∧
    (s.setStrand a t).flt = s.flt ∧ (s.setStrand a t).step = s.step ∧ (s.setStrand a t).sec = s.sec ∧
    (s.setStrand a t).svc = s.svc ∧ (s.setStrand a t).pins = s.pins ∧ (s.setStrand a t).pages = s.pages ∧
    (s.setStrand a t).prefetches = s.prefetches ∧ (s.setStrand a t).gathers = s.gathers ∧
    (s.setStrand a t).conns = s.conns ∧ (s.setStrand a t).waitSends = s.waitSends ∧
    (s.setStrand a t).ports = s.ports ∧ (s.setStrand a t).colls = s.colls ∧ (s.setStrand a t).collNext = s.collNext ∧
    (s.setStrand a t).circNext = s.circNext ∧ (s.setStrand a t).collHeld = s.collHeld ∧
    (s.setStrand a t).nextOp = s.nextOp ∧ (s.setStrand a t).nvme = s.nvme ∧ (s.setStrand a t).tcp = s.tcp ∧
    (s.setStrand a t).neighbours = s.neighbours ∧ (s.setStrand a t).router = s.router ∧
    (s.setStrand a t).ingests = s.ingests ∧ (s.setStrand a t).ckptFlash = s.ckptFlash ∧
    (s.setStrand a t).ckptStore = s.ckptStore ∧ (s.setStrand a t).mapChanges = s.mapChanges ∧
    (s.setStrand a t).modeInForce = s.modeInForce ∧ (s.setStrand a t).modePend = s.modePend ∧
    (s.setStrand a t).capInForce = s.capInForce ∧ (s.setStrand a t).rate64 = s.rate64 ∧
    (s.setStrand a t).throttle = s.throttle ∧ (s.setStrand a t).hotBeats = s.hotBeats ∧
    (s.setStrand a t).sent = s.sent ∧ (s.setStrand a t).freeCounter = s.freeCounter ∧
    (s.setStrand a t).pending = s.pending := by
  and_intros <;> rfl

@[simp] theorem State.setCore_frame (c : Nat) (t : CoreSt) :
    (s.setCore c t).regs = s.regs ∧ (s.setCore c t).strands = s.strands ∧ (s.setCore c t).groups = s.groups ∧
    (s.setCore c t).so = s.so ∧ (s.setCore c t).mem = s.mem ∧ (s.setCore c t).frames = s.frames ∧
    (s.setCore c t).flash = s.flash ∧ (s.setCore c t).gens = s.gens ∧ (s.setCore c t).bt = s.bt ∧
    (s.setCore c t).flt = s.flt ∧ (s.setCore c t).step = s.step ∧ (s.setCore c t).sec = s.sec ∧
    (s.setCore c t).svc = s.svc ∧ (s.setCore c t).pins = s.pins ∧ (s.setCore c t).pages = s.pages ∧
    (s.setCore c t).prefetches = s.prefetches ∧ (s.setCore c t).gathers = s.gathers ∧
    (s.setCore c t).conns = s.conns ∧ (s.setCore c t).waitSends = s.waitSends ∧ (s.setCore c t).ports = s.ports ∧
    (s.setCore c t).colls = s.colls ∧ (s.setCore c t).collNext = s.collNext ∧ (s.setCore c t).circNext = s.circNext ∧
    (s.setCore c t).collHeld = s.collHeld ∧ (s.setCore c t).nextOp = s.nextOp ∧ (s.setCore c t).nvme = s.nvme ∧
    (s.setCore c t).tcp = s.tcp ∧ (s.setCore c t).neighbours = s.neighbours ∧ (s.setCore c t).router = s.router ∧
    (s.setCore c t).ingests = s.ingests ∧ (s.setCore c t).ckptFlash = s.ckptFlash ∧
    (s.setCore c t).ckptStore = s.ckptStore ∧ (s.setCore c t).mapChanges = s.mapChanges ∧
    (s.setCore c t).modeInForce = s.modeInForce ∧ (s.setCore c t).modePend = s.modePend ∧
    (s.setCore c t).capInForce = s.capInForce ∧ (s.setCore c t).rate64 = s.rate64 ∧
    (s.setCore c t).throttle = s.throttle ∧ (s.setCore c t).hotBeats = s.hotBeats ∧ (s.setCore c t).sent = s.sent ∧
    (s.setCore c t).freeCounter = s.freeCounter ∧ (s.setCore c t).pending = s.pending := by
  and_intros <;> rfl

@[simp] theorem State.setGroup_frame (g : Nat) (t : GroupSt) :
    (s.setGroup g t).regs = s.regs ∧ (s.setGroup g t).strands = s.strands ∧ (s.setGroup g t).cores = s.cores ∧
    (s.setGroup g t).so = s.so ∧ (s.setGroup g t).mem = s.mem ∧ (s.setGroup g t).frames = s.frames ∧
    (s.setGroup g t).flash = s.flash ∧ (s.setGroup g t).gens = s.gens ∧ (s.setGroup g t).bt = s.bt ∧
    (s.setGroup g t).flt = s.flt ∧ (s.setGroup g t).step = s.step ∧ (s.setGroup g t).sec = s.sec ∧
    (s.setGroup g t).svc = s.svc ∧ (s.setGroup g t).pins = s.pins ∧ (s.setGroup g t).pages = s.pages ∧
    (s.setGroup g t).prefetches = s.prefetches ∧ (s.setGroup g t).gathers = s.gathers ∧
    (s.setGroup g t).conns = s.conns ∧ (s.setGroup g t).waitSends = s.waitSends ∧ (s.setGroup g t).ports = s.ports ∧
    (s.setGroup g t).colls = s.colls ∧ (s.setGroup g t).collNext = s.collNext ∧
    (s.setGroup g t).circNext = s.circNext ∧ (s.setGroup g t).collHeld = s.collHeld ∧
    (s.setGroup g t).nextOp = s.nextOp ∧ (s.setGroup g t).nvme = s.nvme ∧ (s.setGroup g t).tcp = s.tcp ∧
    (s.setGroup g t).neighbours = s.neighbours ∧ (s.setGroup g t).router = s.router ∧
    (s.setGroup g t).ingests = s.ingests ∧ (s.setGroup g t).ckptFlash = s.ckptFlash ∧
    (s.setGroup g t).ckptStore = s.ckptStore ∧ (s.setGroup g t).mapChanges = s.mapChanges ∧
    (s.setGroup g t).modeInForce = s.modeInForce ∧ (s.setGroup g t).modePend = s.modePend ∧
    (s.setGroup g t).capInForce = s.capInForce ∧ (s.setGroup g t).rate64 = s.rate64 ∧
    (s.setGroup g t).throttle = s.throttle ∧ (s.setGroup g t).hotBeats = s.hotBeats ∧
    (s.setGroup g t).sent = s.sent ∧ (s.setGroup g t).freeCounter = s.freeCounter ∧
    (s.setGroup g t).pending = s.pending := by
  and_intros <;> rfl

@[simp] theorem State.setObj_frame (i : Nat) (o : SyncObj) :
    (s.setObj i o).regs = s.regs ∧ (s.setObj i o).strands = s.strands ∧ (s.setObj i o).cores = s.cores ∧
    (s.setObj i o).groups = s.groups ∧ (s.setObj i o).mem = s.mem ∧ (s.setObj i o).frames = s.frames ∧
    (s.setObj i o).flash = s.flash ∧ (s.setObj i o).gens = s.gens ∧ (s.setObj i o).bt = s.bt ∧
    (s.setObj i o).flt = s.flt ∧ (s.setObj i o).step = s.step ∧ (s.setObj i o).sec = s.sec ∧
    (s.setObj i o).svc = s.svc ∧ (s.setObj i o).pins = s.pins ∧ (s.setObj i o).pages = s.pages ∧
    (s.setObj i o).prefetches = s.prefetches ∧ (s.setObj i o).gathers = s.gathers ∧ (s.setObj i o).conns = s.conns ∧
    (s.setObj i o).waitSends = s.waitSends ∧ (s.setObj i o).ports = s.ports ∧ (s.setObj i o).colls = s.colls ∧
    (s.setObj i o).collNext = s.collNext ∧ (s.setObj i o).circNext = s.circNext ∧
    (s.setObj i o).collHeld = s.collHeld ∧ (s.setObj i o).nextOp = s.nextOp ∧ (s.setObj i o).nvme = s.nvme ∧
    (s.setObj i o).tcp = s.tcp ∧ (s.setObj i o).neighbours = s.neighbours ∧ (s.setObj i o).router = s.router ∧
    (s.setObj i o).ingests = s.ingests ∧ (s.setObj i o).ckptFlash = s.ckptFlash ∧
    (s.setObj i o).ckptStore = s.ckptStore ∧ (s.setObj i o).mapChanges = s.mapChanges ∧
    (s.setObj i o).modeInForce = s.modeInForce ∧ (s.setObj i o).modePend = s.modePend ∧
    (s.setObj i o).capInForce = s.capInForce ∧ (s.setObj i o).rate64 = s.rate64 ∧
    (s.setObj i o).throttle = s.throttle ∧ (s.setObj i o).hotBeats = s.hotBeats ∧ (s.setObj i o).sent = s.sent ∧
    (s.setObj i o).freeCounter = s.freeCounter ∧ (s.setObj i o).pending = s.pending := by
  and_intros <;> rfl

@[simp] theorem State.setCtx_frame (c : Nat) (x : Ctx) :
    (s.setCtx c x).regs = s.regs ∧ (s.setCtx c x).strands = s.strands ∧ (s.setCtx c x).cores = s.cores ∧
    (s.setCtx c x).groups = s.groups ∧ (s.setCtx c x).so = s.so ∧ (s.setCtx c x).mem = s.mem ∧
    (s.setCtx c x).frames = s.frames ∧ (s.setCtx c x).flash = s.flash ∧ (s.setCtx c x).gens = s.gens ∧
    (s.setCtx c x).bt = s.bt ∧ (s.setCtx c x).flt = s.flt ∧ (s.setCtx c x).step = s.step ∧
    (s.setCtx c x).svc = s.svc ∧ (s.setCtx c x).pins = s.pins ∧ (s.setCtx c x).pages = s.pages ∧
    (s.setCtx c x).prefetches = s.prefetches ∧ (s.setCtx c x).gathers = s.gathers ∧ (s.setCtx c x).conns = s.conns ∧
    (s.setCtx c x).waitSends = s.waitSends ∧ (s.setCtx c x).ports = s.ports ∧ (s.setCtx c x).colls = s.colls ∧
    (s.setCtx c x).collNext = s.collNext ∧ (s.setCtx c x).circNext = s.circNext ∧
    (s.setCtx c x).collHeld = s.collHeld ∧ (s.setCtx c x).nextOp = s.nextOp ∧ (s.setCtx c x).nvme = s.nvme ∧
    (s.setCtx c x).tcp = s.tcp ∧ (s.setCtx c x).neighbours = s.neighbours ∧ (s.setCtx c x).router = s.router ∧
    (s.setCtx c x).ingests = s.ingests ∧ (s.setCtx c x).ckptFlash = s.ckptFlash ∧
    (s.setCtx c x).ckptStore = s.ckptStore ∧ (s.setCtx c x).mapChanges = s.mapChanges ∧
    (s.setCtx c x).modeInForce = s.modeInForce ∧ (s.setCtx c x).modePend = s.modePend ∧
    (s.setCtx c x).capInForce = s.capInForce ∧ (s.setCtx c x).rate64 = s.rate64 ∧
    (s.setCtx c x).throttle = s.throttle ∧ (s.setCtx c x).hotBeats = s.hotBeats ∧ (s.setCtx c x).sent = s.sent ∧
    (s.setCtx c x).freeCounter = s.freeCounter ∧ (s.setCtx c x).pending = s.pending := by
  and_intros <;> rfl

@[simp] theorem State.setConn_frame (i : Nat) (c : Conn) :
    (s.setConn i c).regs = s.regs ∧ (s.setConn i c).strands = s.strands ∧ (s.setConn i c).cores = s.cores ∧
    (s.setConn i c).groups = s.groups ∧ (s.setConn i c).so = s.so ∧ (s.setConn i c).mem = s.mem ∧
    (s.setConn i c).frames = s.frames ∧ (s.setConn i c).flash = s.flash ∧ (s.setConn i c).gens = s.gens ∧
    (s.setConn i c).bt = s.bt ∧ (s.setConn i c).flt = s.flt ∧ (s.setConn i c).step = s.step ∧
    (s.setConn i c).sec = s.sec ∧ (s.setConn i c).svc = s.svc ∧ (s.setConn i c).pins = s.pins ∧
    (s.setConn i c).pages = s.pages ∧ (s.setConn i c).prefetches = s.prefetches ∧
    (s.setConn i c).gathers = s.gathers ∧ (s.setConn i c).waitSends = s.waitSends ∧ (s.setConn i c).ports = s.ports ∧
    (s.setConn i c).colls = s.colls ∧ (s.setConn i c).collNext = s.collNext ∧ (s.setConn i c).circNext = s.circNext ∧
    (s.setConn i c).collHeld = s.collHeld ∧ (s.setConn i c).nextOp = s.nextOp ∧ (s.setConn i c).nvme = s.nvme ∧
    (s.setConn i c).tcp = s.tcp ∧ (s.setConn i c).neighbours = s.neighbours ∧ (s.setConn i c).router = s.router ∧
    (s.setConn i c).ingests = s.ingests ∧ (s.setConn i c).ckptFlash = s.ckptFlash ∧
    (s.setConn i c).ckptStore = s.ckptStore ∧ (s.setConn i c).mapChanges = s.mapChanges ∧
    (s.setConn i c).modeInForce = s.modeInForce ∧ (s.setConn i c).modePend = s.modePend ∧
    (s.setConn i c).capInForce = s.capInForce ∧ (s.setConn i c).rate64 = s.rate64 ∧
    (s.setConn i c).throttle = s.throttle ∧ (s.setConn i c).hotBeats = s.hotBeats ∧ (s.setConn i c).sent = s.sent ∧
    (s.setConn i c).freeCounter = s.freeCounter ∧ (s.setConn i c).pending = s.pending := by
  and_intros <;> rfl

@[simp] theorem State.setPort_frame (p : Nat) (q : Port) :
    (s.setPort p q).regs = s.regs ∧ (s.setPort p q).strands = s.strands ∧ (s.setPort p q).cores = s.cores ∧
    (s.setPort p q).groups = s.groups ∧ (s.setPort p q).so = s.so ∧ (s.setPort p q).mem = s.mem ∧
    (s.setPort p q).frames = s.frames ∧ (s.setPort p q).flash = s.flash ∧ (s.setPort p q).gens = s.gens ∧
    (s.setPort p q).bt = s.bt ∧ (s.setPort p q).flt = s.flt ∧ (s.setPort p q).step = s.step ∧
    (s.setPort p q).sec = s.sec ∧ (s.setPort p q).svc = s.svc ∧ (s.setPort p q).pins = s.pins ∧
    (s.setPort p q).pages = s.pages ∧ (s.setPort p q).prefetches = s.prefetches ∧
    (s.setPort p q).gathers = s.gathers ∧ (s.setPort p q).conns = s.conns ∧ (s.setPort p q).waitSends = s.waitSends ∧
    (s.setPort p q).colls = s.colls ∧ (s.setPort p q).collNext = s.collNext ∧ (s.setPort p q).circNext = s.circNext ∧
    (s.setPort p q).collHeld = s.collHeld ∧ (s.setPort p q).nextOp = s.nextOp ∧ (s.setPort p q).nvme = s.nvme ∧
    (s.setPort p q).tcp = s.tcp ∧ (s.setPort p q).neighbours = s.neighbours ∧ (s.setPort p q).router = s.router ∧
    (s.setPort p q).ingests = s.ingests ∧ (s.setPort p q).ckptFlash = s.ckptFlash ∧
    (s.setPort p q).ckptStore = s.ckptStore ∧ (s.setPort p q).mapChanges = s.mapChanges ∧
    (s.setPort p q).modeInForce = s.modeInForce ∧ (s.setPort p q).modePend = s.modePend ∧
    (s.setPort p q).capInForce = s.capInForce ∧ (s.setPort p q).rate64 = s.rate64 ∧
    (s.setPort p q).throttle = s.throttle ∧ (s.setPort p q).hotBeats = s.hotBeats ∧ (s.setPort p q).sent = s.sent ∧
    (s.setPort p q).freeCounter = s.freeCounter ∧ (s.setPort p q).pending = s.pending := by
  and_intros <;> rfl

@[simp] theorem State.setFrame_frame (f : Nat) (x : FrameSt) :
    (s.setFrame f x).regs = s.regs ∧ (s.setFrame f x).strands = s.strands ∧ (s.setFrame f x).cores = s.cores ∧
    (s.setFrame f x).groups = s.groups ∧ (s.setFrame f x).so = s.so ∧ (s.setFrame f x).mem = s.mem ∧
    (s.setFrame f x).flash = s.flash ∧ (s.setFrame f x).gens = s.gens ∧ (s.setFrame f x).bt = s.bt ∧
    (s.setFrame f x).flt = s.flt ∧ (s.setFrame f x).step = s.step ∧ (s.setFrame f x).sec = s.sec ∧
    (s.setFrame f x).svc = s.svc ∧ (s.setFrame f x).pins = s.pins ∧ (s.setFrame f x).pages = s.pages ∧
    (s.setFrame f x).prefetches = s.prefetches ∧ (s.setFrame f x).gathers = s.gathers ∧
    (s.setFrame f x).conns = s.conns ∧ (s.setFrame f x).waitSends = s.waitSends ∧ (s.setFrame f x).ports = s.ports ∧
    (s.setFrame f x).colls = s.colls ∧ (s.setFrame f x).collNext = s.collNext ∧
    (s.setFrame f x).circNext = s.circNext ∧ (s.setFrame f x).collHeld = s.collHeld ∧
    (s.setFrame f x).nextOp = s.nextOp ∧ (s.setFrame f x).nvme = s.nvme ∧ (s.setFrame f x).tcp = s.tcp ∧
    (s.setFrame f x).neighbours = s.neighbours ∧ (s.setFrame f x).router = s.router ∧
    (s.setFrame f x).ingests = s.ingests ∧ (s.setFrame f x).ckptFlash = s.ckptFlash ∧
    (s.setFrame f x).ckptStore = s.ckptStore ∧ (s.setFrame f x).mapChanges = s.mapChanges ∧
    (s.setFrame f x).modeInForce = s.modeInForce ∧ (s.setFrame f x).modePend = s.modePend ∧
    (s.setFrame f x).capInForce = s.capInForce ∧ (s.setFrame f x).rate64 = s.rate64 ∧
    (s.setFrame f x).throttle = s.throttle ∧ (s.setFrame f x).hotBeats = s.hotBeats ∧
    (s.setFrame f x).sent = s.sent ∧ (s.setFrame f x).freeCounter = s.freeCounter ∧
    (s.setFrame f x).pending = s.pending := by
  and_intros <;> rfl

@[simp] theorem State.setPeer_frame (p : Nat) (x : Option Peer) :
    (s.setPeer p x).regs = s.regs ∧ (s.setPeer p x).strands = s.strands ∧ (s.setPeer p x).cores = s.cores ∧
    (s.setPeer p x).groups = s.groups ∧ (s.setPeer p x).so = s.so ∧ (s.setPeer p x).mem = s.mem ∧
    (s.setPeer p x).frames = s.frames ∧ (s.setPeer p x).flash = s.flash ∧ (s.setPeer p x).gens = s.gens ∧
    (s.setPeer p x).flt = s.flt ∧ (s.setPeer p x).step = s.step ∧ (s.setPeer p x).sec = s.sec ∧
    (s.setPeer p x).svc = s.svc ∧ (s.setPeer p x).pins = s.pins ∧ (s.setPeer p x).pages = s.pages ∧
    (s.setPeer p x).prefetches = s.prefetches ∧ (s.setPeer p x).gathers = s.gathers ∧
    (s.setPeer p x).conns = s.conns ∧ (s.setPeer p x).waitSends = s.waitSends ∧ (s.setPeer p x).ports = s.ports ∧
    (s.setPeer p x).colls = s.colls ∧ (s.setPeer p x).collNext = s.collNext ∧ (s.setPeer p x).circNext = s.circNext ∧
    (s.setPeer p x).collHeld = s.collHeld ∧ (s.setPeer p x).nextOp = s.nextOp ∧ (s.setPeer p x).nvme = s.nvme ∧
    (s.setPeer p x).tcp = s.tcp ∧ (s.setPeer p x).neighbours = s.neighbours ∧ (s.setPeer p x).router = s.router ∧
    (s.setPeer p x).ingests = s.ingests ∧ (s.setPeer p x).ckptFlash = s.ckptFlash ∧
    (s.setPeer p x).ckptStore = s.ckptStore ∧ (s.setPeer p x).mapChanges = s.mapChanges ∧
    (s.setPeer p x).modeInForce = s.modeInForce ∧ (s.setPeer p x).modePend = s.modePend ∧
    (s.setPeer p x).capInForce = s.capInForce ∧ (s.setPeer p x).rate64 = s.rate64 ∧
    (s.setPeer p x).throttle = s.throttle ∧ (s.setPeer p x).hotBeats = s.hotBeats ∧ (s.setPeer p x).sent = s.sent ∧
    (s.setPeer p x).freeCounter = s.freeCounter ∧ (s.setPeer p x).pending = s.pending := by
  and_intros <;> rfl

@[simp] theorem State.drawn_frame :
    (s.drawn).regs = s.regs ∧ (s.drawn).strands = s.strands ∧ (s.drawn).cores = s.cores ∧
    (s.drawn).groups = s.groups ∧ (s.drawn).so = s.so ∧ (s.drawn).mem = s.mem ∧ (s.drawn).frames = s.frames ∧
    (s.drawn).flash = s.flash ∧ (s.drawn).gens = s.gens ∧ (s.drawn).bt = s.bt ∧ (s.drawn).flt = s.flt ∧
    (s.drawn).step = s.step ∧ (s.drawn).sec = s.sec ∧ (s.drawn).svc = s.svc ∧ (s.drawn).pins = s.pins ∧
    (s.drawn).pages = s.pages ∧ (s.drawn).prefetches = s.prefetches ∧ (s.drawn).gathers = s.gathers ∧
    (s.drawn).conns = s.conns ∧ (s.drawn).waitSends = s.waitSends ∧ (s.drawn).ports = s.ports ∧
    (s.drawn).colls = s.colls ∧ (s.drawn).collNext = s.collNext ∧ (s.drawn).circNext = s.circNext ∧
    (s.drawn).collHeld = s.collHeld ∧ (s.drawn).nextOp = s.nextOp ∧ (s.drawn).nvme = s.nvme ∧ (s.drawn).tcp = s.tcp ∧
    (s.drawn).neighbours = s.neighbours ∧ (s.drawn).router = s.router ∧ (s.drawn).ingests = s.ingests ∧
    (s.drawn).ckptFlash = s.ckptFlash ∧ (s.drawn).ckptStore = s.ckptStore ∧ (s.drawn).mapChanges = s.mapChanges ∧
    (s.drawn).modeInForce = s.modeInForce ∧ (s.drawn).modePend = s.modePend ∧ (s.drawn).capInForce = s.capInForce ∧
    (s.drawn).rate64 = s.rate64 ∧ (s.drawn).throttle = s.throttle ∧ (s.drawn).hotBeats = s.hotBeats ∧
    (s.drawn).sent = s.sent ∧ (s.drawn).pending = s.pending := by
  and_intros <;> rfl

@[simp] theorem State.record_frame (r : EvtRec) :
    (s.record r).strands = s.strands ∧ (s.record r).cores = s.cores ∧ (s.record r).groups = s.groups ∧
    (s.record r).so = s.so ∧ (s.record r).mem = s.mem ∧ (s.record r).frames = s.frames ∧
    (s.record r).flash = s.flash ∧ (s.record r).gens = s.gens ∧ (s.record r).bt = s.bt ∧ (s.record r).flt = s.flt ∧
    (s.record r).step = s.step ∧ (s.record r).sec = s.sec ∧ (s.record r).pins = s.pins ∧
    (s.record r).pages = s.pages ∧ (s.record r).prefetches = s.prefetches ∧ (s.record r).gathers = s.gathers ∧
    (s.record r).conns = s.conns ∧ (s.record r).waitSends = s.waitSends ∧ (s.record r).ports = s.ports ∧
    (s.record r).colls = s.colls ∧ (s.record r).collNext = s.collNext ∧ (s.record r).circNext = s.circNext ∧
    (s.record r).collHeld = s.collHeld ∧ (s.record r).nextOp = s.nextOp ∧ (s.record r).nvme = s.nvme ∧
    (s.record r).tcp = s.tcp ∧ (s.record r).neighbours = s.neighbours ∧ (s.record r).router = s.router ∧
    (s.record r).ingests = s.ingests ∧ (s.record r).ckptFlash = s.ckptFlash ∧ (s.record r).ckptStore = s.ckptStore ∧
    (s.record r).mapChanges = s.mapChanges ∧ (s.record r).modeInForce = s.modeInForce ∧
    (s.record r).modePend = s.modePend ∧ (s.record r).capInForce = s.capInForce ∧ (s.record r).rate64 = s.rate64 ∧
    (s.record r).throttle = s.throttle ∧ (s.record r).hotBeats = s.hotBeats ∧ (s.record r).sent = s.sent ∧
    (s.record r).freeCounter = s.freeCounter ∧ (s.record r).pending = s.pending := by
  and_intros <;> rfl

@[simp] theorem State.event_frame (code detail core : Nat) :
    (s.event code detail core).strands = s.strands ∧ (s.event code detail core).cores = s.cores ∧
    (s.event code detail core).groups = s.groups ∧ (s.event code detail core).so = s.so ∧
    (s.event code detail core).mem = s.mem ∧ (s.event code detail core).frames = s.frames ∧
    (s.event code detail core).flash = s.flash ∧ (s.event code detail core).gens = s.gens ∧
    (s.event code detail core).bt = s.bt ∧ (s.event code detail core).flt = s.flt ∧
    (s.event code detail core).step = s.step ∧ (s.event code detail core).sec = s.sec ∧
    (s.event code detail core).pins = s.pins ∧ (s.event code detail core).pages = s.pages ∧
    (s.event code detail core).prefetches = s.prefetches ∧ (s.event code detail core).gathers = s.gathers ∧
    (s.event code detail core).conns = s.conns ∧ (s.event code detail core).waitSends = s.waitSends ∧
    (s.event code detail core).ports = s.ports ∧ (s.event code detail core).colls = s.colls ∧
    (s.event code detail core).collNext = s.collNext ∧ (s.event code detail core).circNext = s.circNext ∧
    (s.event code detail core).collHeld = s.collHeld ∧ (s.event code detail core).nextOp = s.nextOp ∧
    (s.event code detail core).nvme = s.nvme ∧ (s.event code detail core).tcp = s.tcp ∧
    (s.event code detail core).neighbours = s.neighbours ∧ (s.event code detail core).router = s.router ∧
    (s.event code detail core).ingests = s.ingests ∧ (s.event code detail core).ckptFlash = s.ckptFlash ∧
    (s.event code detail core).ckptStore = s.ckptStore ∧ (s.event code detail core).mapChanges = s.mapChanges ∧
    (s.event code detail core).modeInForce = s.modeInForce ∧ (s.event code detail core).modePend = s.modePend ∧
    (s.event code detail core).capInForce = s.capInForce ∧ (s.event code detail core).rate64 = s.rate64 ∧
    (s.event code detail core).throttle = s.throttle ∧ (s.event code detail core).hotBeats = s.hotBeats ∧
    (s.event code detail core).sent = s.sent ∧ (s.event code detail core).freeCounter = s.freeCounter ∧
    (s.event code detail core).pending = s.pending := by
  and_intros <;> rfl

@[simp] theorem State.eventFor_frame (c code detail : Nat) :
    (s.eventFor c code detail).strands = s.strands ∧ (s.eventFor c code detail).cores = s.cores ∧
    (s.eventFor c code detail).groups = s.groups ∧ (s.eventFor c code detail).so = s.so ∧
    (s.eventFor c code detail).mem = s.mem ∧ (s.eventFor c code detail).frames = s.frames ∧
    (s.eventFor c code detail).flash = s.flash ∧ (s.eventFor c code detail).gens = s.gens ∧
    (s.eventFor c code detail).bt = s.bt ∧ (s.eventFor c code detail).flt = s.flt ∧
    (s.eventFor c code detail).step = s.step ∧ (s.eventFor c code detail).sec = s.sec ∧
    (s.eventFor c code detail).pins = s.pins ∧ (s.eventFor c code detail).pages = s.pages ∧
    (s.eventFor c code detail).prefetches = s.prefetches ∧ (s.eventFor c code detail).gathers = s.gathers ∧
    (s.eventFor c code detail).conns = s.conns ∧ (s.eventFor c code detail).waitSends = s.waitSends ∧
    (s.eventFor c code detail).ports = s.ports ∧ (s.eventFor c code detail).colls = s.colls ∧
    (s.eventFor c code detail).collNext = s.collNext ∧ (s.eventFor c code detail).circNext = s.circNext ∧
    (s.eventFor c code detail).collHeld = s.collHeld ∧ (s.eventFor c code detail).nextOp = s.nextOp ∧
    (s.eventFor c code detail).nvme = s.nvme ∧ (s.eventFor c code detail).tcp = s.tcp ∧
    (s.eventFor c code detail).neighbours = s.neighbours ∧ (s.eventFor c code detail).router = s.router ∧
    (s.eventFor c code detail).ingests = s.ingests ∧ (s.eventFor c code detail).ckptFlash = s.ckptFlash ∧
    (s.eventFor c code detail).ckptStore = s.ckptStore ∧ (s.eventFor c code detail).mapChanges = s.mapChanges ∧
    (s.eventFor c code detail).modeInForce = s.modeInForce ∧ (s.eventFor c code detail).modePend = s.modePend ∧
    (s.eventFor c code detail).capInForce = s.capInForce ∧ (s.eventFor c code detail).rate64 = s.rate64 ∧
    (s.eventFor c code detail).throttle = s.throttle ∧ (s.eventFor c code detail).hotBeats = s.hotBeats ∧
    (s.eventFor c code detail).sent = s.sent ∧ (s.eventFor c code detail).freeCounter = s.freeCounter ∧
    (s.eventFor c code detail).pending = s.pending := by
  and_intros <;> rfl

@[simp] theorem State.setProgErr_frame (detail core : Nat) :
    (s.setProgErr detail core).regs = s.regs ∧ (s.setProgErr detail core).strands = s.strands ∧
    (s.setProgErr detail core).cores = s.cores ∧ (s.setProgErr detail core).groups = s.groups ∧
    (s.setProgErr detail core).so = s.so ∧ (s.setProgErr detail core).mem = s.mem ∧
    (s.setProgErr detail core).frames = s.frames ∧ (s.setProgErr detail core).flash = s.flash ∧
    (s.setProgErr detail core).gens = s.gens ∧ (s.setProgErr detail core).bt = s.bt ∧
    (s.setProgErr detail core).flt = s.flt ∧ (s.setProgErr detail core).step = s.step ∧
    (s.setProgErr detail core).sec = s.sec ∧ (s.setProgErr detail core).pins = s.pins ∧
    (s.setProgErr detail core).pages = s.pages ∧ (s.setProgErr detail core).prefetches = s.prefetches ∧
    (s.setProgErr detail core).gathers = s.gathers ∧ (s.setProgErr detail core).conns = s.conns ∧
    (s.setProgErr detail core).waitSends = s.waitSends ∧ (s.setProgErr detail core).ports = s.ports ∧
    (s.setProgErr detail core).colls = s.colls ∧ (s.setProgErr detail core).collNext = s.collNext ∧
    (s.setProgErr detail core).circNext = s.circNext ∧ (s.setProgErr detail core).collHeld = s.collHeld ∧
    (s.setProgErr detail core).nextOp = s.nextOp ∧ (s.setProgErr detail core).nvme = s.nvme ∧
    (s.setProgErr detail core).tcp = s.tcp ∧ (s.setProgErr detail core).neighbours = s.neighbours ∧
    (s.setProgErr detail core).router = s.router ∧ (s.setProgErr detail core).ingests = s.ingests ∧
    (s.setProgErr detail core).ckptFlash = s.ckptFlash ∧ (s.setProgErr detail core).ckptStore = s.ckptStore ∧
    (s.setProgErr detail core).mapChanges = s.mapChanges ∧ (s.setProgErr detail core).modeInForce = s.modeInForce ∧
    (s.setProgErr detail core).modePend = s.modePend ∧ (s.setProgErr detail core).capInForce = s.capInForce ∧
    (s.setProgErr detail core).rate64 = s.rate64 ∧ (s.setProgErr detail core).throttle = s.throttle ∧
    (s.setProgErr detail core).hotBeats = s.hotBeats ∧ (s.setProgErr detail core).sent = s.sent ∧
    (s.setProgErr detail core).freeCounter = s.freeCounter ∧ (s.setProgErr detail core).pending = s.pending := by
  and_intros <;> rfl

@[simp] theorem State.stopStrands_frame :
    (s.stopStrands).regs = s.regs ∧ (s.stopStrands).cores = s.cores ∧ (s.stopStrands).groups = s.groups ∧
    (s.stopStrands).so = s.so ∧ (s.stopStrands).mem = s.mem ∧ (s.stopStrands).frames = s.frames ∧
    (s.stopStrands).flash = s.flash ∧ (s.stopStrands).gens = s.gens ∧ (s.stopStrands).bt = s.bt ∧
    (s.stopStrands).flt = s.flt ∧ (s.stopStrands).step = s.step ∧ (s.stopStrands).sec = s.sec ∧
    (s.stopStrands).svc = s.svc ∧ (s.stopStrands).pins = s.pins ∧ (s.stopStrands).pages = s.pages ∧
    (s.stopStrands).prefetches = s.prefetches ∧ (s.stopStrands).gathers = s.gathers ∧
    (s.stopStrands).conns = s.conns ∧ (s.stopStrands).waitSends = s.waitSends ∧ (s.stopStrands).ports = s.ports ∧
    (s.stopStrands).colls = s.colls ∧ (s.stopStrands).collNext = s.collNext ∧ (s.stopStrands).circNext = s.circNext ∧
    (s.stopStrands).collHeld = s.collHeld ∧ (s.stopStrands).nextOp = s.nextOp ∧ (s.stopStrands).nvme = s.nvme ∧
    (s.stopStrands).tcp = s.tcp ∧ (s.stopStrands).neighbours = s.neighbours ∧ (s.stopStrands).router = s.router ∧
    (s.stopStrands).ingests = s.ingests ∧ (s.stopStrands).ckptFlash = s.ckptFlash ∧
    (s.stopStrands).ckptStore = s.ckptStore ∧ (s.stopStrands).mapChanges = s.mapChanges ∧
    (s.stopStrands).modeInForce = s.modeInForce ∧ (s.stopStrands).modePend = s.modePend ∧
    (s.stopStrands).capInForce = s.capInForce ∧ (s.stopStrands).rate64 = s.rate64 ∧
    (s.stopStrands).throttle = s.throttle ∧ (s.stopStrands).hotBeats = s.hotBeats ∧ (s.stopStrands).sent = s.sent ∧
    (s.stopStrands).freeCounter = s.freeCounter ∧ (s.stopStrands).pending = s.pending := by
  and_intros <;> rfl

@[simp] theorem State.twrite_frame (core at_ : Nat) (bs : List Byte) :
    (s.twrite core at_ bs).regs = s.regs ∧ (s.twrite core at_ bs).strands = s.strands ∧
    (s.twrite core at_ bs).groups = s.groups ∧ (s.twrite core at_ bs).so = s.so ∧
    (s.twrite core at_ bs).mem = s.mem ∧ (s.twrite core at_ bs).frames = s.frames ∧
    (s.twrite core at_ bs).flash = s.flash ∧ (s.twrite core at_ bs).gens = s.gens ∧
    (s.twrite core at_ bs).bt = s.bt ∧ (s.twrite core at_ bs).flt = s.flt ∧ (s.twrite core at_ bs).step = s.step ∧
    (s.twrite core at_ bs).sec = s.sec ∧ (s.twrite core at_ bs).svc = s.svc ∧ (s.twrite core at_ bs).pins = s.pins ∧
    (s.twrite core at_ bs).pages = s.pages ∧ (s.twrite core at_ bs).prefetches = s.prefetches ∧
    (s.twrite core at_ bs).gathers = s.gathers ∧ (s.twrite core at_ bs).conns = s.conns ∧
    (s.twrite core at_ bs).waitSends = s.waitSends ∧ (s.twrite core at_ bs).ports = s.ports ∧
    (s.twrite core at_ bs).colls = s.colls ∧ (s.twrite core at_ bs).collNext = s.collNext ∧
    (s.twrite core at_ bs).circNext = s.circNext ∧ (s.twrite core at_ bs).collHeld = s.collHeld ∧
    (s.twrite core at_ bs).nextOp = s.nextOp ∧ (s.twrite core at_ bs).nvme = s.nvme ∧
    (s.twrite core at_ bs).tcp = s.tcp ∧ (s.twrite core at_ bs).neighbours = s.neighbours ∧
    (s.twrite core at_ bs).router = s.router ∧ (s.twrite core at_ bs).ingests = s.ingests ∧
    (s.twrite core at_ bs).ckptFlash = s.ckptFlash ∧ (s.twrite core at_ bs).ckptStore = s.ckptStore ∧
    (s.twrite core at_ bs).mapChanges = s.mapChanges ∧ (s.twrite core at_ bs).modeInForce = s.modeInForce ∧
    (s.twrite core at_ bs).modePend = s.modePend ∧ (s.twrite core at_ bs).capInForce = s.capInForce ∧
    (s.twrite core at_ bs).rate64 = s.rate64 ∧ (s.twrite core at_ bs).throttle = s.throttle ∧
    (s.twrite core at_ bs).hotBeats = s.hotBeats ∧ (s.twrite core at_ bs).sent = s.sent ∧
    (s.twrite core at_ bs).freeCounter = s.freeCounter ∧ (s.twrite core at_ bs).pending = s.pending := by
  and_intros <;> rfl

@[simp] theorem State.setMarks_frame (core u n : Nat) (m : Option Int) :
    (s.setMarks core u n m).regs = s.regs ∧ (s.setMarks core u n m).strands = s.strands ∧
    (s.setMarks core u n m).groups = s.groups ∧ (s.setMarks core u n m).so = s.so ∧
    (s.setMarks core u n m).mem = s.mem ∧ (s.setMarks core u n m).frames = s.frames ∧
    (s.setMarks core u n m).flash = s.flash ∧ (s.setMarks core u n m).gens = s.gens ∧
    (s.setMarks core u n m).bt = s.bt ∧ (s.setMarks core u n m).flt = s.flt ∧ (s.setMarks core u n m).step = s.step ∧
    (s.setMarks core u n m).sec = s.sec ∧ (s.setMarks core u n m).svc = s.svc ∧
    (s.setMarks core u n m).pins = s.pins ∧ (s.setMarks core u n m).pages = s.pages ∧
    (s.setMarks core u n m).prefetches = s.prefetches ∧ (s.setMarks core u n m).gathers = s.gathers ∧
    (s.setMarks core u n m).conns = s.conns ∧ (s.setMarks core u n m).waitSends = s.waitSends ∧
    (s.setMarks core u n m).ports = s.ports ∧ (s.setMarks core u n m).colls = s.colls ∧
    (s.setMarks core u n m).collNext = s.collNext ∧ (s.setMarks core u n m).circNext = s.circNext ∧
    (s.setMarks core u n m).collHeld = s.collHeld ∧ (s.setMarks core u n m).nextOp = s.nextOp ∧
    (s.setMarks core u n m).nvme = s.nvme ∧ (s.setMarks core u n m).tcp = s.tcp ∧
    (s.setMarks core u n m).neighbours = s.neighbours ∧ (s.setMarks core u n m).router = s.router ∧
    (s.setMarks core u n m).ingests = s.ingests ∧ (s.setMarks core u n m).ckptFlash = s.ckptFlash ∧
    (s.setMarks core u n m).ckptStore = s.ckptStore ∧ (s.setMarks core u n m).mapChanges = s.mapChanges ∧
    (s.setMarks core u n m).modeInForce = s.modeInForce ∧ (s.setMarks core u n m).modePend = s.modePend ∧
    (s.setMarks core u n m).capInForce = s.capInForce ∧ (s.setMarks core u n m).rate64 = s.rate64 ∧
    (s.setMarks core u n m).throttle = s.throttle ∧ (s.setMarks core u n m).hotBeats = s.hotBeats ∧
    (s.setMarks core u n m).sent = s.sent ∧ (s.setMarks core u n m).freeCounter = s.freeCounter ∧
    (s.setMarks core u n m).pending = s.pending := by
  and_intros <;> rfl

@[simp] theorem State.advance_frame (a : Site) :
    (s.advance a).regs = s.regs ∧ (s.advance a).cores = s.cores ∧ (s.advance a).groups = s.groups ∧
    (s.advance a).so = s.so ∧ (s.advance a).mem = s.mem ∧ (s.advance a).frames = s.frames ∧
    (s.advance a).flash = s.flash ∧ (s.advance a).gens = s.gens ∧ (s.advance a).bt = s.bt ∧
    (s.advance a).flt = s.flt ∧ (s.advance a).step = s.step ∧ (s.advance a).sec = s.sec ∧ (s.advance a).svc = s.svc ∧
    (s.advance a).pins = s.pins ∧ (s.advance a).pages = s.pages ∧ (s.advance a).prefetches = s.prefetches ∧
    (s.advance a).gathers = s.gathers ∧ (s.advance a).conns = s.conns ∧ (s.advance a).waitSends = s.waitSends ∧
    (s.advance a).ports = s.ports ∧ (s.advance a).colls = s.colls ∧ (s.advance a).collNext = s.collNext ∧
    (s.advance a).circNext = s.circNext ∧ (s.advance a).collHeld = s.collHeld ∧ (s.advance a).nextOp = s.nextOp ∧
    (s.advance a).nvme = s.nvme ∧ (s.advance a).tcp = s.tcp ∧ (s.advance a).neighbours = s.neighbours ∧
    (s.advance a).router = s.router ∧ (s.advance a).ingests = s.ingests ∧ (s.advance a).ckptFlash = s.ckptFlash ∧
    (s.advance a).ckptStore = s.ckptStore ∧ (s.advance a).mapChanges = s.mapChanges ∧
    (s.advance a).modeInForce = s.modeInForce ∧ (s.advance a).modePend = s.modePend ∧
    (s.advance a).capInForce = s.capInForce ∧ (s.advance a).rate64 = s.rate64 ∧ (s.advance a).throttle = s.throttle ∧
    (s.advance a).hotBeats = s.hotBeats ∧ (s.advance a).sent = s.sent ∧ (s.advance a).freeCounter = s.freeCounter ∧
    (s.advance a).pending = s.pending := by
  and_intros <;> rfl

end Sys2Proof.Machine
end

