-- ==== Sys2Proof/Laws/Tab.lean ====
section
/-!
SUPPORT. Laws/Tab.lean: what the table operations do, and that each keeps the canonical form.
-/

namespace Sys2Proof

variable {α : Type} [DecidableEq α]

/-- Every key of the table lies above `k`. -/
def Tab.above (k : Nat) (t : Tab α) : Prop := ∀ p ∈ t, k < p.1

omit [DecidableEq α] in
@[simp] theorem Tab.get_nil (d : α) (k : Nat) : Tab.get d [] k = d := rfl

omit [DecidableEq α] in
theorem Tab.get_above {d : α} {k : Nat} : ∀ {t : Tab α}, Tab.above k t → Tab.get d t k = d
  | [], _ => rfl
  | (k', v) :: t, h => by
    have h1 : k < k' := h (k', v) (by simp)
    have h2 : Tab.above k t := fun p hp => h p (by simp [hp])
    simp [Tab.get, Nat.ne_of_lt h1, Tab.get_above h2]

theorem Tab.wf_cons {d v : α} {k : Nat} {t : Tab α} :
    Tab.wf d ((k, v) :: t) = true ↔ v ≠ d ∧ Tab.above k t ∧ Tab.wf d t = true := by
  simp [Tab.wf, Tab.above, and_assoc]

@[simp] theorem Tab.wf_nil (d : α) : Tab.wf d [] = true := rfl

theorem Tab.set_above {d v : α} {k j : Nat} (hk : j < k) :
    ∀ {t : Tab α}, Tab.above j t → Tab.above j (Tab.set d t k v)
  | [], _ => by
    unfold Tab.set
    split <;> simp [Tab.above, hk]
  | (k', v') :: t, h => by
    have h1 : j < k' := h (k', v') (by simp)
    have h2 : Tab.above j t := fun p hp => h p (by simp [hp])
    have ih := Tab.set_above (d := d) (v := v) hk h2
    unfold Tab.set
    split
    · split
      · exact h
      · intro p hp
        rcases List.mem_cons.1 hp with rfl | hp
        · exact hk
        · exact h p hp
    · split
      · split
        · exact h2
        · intro p hp
          rcases List.mem_cons.1 hp with rfl | hp
          · exact hk
          · exact h2 p hp
      · intro p hp
        rcases List.mem_cons.1 hp with rfl | hp
        · exact h1
        · exact ih p hp

/-- A write keeps the canonical form. -/
theorem Tab.wf_set {d : α} (k : Nat) (v : α) : ∀ {t : Tab α}, Tab.wf d t = true → Tab.wf d (Tab.set d t k v) = true
  | [], _ => by
    unfold Tab.set
    split
    · rfl
    · simp [Tab.wf_cons, Tab.above, *]
  | (k', v') :: t, h => by
    have h' := Tab.wf_cons.1 h
    unfold Tab.set
    split
    · rename_i hlt
      split
      · exact h
      · rename_i hv
        refine Tab.wf_cons.2 ⟨hv, ?_, h⟩
        intro p hp
        rcases List.mem_cons.1 hp with rfl | hp
        · exact hlt
        · exact Nat.lt_trans hlt (h'.2.1 p hp)
    · split
      · rename_i he
        subst he
        split
        · exact h'.2.2
        · rename_i hv
          exact Tab.wf_cons.2 ⟨hv, h'.2.1, h'.2.2⟩
      · rename_i h1 h2
        exact Tab.wf_cons.2 ⟨h'.1, Tab.set_above (by omega) h'.2.1, Tab.wf_set k v h'.2.2⟩

/-- A read after a write to the same key gives the value written. -/
theorem Tab.get_set_same {d : α} (k : Nat) (v : α) :
    ∀ {t : Tab α}, Tab.wf d t = true → Tab.get d (Tab.set d t k v) k = v
  | [], _ => by
    unfold Tab.set
    split <;> simp [Tab.get, *]
  | (k', v') :: t, h => by
    have h' := Tab.wf_cons.1 h
    unfold Tab.set
    split
    · rename_i hlt
      have hab : Tab.above k ((k', v') :: t) := by
        intro p hp
        rcases List.mem_cons.1 hp with rfl | hp
        · exact hlt
        · exact Nat.lt_trans hlt (h'.2.1 p hp)
      split
      · rename_i hv
        rw [Tab.get_above hab, hv]
      · simp [Tab.get]
    · split
      · rename_i he
        subst he
        split
        · rename_i hv
          rw [Tab.get_above h'.2.1, hv]
        · simp [Tab.get]
      · rename_i h1 h2
        simp only [Tab.get, if_neg h2]
        exact Tab.get_set_same k v h'.2.2

/-- A write leaves every other key alone. -/
theorem Tab.get_set_ne {d v : α} {j k : Nat} (h : j ≠ k) :
    ∀ (t : Tab α), Tab.wf d t = true → Tab.get d (Tab.set d t k v) j = Tab.get d t j
  | [], _ => by
    unfold Tab.set
    split <;> simp [Tab.get, h]
  | (k', v') :: t, hw => by
    have h' := Tab.wf_cons.1 hw
    have ih := Tab.get_set_ne (v := v) h t h'.2.2
    unfold Tab.set
    split
    · split
      · rfl
      · simp [Tab.get, h]
    · split
      · rename_i he
        subst he
        split
        · simp [Tab.get, h]
        · simp [Tab.get, h]
      · simp [Tab.get, ih]

/-- Writing a list of values keeps the canonical form. -/
theorem Tab.wf_setRange {d : α} : ∀ (vs : List α) (k : Nat) {t : Tab α}, Tab.wf d t = true →
    Tab.wf d (Tab.setRange d t k vs) = true
  | [], _, _, h => h
  | v :: vs, k, _, h => Tab.wf_setRange vs (k + 1) (Tab.wf_set k v h)

/-- A range write leaves the keys outside its range alone. -/
theorem Tab.get_setRange_out {d : α} : ∀ (vs : List α) (k : Nat) {t : Tab α} {j : Nat}, Tab.wf d t = true →
    (j < k ∨ k + vs.length ≤ j) → Tab.get d (Tab.setRange d t k vs) j = Tab.get d t j
  | [], _, _, _, _, _ => rfl
  | v :: vs, k, t, j, h, hj => by
    simp only [List.length_cons] at hj
    rw [Tab.setRange, Tab.get_setRange_out vs (k + 1) (Tab.wf_set k v h) (by omega)]
    exact Tab.get_set_ne (by omega) t h

/-- A read after a range write gives the value written. -/
theorem Tab.get_setRange_in {d : α} : ∀ (vs : List α) (k : Nat) {t : Tab α} (i : Nat) (hi : i < vs.length),
    Tab.wf d t = true → Tab.get d (Tab.setRange d t k vs) (k + i) = vs[i]
  | v :: vs, k, t, 0, _, h => by
    rw [Tab.setRange, Tab.get_setRange_out vs (k + 1) (Tab.wf_set k v h) (by omega)]
    exact Tab.get_set_same k v h
  | v :: vs, k, t, i + 1, hi, h => by
    have hi' : i < vs.length := by simpa using hi
    have e : k + (i + 1) = (k + 1) + i := by omega
    rw [Tab.setRange, e, Tab.get_setRange_in vs (k + 1) i hi' (Tab.wf_set k v h)]
    simp

omit [DecidableEq α] in
@[simp] theorem Tab.range_length (d : α) (t : Tab α) (k n : Nat) : (Tab.range d t k n).length = n := by
  induction n generalizing k with
  | zero => rfl
  | succ n ih => simp [Tab.range, ih]

omit [DecidableEq α] in
/-- Element `i` of a range read. -/
theorem Tab.range_getElem (d : α) (t : Tab α) : ∀ (k n i : Nat) (h : i < (Tab.range d t k n).length),
    (Tab.range d t k n)[i] = Tab.get d t (k + i)
  | k, 0, i, h => absurd h (by simp [Tab.range])
  | k, n + 1, 0, _ => rfl
  | k, n + 1, i + 1, h => by
    simp only [Tab.range, List.getElem_cons_succ]
    rw [Tab.range_getElem d t (k + 1) n i]
    congr 1
    omega

/-- Reading back a range that has just been written gives the values written. -/
theorem Tab.range_setRange {d : α} {t : Tab α} (k : Nat) (vs : List α) (h : Tab.wf d t = true) :
    Tab.range d (Tab.setRange d t k vs) k vs.length = vs := by
  apply List.ext_getElem
  · simp
  · intro i h1 h2
    rw [Tab.range_getElem, Tab.get_setRange_in vs k i h2 h]

/-- A filter of a canonical table is canonical. -/
theorem Tab.wf_filter {d : α} (f : Nat × α → Bool) : ∀ {t : Tab α}, Tab.wf d t = true → Tab.wf d (t.filter f) = true
  | [], _ => rfl
  | (k, v) :: t, h => by
    have h' := Tab.wf_cons.1 h
    have ih := Tab.wf_filter f h'.2.2
    rw [List.filter_cons]
    split
    · exact Tab.wf_cons.2 ⟨h'.1, fun p hp => h'.2.1 p (List.mem_filter.1 hp).1, ih⟩
    · exact ih

theorem Tab.mapv_above {d : α} (f : α → α) {j : Nat} : ∀ {t : Tab α}, Tab.above j t → Tab.above j (Tab.mapv d f t)
  | [], h => h
  | (k, v) :: t, h => by
    have h1 : j < k := h (k, v) (by simp)
    have ih := Tab.mapv_above (d := d) f (t := t) (fun p hp => h p (by simp [hp]))
    unfold Tab.mapv
    split
    · exact ih
    · intro p hp
      rcases List.mem_cons.1 hp with rfl | hp
      · exact h1
      · exact ih p hp

/-- Changing every entry keeps the canonical form. -/
theorem Tab.wf_mapv {d : α} (f : α → α) : ∀ {t : Tab α}, Tab.wf d t = true → Tab.wf d (Tab.mapv d f t) = true
  | [], _ => rfl
  | (k, v) :: t, h => by
    have h' := Tab.wf_cons.1 h
    have ih := Tab.wf_mapv f h'.2.2
    unfold Tab.mapv
    split
    · exact ih
    · rename_i hv
      exact Tab.wf_cons.2 ⟨hv, Tab.mapv_above f h'.2.1, ih⟩

/-- An entry after every entry has changed. -/
theorem Tab.get_mapv {d : α} {f : α → α} (hf : f d = d) (k : Nat) :
    ∀ {t : Tab α}, Tab.wf d t = true → Tab.get d (Tab.mapv d f t) k = f (Tab.get d t k)
  | [], _ => by simp [Tab.mapv, hf]
  | (k', v) :: t, h => by
    have h' := Tab.wf_cons.1 h
    have ih := Tab.get_mapv hf k h'.2.2
    unfold Tab.mapv
    split
    · rename_i hv
      by_cases hk : k = k'
      · subst hk
        rw [Tab.get_above (Tab.mapv_above f h'.2.1)]
        simp [Tab.get, hv]
      · simp [Tab.get, hk, ih]
    · by_cases hk : k = k'
      · simp [Tab.get, hk]
      · simp [Tab.get, hk, ih]

omit [DecidableEq α] in
/-- What is read from a table is the default or one of its entries. -/
theorem Tab.get_mem (d : α) (k : Nat) : ∀ (t : Tab α), Tab.get d t k = d ∨ (k, Tab.get d t k) ∈ t
  | [] => Or.inl rfl
  | (k', v) :: t => by
    by_cases hk : k = k'
    · right; simp [Tab.get, hk]
    · rcases Tab.get_mem d k t with h | h
      · left; simp [Tab.get, hk, h]
      · right; simp only [Tab.get, if_neg hk]; exact List.mem_cons_of_mem _ h

/-- The entries after a write are the old ones and the one written. -/
theorem Tab.mem_set {d v : α} {k : Nat} {p : Nat × α} : ∀ {t : Tab α}, p ∈ Tab.set d t k v → p ∈ t ∨ p = (k, v)
  | [], h => by
    unfold Tab.set at h
    split at h <;> simp_all
  | (k', v') :: t, h => by
    unfold Tab.set at h
    split at h
    · split at h
      · exact Or.inl h
      · rcases List.mem_cons.1 h with rfl | h
        · exact Or.inr rfl
        · exact Or.inl h
    · split at h
      · split at h
        · exact Or.inl (List.mem_cons_of_mem _ h)
        · rcases List.mem_cons.1 h with rfl | h
          · exact Or.inr rfl
          · exact Or.inl (List.mem_cons_of_mem _ h)
      · rcases List.mem_cons.1 h with rfl | h
        · exact Or.inl (by simp)
        · rcases Tab.mem_set h with h | h
          · exact Or.inl (List.mem_cons_of_mem _ h)
          · exact Or.inr h

/-- Two canonical tables with the same entries are equal data. -/
theorem Tab.ext {d : α} : ∀ {t u : Tab α}, Tab.wf d t = true → Tab.wf d u = true →
    (∀ k, Tab.get d t k = Tab.get d u k) → t = u
  | [], [], _, _, _ => rfl
  | [], (k, v) :: u, _, hu, h => by
    have := h k
    simp [Tab.get] at this
    exact absurd this.symm (Tab.wf_cons.1 hu).1
  | (k, v) :: t, [], ht, _, h => by
    have := h k
    simp [Tab.get] at this
    exact absurd this (Tab.wf_cons.1 ht).1
  | (k, v) :: t, (j, w) :: u, ht, hu, h => by
    have ht' := Tab.wf_cons.1 ht
    have hu' := Tab.wf_cons.1 hu
    have hkj : k = j := by
      rcases Nat.lt_trichotomy k j with hlt | he | hlt
      · have hab : Tab.above k ((j, w) :: u) := by
          intro p hp
          rcases List.mem_cons.1 hp with rfl | hp
          · exact hlt
          · exact Nat.lt_trans hlt (hu'.2.1 p hp)
        have := h k
        rw [Tab.get_above hab] at this
        simp [Tab.get] at this
        exact absurd this ht'.1
      · exact he
      · have hab : Tab.above j ((k, v) :: t) := by
          intro p hp
          rcases List.mem_cons.1 hp with rfl | hp
          · exact hlt
          · exact Nat.lt_trans hlt (ht'.2.1 p hp)
        have := h j
        rw [Tab.get_above hab] at this
        simp [Tab.get] at this
        exact absurd this.symm hu'.1
    subst hkj
    have hv : v = w := by simpa [Tab.get] using h k
    subst hv
    have : t = u := by
      apply Tab.ext ht'.2.2 hu'.2.2
      intro i
      by_cases hi : i = k
      · subst hi
        rw [Tab.get_above ht'.2.1, Tab.get_above hu'.2.1]
      · simpa [Tab.get, hi] using h i
    rw [this]

end Sys2Proof
end

