-- ==== Sys2Proof/Laws/Ops.lean ====
section
/-!
SUPPORT. Laws/Ops.lean: what the shared operations do, once: register fields, the tables of units, the
issue of an instruction, its causes, and that each operation keeps the canonical form.
-/

namespace Sys2Proof.Machine

/-! ### Fields of a register -/

theorem word_split (W lo w : Nat) : W = W / 2 ^ (lo + w) * 2 ^ (lo + w) + W / 2 ^ lo % 2 ^ w * 2 ^ lo + W % 2 ^ lo := by
  have h1 := Nat.div_add_mod W (2 ^ lo)
  have h2 := Nat.div_add_mod (W / 2 ^ lo) (2 ^ w)
  have h3 : W / 2 ^ lo / 2 ^ w = W / 2 ^ (lo + w) := by rw [Nat.div_div_eq_div_mul, Nat.pow_add]
  rw [h3] at h2
  have e : 2 ^ (lo + w) = 2 ^ lo * 2 ^ w := Nat.pow_add 2 lo w
  rw [e]
  calc W = 2 ^ lo * (W / 2 ^ lo) + W % 2 ^ lo := h1.symm
    _ = 2 ^ lo * (2 ^ w * (W / (2 ^ lo * 2 ^ w)) + W / 2 ^ lo % 2 ^ w) + W % 2 ^ lo := by rw [← e, h2]
    _ = _ := by ring

/-- The number that replacing a field makes. -/
theorem Fld.ins_toNat (f : Fld) (w : W64) (v : Nat) (h : f.lo + f.w ≤ 64) :
    (f.ins w v).toNat =
      w.toNat / 2 ^ (f.lo + f.w) * 2 ^ (f.lo + f.w) + v % 2 ^ f.w * 2 ^ f.lo + w.toNat % 2 ^ f.lo := by
  unfold Fld.ins Fld.ext
  have hs := word_split w.toNat f.lo f.w
  have hw := w.isLt
  have e : 2 ^ (f.lo + f.w) = 2 ^ f.lo * 2 ^ f.w := Nat.pow_add 2 f.lo f.w
  have hm : v % 2 ^ f.w < 2 ^ f.w := Nat.mod_lt _ (by positivity)
  have hL : w.toNat % 2 ^ f.lo < 2 ^ f.lo := Nat.mod_lt _ (by positivity)
  have hsub : w.toNat - w.toNat / 2 ^ f.lo % 2 ^ f.w * 2 ^ f.lo =
      w.toNat / 2 ^ (f.lo + f.w) * 2 ^ (f.lo + f.w) + w.toNat % 2 ^ f.lo := by omega
  have hq : w.toNat / 2 ^ (f.lo + f.w) < 2 ^ (64 - (f.lo + f.w)) := by
    apply Nat.div_lt_of_lt_mul
    rw [← Nat.pow_add]
    have : f.lo + f.w + (64 - (f.lo + f.w)) = 64 := by omega
    rw [this]; exact hw
  have hfield : v % 2 ^ f.w * 2 ^ f.lo + w.toNat % 2 ^ f.lo < 2 ^ (f.lo + f.w) := by
    rw [e]
    calc v % 2 ^ f.w * 2 ^ f.lo + w.toNat % 2 ^ f.lo < v % 2 ^ f.w * 2 ^ f.lo + 2 ^ f.lo := by omega
      _ = (v % 2 ^ f.w + 1) * 2 ^ f.lo := by ring
      _ ≤ 2 ^ f.w * 2 ^ f.lo := Nat.mul_le_mul_right _ hm
      _ = 2 ^ f.lo * 2 ^ f.w := by ring
  have htot : w.toNat / 2 ^ (f.lo + f.w) * 2 ^ (f.lo + f.w) + v % 2 ^ f.w * 2 ^ f.lo + w.toNat % 2 ^ f.lo < 2 ^ 64 := by
    calc _ < w.toNat / 2 ^ (f.lo + f.w) * 2 ^ (f.lo + f.w) + 2 ^ (f.lo + f.w) := by omega
      _ = (w.toNat / 2 ^ (f.lo + f.w) + 1) * 2 ^ (f.lo + f.w) := by ring
      _ ≤ 2 ^ (64 - (f.lo + f.w)) * 2 ^ (f.lo + f.w) := Nat.mul_le_mul_right _ hq
      _ = 2 ^ 64 := by rw [← Nat.pow_add]; congr 1; omega
  rw [hsub, BitVec.toNat_ofNat, Nat.mod_eq_of_lt (by omega)]
  omega

/-- A field reads the value put into it. -/
theorem Fld.ext_ins (f : Fld) (w : W64) (v : Nat) (h : f.lo + f.w ≤ 64) : f.ext (f.ins w v).toNat = v % 2 ^ f.w := by
  rw [Fld.ins_toNat f w v h]
  unfold Fld.ext
  have e : 2 ^ (f.lo + f.w) = 2 ^ f.w * 2 ^ f.lo := by rw [Nat.pow_add]; ring
  have hL : w.toNat % 2 ^ f.lo < 2 ^ f.lo := Nat.mod_lt _ (by positivity)
  have : w.toNat / 2 ^ (f.lo + f.w) * 2 ^ (f.lo + f.w) + v % 2 ^ f.w * 2 ^ f.lo + w.toNat % 2 ^ f.lo
      = (w.toNat / 2 ^ (f.lo + f.w) * 2 ^ f.w + v % 2 ^ f.w) * 2 ^ f.lo + w.toNat % 2 ^ f.lo := by
    rw [e]; ring
  rw [this, Nat.add_comm, Nat.add_mul_div_right _ _ (by positivity), Nat.div_eq_of_lt hL, Nat.zero_add,
    Nat.add_comm, Nat.add_mul_mod_self_right, Nat.mod_mod]

/-- Another field of the word keeps its value. -/
theorem Fld.ext_ins_other (f g : Fld) (w : W64) (v : Nat) (h : f.lo + f.w ≤ 64)
    (hd : g.lo + g.w ≤ f.lo ∨ f.lo + f.w ≤ g.lo) : g.ext (f.ins w v).toNat = g.ext w.toNat := by
  rw [Fld.ins_toNat f w v h]
  unfold Fld.ext
  have hL : w.toNat % 2 ^ f.lo < 2 ^ f.lo := Nat.mod_lt _ (by positivity)
  have hm : v % 2 ^ f.w < 2 ^ f.w := Nat.mod_lt _ (by positivity)
  have hm' : w.toNat / 2 ^ f.lo % 2 ^ f.w < 2 ^ f.w := Nat.mod_lt _ (by positivity)
  have key : ∀ x, x < 2 ^ f.w →
      (w.toNat / 2 ^ (f.lo + f.w) * 2 ^ (f.lo + f.w) + x * 2 ^ f.lo + w.toNat % 2 ^ f.lo) / 2 ^ g.lo % 2 ^ g.w =
      (if g.lo + g.w ≤ f.lo then w.toNat % 2 ^ f.lo / 2 ^ g.lo % 2 ^ g.w
       else w.toNat / 2 ^ (f.lo + f.w) / 2 ^ (g.lo - (f.lo + f.w)) % 2 ^ g.w) := by
    intro x hx
    split
    · rename_i hle
      have e1 : 2 ^ f.lo = 2 ^ (f.lo - (g.lo + g.w)) * 2 ^ g.w * 2 ^ g.lo := by
        rw [← Nat.pow_add, ← Nat.pow_add]; congr 1; omega
      have : w.toNat / 2 ^ (f.lo + f.w) * 2 ^ (f.lo + f.w) + x * 2 ^ f.lo + w.toNat % 2 ^ f.lo =
          (w.toNat / 2 ^ (f.lo + f.w) * 2 ^ f.w + x) * 2 ^ f.lo + w.toNat % 2 ^ f.lo := by
        rw [Nat.pow_add]; ring
      rw [this]
      generalize w.toNat / 2 ^ (f.lo + f.w) * 2 ^ f.w + x = A
      generalize w.toNat % 2 ^ f.lo = B
      have e2 : A * 2 ^ f.lo = A * 2 ^ (f.lo - (g.lo + g.w)) * 2 ^ g.w * 2 ^ g.lo := by rw [e1]; ring
      rw [e2, Nat.add_comm, Nat.add_mul_div_right _ _ (by positivity), Nat.add_mul_mod_self_right]
    · rename_i hle
      have hge : f.lo + f.w ≤ g.lo := by rcases hd with h | h <;> omega
      have e1 : 2 ^ g.lo = 2 ^ (f.lo + f.w) * 2 ^ (g.lo - (f.lo + f.w)) := by
        rw [← Nat.pow_add]; congr 1; omega
      have hlt : x * 2 ^ f.lo + w.toNat % 2 ^ f.lo < 2 ^ (f.lo + f.w) := by
        rw [Nat.pow_add]
        calc x * 2 ^ f.lo + w.toNat % 2 ^ f.lo < x * 2 ^ f.lo + 2 ^ f.lo := by omega
          _ = (x + 1) * 2 ^ f.lo := by ring
          _ ≤ 2 ^ f.w * 2 ^ f.lo := Nat.mul_le_mul_right _ hx
          _ = 2 ^ f.lo * 2 ^ f.w := by ring
      rw [e1, ← Nat.div_div_eq_div_mul, Nat.add_assoc, Nat.add_comm, Nat.add_mul_div_right _ _ (by positivity),
        Nat.div_eq_of_lt hlt, Nat.zero_add]
  have e := word_split w.toNat f.lo f.w
  conv_rhs => rw [e]
  rw [key _ hm, key _ hm']

theorem State.word_setWord (s : State) (off : Nat) (w : W64) (h : Tab.wf 0 s.regs = true) :
    (s.setWord off w).word off = w := by
  show Tab.get 0 (Tab.set 0 s.regs off (w ^^^ resetWord off)) off ^^^ resetWord off = w
  rw [Tab.get_set_same off _ h, BitVec.xor_assoc, BitVec.xor_self, BitVec.xor_zero]

theorem State.word_setWord_ne (s : State) {off o : Nat} (w : W64) (h : Tab.wf 0 s.regs = true) (ho : o ≠ off) :
    (s.setWord off w).word o = s.word o := by
  show Tab.get 0 (Tab.set 0 s.regs off (w ^^^ resetWord off)) o ^^^ resetWord o = _
  rw [Tab.get_set_ne ho _ h]; rfl

/-- A field reads the value put into it. -/
theorem State.get_put (s : State) (f : Fld) (v i j : Nat) (h : Tab.wf 0 s.regs = true) (hf : f.lo + f.w ≤ 64) :
    (s.put f v i j).get f i j = v % 2 ^ f.w := by
  unfold State.get State.put
  rw [State.word_setWord _ _ _ h, Fld.ext_ins f _ v hf]

/-- A field of another register keeps its value. -/
theorem State.get_put_ne (s : State) (f g : Fld) (v i j k l : Nat) (h : Tab.wf 0 s.regs = true)
    (ho : g.off k l ≠ f.off i j) : (s.put f v i j).get g k l = s.get g k l := by
  unfold State.get State.put
  rw [State.word_setWord_ne s _ h ho]

/-- Another field of the same register keeps its value. -/
theorem State.get_put_other (s : State) (f g : Fld) (v i j k l : Nat) (h : Tab.wf 0 s.regs = true)
    (hf : f.lo + f.w ≤ 64) (hd : g.lo + g.w ≤ f.lo ∨ f.lo + f.w ≤ g.lo) (ho : g.off k l = f.off i j) :
    (s.put f v i j).get g k l = s.get g k l := by
  unfold State.get State.put
  rw [ho, State.word_setWord _ _ _ h, Fld.ext_ins_other f g _ v hf hd]

/-- A register that a field write does not name keeps its word. -/
theorem State.word_put_ne (s : State) (f : Fld) (v i j o : Nat) (h : Tab.wf 0 s.regs = true) (ho : o ≠ f.off i j) :
    (s.put f v i j).word o = s.word o := State.word_setWord_ne s _ h ho

theorem State.wf_setWord (s : State) (off : Nat) (w : W64) (h : Tab.wf 0 s.regs = true) :
    Tab.wf 0 (s.setWord off w).regs = true := Tab.wf_set _ _ h
theorem State.wf_put (s : State) (f : Fld) (v i j : Nat) (h : Tab.wf 0 s.regs = true) :
    Tab.wf 0 (s.put f v i j).regs = true := Tab.wf_set _ _ h
theorem State.wf_bump (s : State) (f : Fld) (i j n : Nat) (h : Tab.wf 0 s.regs = true) :
    Tab.wf 0 (s.bump f i j n).regs = true := Tab.wf_set _ _ h
/-- A counter advances, modulo its width. -/
theorem State.get_bump (s : State) (f : Fld) (i j n : Nat) (h : Tab.wf 0 s.regs = true) (hf : f.lo + f.w ≤ 64) :
    (s.bump f i j n).get f i j = (s.get f i j + n) % 2 ^ f.w := State.get_put s f _ i j h hf

/-! ### Units -/

theorem siteKey_inj {a b : Site} (h : siteKey a = siteKey b) : a = b := by
  obtain ⟨⟨c, hc⟩, ⟨n, hn⟩⟩ := a
  obtain ⟨⟨c', hc'⟩, ⟨n', hn'⟩⟩ := b
  simp only [siteKey] at h
  have h1 : c = c' := by omega
  have h2 : n = n' := by omega
  subst h1; subst h2; rfl

theorem State.strand_setStrand (s : State) (a : Site) (t : Strand) (h : Tab.wf Strand.reset s.strands = true) :
    (s.setStrand a t).strand a = t := Tab.get_set_same _ _ h
theorem State.strand_setStrand_ne (s : State) {a b : Site} (t : Strand) (h : Tab.wf Strand.reset s.strands = true)
    (hb : b ≠ a) : (s.setStrand a t).strand b = s.strand b :=
  Tab.get_set_ne (fun e => hb (siteKey_inj e)) _ h
theorem State.core_setCore (s : State) (c : Nat) (t : CoreSt) (h : Tab.wf CoreSt.reset s.cores = true) :
    (s.setCore c t).core c = t := Tab.get_set_same _ _ h
theorem State.core_setCore_ne (s : State) {c d : Nat} (t : CoreSt) (h : Tab.wf CoreSt.reset s.cores = true)
    (hd : d ≠ c) : (s.setCore c t).core d = s.core d := Tab.get_set_ne hd _ h
theorem State.group_setGroup (s : State) (g : Nat) (t : GroupSt) (h : Tab.wf GroupSt.reset s.groups = true) :
    (s.setGroup g t).group g = t := Tab.get_set_same _ _ h
theorem State.group_setGroup_ne (s : State) {g d : Nat} (t : GroupSt) (h : Tab.wf GroupSt.reset s.groups = true)
    (hd : d ≠ g) : (s.setGroup g t).group d = s.group d := Tab.get_set_ne hd _ h
theorem State.obj_setObj (s : State) (i : Nat) (o : SyncObj) (h : Tab.wf SyncObj.reset s.so = true) :
    (s.setObj i o).obj i = o := Tab.get_set_same _ _ h
theorem State.obj_setObj_ne (s : State) {i j : Nat} (o : SyncObj) (h : Tab.wf SyncObj.reset s.so = true) (hj : j ≠ i) :
    (s.setObj i o).obj j = s.obj j := Tab.get_set_ne hj _ h
theorem State.ctx_setCtx (s : State) (c : Nat) (x : Ctx) (h : Tab.wf Ctx.reset s.sec.ctxs = true) :
    (s.setCtx c x).ctx c = x := Tab.get_set_same _ _ h
theorem State.ctx_setCtx_ne (s : State) {c d : Nat} (x : Ctx) (h : Tab.wf Ctx.reset s.sec.ctxs = true) (hd : d ≠ c) :
    (s.setCtx c x).ctx d = s.ctx d := Tab.get_set_ne hd _ h
theorem State.conn_setConn (s : State) (i : Nat) (c : Conn) (h : Tab.wf Conn.reset s.conns = true) :
    (s.setConn i c).conn i = c := Tab.get_set_same _ _ h
theorem State.conn_setConn_ne (s : State) {i j : Nat} (c : Conn) (h : Tab.wf Conn.reset s.conns = true) (hj : j ≠ i) :
    (s.setConn i c).conn j = s.conn j := Tab.get_set_ne hj _ h
theorem State.port_setPort (s : State) (p : Nat) (q : Port) (h : Tab.wf Port.reset s.ports = true) :
    (s.setPort p q).port p = q := Tab.get_set_same _ _ h
theorem State.port_setPort_ne (s : State) {p r : Nat} (q : Port) (h : Tab.wf Port.reset s.ports = true) (hr : r ≠ p) :
    (s.setPort p q).port r = s.port r := Tab.get_set_ne hr _ h
theorem State.frame_setFrame (s : State) (f : Nat) (x : FrameSt) (h : Tab.wf FrameSt.free s.frames = true) :
    (s.setFrame f x).frame f = x := Tab.get_set_same _ _ h
theorem State.frame_setFrame_ne (s : State) {f g : Nat} (x : FrameSt) (h : Tab.wf FrameSt.free s.frames = true)
    (hg : g ≠ f) : (s.setFrame f x).frame g = s.frame g := Tab.get_set_ne hg _ h
theorem State.peer_setPeer (s : State) (p : Nat) (x : Option Peer) (h : Tab.wf none s.bt.peers = true) :
    (s.setPeer p x).peer p = x := Tab.get_set_same _ _ h
theorem State.peer_setPeer_ne (s : State) {p q : Nat} (x : Option Peer) (h : Tab.wf none s.bt.peers = true)
    (hq : q ≠ p) : (s.setPeer p x).peer q = s.peer q := Tab.get_set_ne hq _ h

/-! ### Memory -/

/-- A byte of the virtual space that is written reads the byte written, where its frame is mapped. -/
theorem State.pbyte_setVbyte (s : State) (c va pa : Nat) (b : Byte) (h : Tab.wf 0 s.mem = true)
    (ht : s.translate c va = some pa) : (s.setVbyte c va b).pbyte pa = b := by
  unfold State.setVbyte
  rw [ht]
  exact Tab.get_set_same pa b h

theorem State.pbyte_setVbyte_ne (s : State) (c va : Nat) (b : Byte) (pb : Nat) (h : Tab.wf 0 s.mem = true)
    (ht : s.translate c va ≠ some pb) : (s.setVbyte c va b).pbyte pb = s.pbyte pb := by
  unfold State.setVbyte
  split
  · rename_i pa hp
    exact Tab.get_set_ne (fun e => ht (by rw [hp, e])) _ h
  · rfl

/-- A memory write keeps the canonical form. -/
theorem State.wf_setVbyte (s : State) (c va : Nat) (b : Byte) (h : Tab.wf 0 s.mem = true) :
    Tab.wf 0 (s.setVbyte c va b).mem = true := by
  unfold State.setVbyte
  split
  · exact Tab.wf_set _ _ h
  · exact h

theorem State.wf_vwrite (c : Nat) : ∀ (bs : List Byte) (s : State) (va : Nat), Tab.wf 0 s.mem = true →
    Tab.wf 0 (s.vwrite c va bs).mem = true
  | [], _, _, h => h
  | b :: bs, s, va, h => State.wf_vwrite c bs _ (va + 1) (State.wf_setVbyte s c va b h)

/-- A byte write changes nothing but memory. -/
theorem State.setVbyte_mem (s : State) (c va : Nat) (b : Byte) :
    { s.setVbyte c va b with mem := s.mem } = s := by
  unfold State.setVbyte
  split <;> rfl

/-- A range write changes nothing but memory. -/
theorem State.vwrite_mem (c : Nat) : ∀ (bs : List Byte) (s : State) (va : Nat),
    { s.vwrite c va bs with mem := s.mem } = s
  | [], _, _ => rfl
  | b :: bs, s, va => by
    have h1 := State.setVbyte_mem s c va b
    have h2 := State.vwrite_mem c bs (s.setVbyte c va b) (va + 1)
    show ({ (s.setVbyte c va b).vwrite c (va + 1) bs with mem := s.mem } : State) = s
    have e : ({ (s.setVbyte c va b).vwrite c (va + 1) bs with mem := s.mem } : State) =
        { ({ (s.setVbyte c va b).vwrite c (va + 1) bs with mem := (s.setVbyte c va b).mem } : State) with mem := s.mem } := rfl
    rw [e, h2]
    exact h1

/-- Addresses are translated by the contexts alone. -/
theorem State.translate_congr {s t : State} (hsec : t.sec = s.sec) (hregs : t.regs = s.regs) (c va : Nat) :
    t.translate c va = s.translate c va := by
  unfold State.translate State.mapping State.viewFrame State.viewOf State.ctx State.stepOf State.ctx State.ueStep State.get State.word
  rw [hsec, hregs]

/-! ### Issue -/

/-- An instruction that executes takes its own effect, on the state in which its core issues from it. -/
theorem State.issue_executes (s : State) (a : Site) (p : Pred) (i : Instr) (body : State → State)
    (h : s.executes a p i) : s.issue a p body = body (s.issueFrom a) := by
  obtain ⟨h1, h2, _⟩ := h
  have h3 : (s.issueFrom a).strand a = s.strand a := by
    unfold State.issueFrom; dsimp only; split <;> rfl
  simp only [State.issue, h1, if_true, h3, h2]

/-- With its condition false an instruction moves the strand on. -/
theorem State.issue_skips (s : State) (a : Site) (p : Pred) (body : State → State)
    (h1 : s.canIssue a = true) (h2 : (s.strand a).cond p = false) :
    s.issue a p body = (s.issueFrom a).advance a := by
  have h3 : (s.issueFrom a).strand a = s.strand a := by
    unfold State.issueFrom; dsimp only; split <;> rfl
  simp [State.issue, h1, h3, h2]

/-- An instruction of a strand that cannot issue leaves the device alone. -/
theorem State.issue_waits (s : State) (a : Site) (p : Pred) (body : State → State) (h : s.canIssue a = false) :
    s.issue a p body = s := by simp [State.issue, h]

/-- Issuing changes only the strand that the core issues from. -/
theorem State.issueFrom_onlyCores (s : State) (a : Site) : { s.issueFrom a with cores := s.cores } = s := by
  unfold State.issueFrom; dsimp only; split <;> rfl

@[simp] theorem State.issueFrom_strand (s : State) (a b : Site) : (s.issueFrom a).strand b = s.strand b := by
  unfold State.issueFrom; dsimp only; split <;> rfl

theorem State.issueFrom_core (s : State) (a : Site) (h : Tab.wf CoreSt.reset s.cores = true) (c : Nat) :
    (s.issueFrom a).core c =
      if c = a.core.val then { s.core c with cur := a.strand, left := false } else s.core c := by
  unfold State.issueFrom
  dsimp only
  split
  · rename_i he
    split
    · rename_i hc
      subst hc
      rw [← he.1, ← he.2]
    · rfl
  · split
    · rename_i hc
      subst hc; rw [State.core_setCore _ _ _ h]
    · rename_i hc
      rw [State.core_setCore_ne _ _ h hc]

/-- The state in which an instruction has issued is the old one with other cores. -/
theorem State.issueFrom_eq (s : State) (a : Site) : ∃ cs, s.issueFrom a = { s with cores := cs } := by
  unfold State.issueFrom; dsimp only; split
  · exact ⟨s.cores, rfl⟩
  · exact ⟨_, rfl⟩

/-- A core that switches differs in its own state alone. -/
theorem State.switchCore_eq (s : State) (c : Fin 96) : ∃ cs, s.switchCore c = { s with cores := cs } := by
  unfold State.switchCore; dsimp only; split
  · exact ⟨_, rfl⟩
  · exact ⟨_, rfl⟩

/-- The state in which a strand has parked is the old one with other cores. -/
theorem State.switchFrom_eq (s : State) (a : Site) : ∃ cs, s.switchFrom a = { s with cores := cs } := by
  unfold State.switchFrom; split
  · exact s.switchCore_eq a.core
  · exact ⟨s.cores, rfl⟩

/-- The state in which a strand has become ready is the old one with other cores. -/
theorem State.woken_eq (s : State) (c : Fin 96) : ∃ cs, s.woken c = { s with cores := cs } := by
  unfold State.woken; split
  · exact s.switchCore_eq c
  · exact ⟨s.cores, rfl⟩

/-- An instruction that replaces only its strand leaves the other strands and what the cores hold alone. -/
theorem State.othersSame_setStrand (s : State) (a : Site) (t : Strand) (hs : Tab.wf Strand.reset s.strands = true)
    (hc : Tab.wf CoreSt.reset s.cores = true) : s.othersSame ((s.issueFrom a).setStrand a t) a := by
  obtain ⟨cs, he⟩ := s.issueFrom_eq a
  refine ⟨fun b hb => ?_, fun c => ?_⟩
  · rw [he]; exact State.strand_setStrand_ne { s with cores := cs } t hs hb
  · have : ((s.issueFrom a).setStrand a t).core c = (s.issueFrom a).core c := rfl
    rw [this, State.issueFrom_core s a hc]
    split <;> rfl

/-- With no cause the body runs. -/
theorem State.guarded_none (s : State) (a : Site) (l : List (Bool × Nat)) (body : State → State)
    (h : firstCause l = none) : s.guarded a l body = body s := by simp [State.guarded, h]

/-- With a cause the strand stops on it. -/
theorem State.guarded_some (s : State) (a : Site) (l : List (Bool × Nat)) (body : State → State) {c : Nat}
    (h : firstCause l = some c) : s.guarded a l body = s.strandError a c := by simp [State.guarded, h]

/-- The strand after its instruction. -/
theorem State.strand_advance (s : State) (a : Site) (h : Tab.wf Strand.reset s.strands = true) :
    (s.advance a).strand a = (s.strand a).goto ((s.strand a).pc.toNat + 1) := State.strand_setStrand _ _ _ h

theorem State.strand_advance_ne (s : State) {a b : Site} (h : Tab.wf Strand.reset s.strands = true) (hb : b ≠ a) :
    (s.advance a).strand b = s.strand b := State.strand_setStrand_ne _ _ h hb

/-! ### The canonical form -/

/-- Every part of a canonical state is canonical. -/
theorem State.canon_iff (s : State) : s.canon = true ↔
    Tab.wf 0 s.regs = true ∧ Tab.wf 0 s.mem = true ∧ Tab.wf 0 s.flash = true ∧ Tab.wf SyncObj.reset s.so = true ∧
    Tab.wf FrameSt.free s.frames = true ∧ Tab.wf Conn.reset s.conns = true ∧ Tab.wf Port.reset s.ports = true ∧
    Tab.wf none s.bt.peers = true ∧ Tab.wf Strand.reset s.strands = true ∧
    s.strands.all (fun e => e.2.canon) = true ∧ Tab.wf CoreSt.reset s.cores = true ∧
    s.cores.all (fun e => e.2.canon) = true ∧ Tab.wf GroupSt.reset s.groups = true ∧
    s.groups.all (fun e => e.2.canon) = true ∧ Tab.wf Ctx.reset s.sec.ctxs = true ∧
    s.sec.ctxs.all (fun e => e.2.canon) = true ∧ Tab.wf 0 s.collNext = true ∧ Tab.wf 0 s.circNext = true ∧
    Tab.wf 0 s.throttle = true ∧ Tab.wf 0 s.hotBeats = true ∧ Tab.wf none s.tcp = true := by
  simp only [State.canon, Bool.and_eq_true, and_assoc]

theorem all_get {α : Type} [DecidableEq α] (f : α → Bool) (d : α) (hd : f d = true) (t : Tab α)
    (h : t.all (fun e => f e.2) = true) (k : Nat) : f (Tab.get d t k) = true := by
  rcases Tab.get_mem d k t with e | e
  · rw [e]; exact hd
  · exact List.all_eq_true.1 h _ e

theorem all_set {α : Type} [DecidableEq α] (f : α → Bool) (d : α) (t : Tab α) (k : Nat) (v : α)
    (h : t.all (fun e => f e.2) = true) (hv : f v = true) : (Tab.set d t k v).all (fun e => f e.2) = true := by
  rw [List.all_eq_true] at h ⊢
  intro p hp
  rcases Tab.mem_set hp with hp | rfl
  · exact h p hp
  · exact hv

theorem State.canon_strand (s : State) (a : Site) (h : s.canon = true) : (s.strand a).canon = true :=
  all_get Strand.canon Strand.reset rfl _ ((State.canon_iff s).1 h).2.2.2.2.2.2.2.2.2.1 _
theorem State.canon_core (s : State) (c : Nat) (h : s.canon = true) : (s.core c).canon = true :=
  all_get CoreSt.canon CoreSt.reset rfl _ ((State.canon_iff s).1 h).2.2.2.2.2.2.2.2.2.2.2.1 _
theorem State.canon_group (s : State) (g : Nat) (h : s.canon = true) : (s.group g).canon = true :=
  all_get GroupSt.canon GroupSt.reset rfl _ ((State.canon_iff s).1 h).2.2.2.2.2.2.2.2.2.2.2.2.2.1 _
theorem State.canon_ctx (s : State) (c : Nat) (h : s.canon = true) : (s.ctx c).canon = true :=
  all_get Ctx.canon Ctx.reset rfl _ ((State.canon_iff s).1 h).2.2.2.2.2.2.2.2.2.2.2.2.2.2.2.1 _

theorem State.canon_setWord (s : State) (off : Nat) (w : W64) (h : s.canon = true) : (s.setWord off w).canon = true := by
  rw [State.canon_iff] at h ⊢
  simp only [State.setWord_frame]
  exact ⟨s.wf_setWord off w h.1, h.2⟩
theorem State.canon_put (s : State) (f : Fld) (v i j : Nat) (h : s.canon = true) : (s.put f v i j).canon = true :=
  State.canon_setWord s _ _ h
theorem State.canon_bump (s : State) (f : Fld) (i j n : Nat) (h : s.canon = true) : (s.bump f i j n).canon = true :=
  State.canon_setWord s _ _ h
theorem State.canon_setStrand (s : State) (a : Site) (t : Strand) (h : s.canon = true) (ht : t.canon = true) :
    (s.setStrand a t).canon = true := by
  rw [State.canon_iff] at h ⊢
  simp only [State.setStrand_frame]
  exact ⟨h.1, h.2.1, h.2.2.1, h.2.2.2.1, h.2.2.2.2.1, h.2.2.2.2.2.1, h.2.2.2.2.2.2.1, h.2.2.2.2.2.2.2.1,
    Tab.wf_set _ _ h.2.2.2.2.2.2.2.2.1, all_set _ _ _ _ _ h.2.2.2.2.2.2.2.2.2.1 ht, h.2.2.2.2.2.2.2.2.2.2⟩
theorem State.canon_setCore (s : State) (c : Nat) (t : CoreSt) (h : s.canon = true) (ht : t.canon = true) :
    (s.setCore c t).canon = true := by
  rw [State.canon_iff] at h ⊢
  simp only [State.setCore_frame]
  exact ⟨h.1, h.2.1, h.2.2.1, h.2.2.2.1, h.2.2.2.2.1, h.2.2.2.2.2.1, h.2.2.2.2.2.2.1, h.2.2.2.2.2.2.2.1,
    h.2.2.2.2.2.2.2.2.1, h.2.2.2.2.2.2.2.2.2.1, Tab.wf_set _ _ h.2.2.2.2.2.2.2.2.2.2.1,
    all_set _ _ _ _ _ h.2.2.2.2.2.2.2.2.2.2.2.1 ht, h.2.2.2.2.2.2.2.2.2.2.2.2⟩
theorem State.canon_setObj (s : State) (i : Nat) (o : SyncObj) (h : s.canon = true) : (s.setObj i o).canon = true := by
  rw [State.canon_iff] at h ⊢
  simp only [State.setObj_frame]
  exact ⟨h.1, h.2.1, h.2.2.1, Tab.wf_set _ _ h.2.2.2.1, h.2.2.2.2⟩
theorem State.canon_setConn (s : State) (i : Nat) (c : Conn) (h : s.canon = true) : (s.setConn i c).canon = true := by
  rw [State.canon_iff] at h ⊢
  simp only [State.setConn_frame]
  exact ⟨h.1, h.2.1, h.2.2.1, h.2.2.2.1, h.2.2.2.2.1, Tab.wf_set _ _ h.2.2.2.2.2.1, h.2.2.2.2.2.2⟩
theorem State.canon_setPort (s : State) (p : Nat) (q : Port) (h : s.canon = true) : (s.setPort p q).canon = true := by
  rw [State.canon_iff] at h ⊢
  simp only [State.setPort_frame]
  exact ⟨h.1, h.2.1, h.2.2.1, h.2.2.2.1, h.2.2.2.2.1, h.2.2.2.2.2.1, Tab.wf_set _ _ h.2.2.2.2.2.2.1, h.2.2.2.2.2.2.2⟩
theorem State.canon_setFrame (s : State) (f : Nat) (x : FrameSt) (h : s.canon = true) : (s.setFrame f x).canon = true := by
  rw [State.canon_iff] at h ⊢
  simp only [State.setFrame_frame]
  exact ⟨h.1, h.2.1, h.2.2.1, h.2.2.2.1, Tab.wf_set _ _ h.2.2.2.2.1, h.2.2.2.2.2⟩
theorem State.canon_setPeer (s : State) (p : Nat) (x : Option Peer) (h : s.canon = true) : (s.setPeer p x).canon = true := by
  rw [State.canon_iff] at h ⊢
  simp only [State.setPeer_frame]
  exact ⟨h.1, h.2.1, h.2.2.1, h.2.2.2.1, h.2.2.2.2.1, h.2.2.2.2.2.1, h.2.2.2.2.2.2.1,
    Tab.wf_set _ _ h.2.2.2.2.2.2.2.1, h.2.2.2.2.2.2.2.2⟩
theorem State.canon_setCtx (s : State) (c : Nat) (x : Ctx) (h : s.canon = true) (hx : x.canon = true) :
    (s.setCtx c x).canon = true := by
  rw [State.canon_iff] at h ⊢
  simp only [State.setCtx_frame]
  exact ⟨h.1, h.2.1, h.2.2.1, h.2.2.2.1, h.2.2.2.2.1, h.2.2.2.2.2.1, h.2.2.2.2.2.2.1, h.2.2.2.2.2.2.2.1,
    h.2.2.2.2.2.2.2.2.1, h.2.2.2.2.2.2.2.2.2.1, h.2.2.2.2.2.2.2.2.2.2.1, h.2.2.2.2.2.2.2.2.2.2.2.1,
    h.2.2.2.2.2.2.2.2.2.2.2.2.1, h.2.2.2.2.2.2.2.2.2.2.2.2.2.1, Tab.wf_set _ _ h.2.2.2.2.2.2.2.2.2.2.2.2.2.2.1,
    all_set _ _ _ _ _ h.2.2.2.2.2.2.2.2.2.2.2.2.2.2.2.1 hx, h.2.2.2.2.2.2.2.2.2.2.2.2.2.2.2.2⟩
/-- A record in the ring keeps the canonical form. -/
theorem State.canon_record (s : State) (r : EvtRec) (h : s.canon = true) : (s.record r).canon = true := by
  unfold State.record
  exact State.canon_bump _ _ _ _ _ (State.canon_bump _ _ _ _ _ h)
theorem State.canon_event (s : State) (code detail core : Nat) (h : s.canon = true) :
    (s.event code detail core).canon = true := State.canon_record s _ h

/-- The ring never holds more than 1,024 records. -/
theorem State.record_ring (s : State) (r : EvtRec) : (s.record r).svc.ring = ((r, false) :: s.svc.ring).take 1024 := rfl
theorem State.record_ring_length (s : State) (r : EvtRec) : (s.record r).svc.ring.length ≤ 1024 := by
  rw [State.record_ring]
  exact List.length_take_le _ _

/-- Raising an event does exactly what the statements call raised: its record is the newest and it is counted. -/
theorem State.event_raised (s : State) (code detail core : Nat) (h : s.canon = true) :
    s.raised (s.event code detail core) code detail core := by
  refine ⟨rfl, ?_⟩
  have two (u : State) (n : Nat) (hu : Tab.wf 0 u.regs = true) :
      ((u.bump Reg.SVC_EVT_COUNT_COUNT).bump Reg.SVC_EVT_LOST_COUNT 0 0 n).get Reg.SVC_EVT_COUNT_COUNT =
        (u.get Reg.SVC_EVT_COUNT_COUNT + 1) % 2 ^ 64 :=
    (State.get_put_ne _ _ _ _ _ _ _ _ (State.wf_bump _ _ _ _ _ hu) (by decide)).trans
      (State.get_bump _ _ _ _ _ hu (by decide))
  exact two _ _ ((State.canon_iff s).1 h).1

/-! ### Fences asked for (R480) -/

/-- A self-fence is asked for once: the first cause stays. -/
theorem State.selfFence_cause (s : State) (cause : Nat) (h : s.flt.selfCause = none) (hf : s.flt.fencedSelf = false) :
    s.selfFence cause = { s with flt := { s.flt with selfCause := some cause } } := by
  unfold State.selfFence
  rw [h, hf]
  rfl
theorem State.selfFence_kept (s : State) (cause : Nat) (h : s.flt.selfCause ≠ none ∨ s.flt.fencedSelf = true) :
    s.selfFence cause = s := by
  unfold State.selfFence
  rcases h with h | h
  · split
    · rfl
    · contradiction
  · split
    · rfl
    · rw [if_pos h]

end Sys2Proof.Machine
end

