-- ==== Sys2Proof/Laws/Memory.lean ====
section
/-!
SUPPORT. Laws/Memory.lean: every operation on memory, flash and the tile stores keeps the canonical form, and what a
write leaves at the place it writes and everywhere else.
-/

namespace Sys2Proof.Machine

/-! ### Whole frames (R424) -/

theorem wf_zeroFrame (t : Tab Byte) (f : Nat) (h : Tab.wf 0 t = true) : Tab.wf 0 (zeroFrame t f) = true :=
  Tab.wf_filter _ h

theorem wf_putFrame (t cells : Tab Byte) (dst : Nat) (h : Tab.wf 0 t = true) : Tab.wf 0 (putFrame t cells dst) = true := by
  unfold putFrame
  have h' := wf_zeroFrame t dst h
  generalize zeroFrame t dst = u at h'
  induction cells generalizing u with
  | nil => exact h'
  | cons e es ih => exact ih _ (Tab.wf_set _ _ h')

/-- An entry of a filtered table that is kept reads as before; one that is not reads as the default. -/
theorem get_filter {α : Type} [DecidableEq α] {d : α} (f : Nat → Bool) (k : Nat) : ∀ {t : Tab α}, Tab.wf d t = true →
    Tab.get d (t.filter (fun e => f e.1)) k = if f k then Tab.get d t k else d
  | [], _ => by simp [Tab.get]
  | (j, v) :: t, h => by
    have ht := (Tab.wf_cons.1 h).2.2
    have ha := (Tab.wf_cons.1 h).2.1
    have ih := get_filter f k ht
    by_cases hj : k = j
    · subst hj
      by_cases hf : f k = true
      · simp [hf, Tab.get]
      · simp only [Bool.not_eq_true] at hf
        simp only [hf, List.filter_cons, Tab.get]
        simpa [hf] using ih
    · by_cases hf : f j = true
      · simp only [List.filter_cons, hf, if_true, Tab.get, if_neg hj]
        exact ih
      · simp only [Bool.not_eq_true] at hf
        simp only [List.filter_cons, hf, Tab.get, if_neg hj]
        exact ih

/-- A frame that is zeroed reads 0; every other byte is unchanged. -/
theorem get_zeroFrame (t : Tab Byte) (f pa : Nat) (h : Tab.wf 0 t = true) :
    Tab.get 0 (zeroFrame t f) pa = if pa / frameBytes = f then 0 else Tab.get 0 t pa := by
  unfold zeroFrame
  rw [get_filter (fun k => k / frameBytes != f) pa h]
  by_cases e : pa / frameBytes = f <;> simp [e]

/-! ### Bytes of a context, and of flash (R393, R538) -/

theorem State.canon_setVbyte (s : State) (c va : Nat) (b : Byte) (h : s.canon = true) : (s.setVbyte c va b).canon = true := by
  unfold State.setVbyte
  split
  · rw [State.canon_iff] at h ⊢
    exact ⟨h.1, Tab.wf_set _ _ h.2.1, h.2.2⟩
  · exact h

theorem State.canon_vwrite (c : Nat) : ∀ (bs : List Byte) (s : State) (va : Nat), s.canon = true →
    (s.vwrite c va bs).canon = true
  | [], _, _, h => h
  | b :: bs, s, va, h => State.canon_vwrite c bs _ (va + 1) (s.canon_setVbyte c va b h)

theorem State.canon_poke (s : State) (c va : Nat) (b : Byte) (h : s.canon = true) : (s.poke c va b).canon = true := by
  unfold State.poke
  split
  · exact h
  · rw [State.canon_iff] at h ⊢
    dsimp only
    split
    · exact ⟨h.1, h.2.1, Tab.wf_set _ _ h.2.2.1, h.2.2.2⟩
    · exact ⟨h.1, Tab.wf_set _ _ h.2.1, h.2.2⟩

theorem State.canon_pokes (c : Nat) : ∀ (bs : List Byte) (s : State) (va : Nat), s.canon = true →
    (s.pokes c va bs).canon = true
  | [], _, _, h => h
  | b :: bs, s, va, h => State.canon_pokes c bs _ (va + 1) (s.canon_poke c va b h)

/-- A byte write leaves the translation of every address. -/
theorem State.translate_setVbyte (s : State) (c va : Nat) (b : Byte) (d vb : Nat) :
    (s.setVbyte c va b).translate d vb = s.translate d vb := by
  have e := s.setVbyte_mem c va b
  exact State.translate_congr (congrArg State.sec e) (congrArg State.regs e) d vb

/-- A byte that no address of a range write names is unchanged. -/
theorem State.pbyte_vwrite_out (c pa : Nat) : ∀ (bs : List Byte) (s : State) (va : Nat), Tab.wf 0 s.mem = true →
    (∀ k, k < bs.length → s.translate c (va + k) ≠ some pa) → (s.vwrite c va bs).pbyte pa = s.pbyte pa
  | [], _, _, _, _ => rfl
  | b :: bs, s, va, h, hk => by
    have h1 := State.pbyte_vwrite_out c pa bs (s.setVbyte c va b) (va + 1) (s.wf_setVbyte c va b h) (fun k hl => by
      rw [State.translate_setVbyte, Nat.add_assoc, Nat.add_comm 1 k]
      exact hk (k + 1) (by simpa using hl))
    exact h1.trans (s.pbyte_setVbyte_ne c va b pa h (hk 0 (by simp)))

/-- What a range write leaves: at each address the last byte written there, and every other byte (R10). -/
theorem State.vwrite_gets (c : Nat) : ∀ (bs : List Byte) (s : State) (va : Nat), Tab.wf 0 s.mem = true →
    s.memGets (s.vwrite c va bs) c bs.length (fun k => va + k) (fun k => bs.getD k 0)
  | [], _, _, _ => ⟨fun k _ hk => absurd hk (Nat.not_lt_zero k), fun _ _ => rfl⟩
  | b :: bs, s, va, h => by
    refine ⟨fun k pa hk ht hlast => ?_, fun pa hpa => State.pbyte_vwrite_out c pa _ s va h hpa⟩
    cases k with
    | zero =>
      have h1 := State.pbyte_vwrite_out c pa bs (s.setVbyte c va b) (va + 1) (s.wf_setVbyte c va b h) (fun j hj => by
        rw [State.translate_setVbyte, Nat.add_assoc, Nat.add_comm 1 j]
        exact hlast (j + 1) (by omega) (by simpa using hj))
      exact h1.trans (s.pbyte_setVbyte c va pa b h ht)
    | succ k =>
      have ih := (State.vwrite_gets c bs (s.setVbyte c va b) (va + 1) (s.wf_setVbyte c va b h)).1 k pa
        (by simpa using hk) (by
          show (s.setVbyte c va b).translate c (va + 1 + k) = some pa
          rw [State.translate_setVbyte, Nat.add_assoc, Nat.add_comm 1 k]
          exact ht) (fun j hj hl => by
          show (s.setVbyte c va b).translate c (va + 1 + j) ≠ some pa
          rw [State.translate_setVbyte, Nat.add_assoc, Nat.add_comm 1 j]
          exact hlast (j + 1) (by omega) (by simpa using hl))
      exact ih

/-! ### Tile stores (R121, R197) -/

theorem wf_marks (l : List Nat) (f : Nat → Nat) (v : Option Int) : ∀ {t : Tab (Option Int)}, Tab.wf none t = true →
    Tab.wf none (l.foldl (fun t k => Tab.set none t (f k) v) t) = true := by
  induction l with
  | nil => exact fun h => h
  | cons k ks ih => exact fun h => ih (Tab.wf_set _ _ h)

theorem State.canon_twrite (s : State) (core at_ : Nat) (bs : List Byte) (h : s.canon = true) :
    (s.twrite core at_ bs).canon = true := by
  have hc := s.canon_core core h
  unfold CoreSt.canon at hc
  rw [Bool.and_eq_true] at hc
  refine s.canon_setCore core _ h ?_
  unfold CoreSt.canon
  rw [Bool.and_eq_true]
  exact ⟨Tab.wf_setRange _ _ hc.1, wf_marks _ _ _ hc.2⟩

theorem State.canon_setMarks (s : State) (core u n : Nat) (m : Option Int) (h : s.canon = true) :
    (s.setMarks core u n m).canon = true := by
  have hc := s.canon_core core h
  unfold CoreSt.canon at hc
  rw [Bool.and_eq_true] at hc
  refine s.canon_setCore core _ h ?_
  unfold CoreSt.canon
  rw [Bool.and_eq_true]
  exact ⟨hc.1, wf_marks _ _ _ hc.2⟩

/-- The tile store of a core after a write. -/
theorem State.tile_twrite (s : State) (core at_ : Nat) (bs : List Byte) (h : s.canon = true) :
    ((s.twrite core at_ bs).core core).tile = Tab.setRange 0 (s.core core).tile at_ bs := by
  unfold State.twrite
  rw [State.core_setCore _ _ _ ((State.canon_iff s).1 h).2.2.2.2.2.2.2.2.2.2.1]

/-- What a write of tile bytes leaves: the bytes there, every other byte of that tile store, and every other core. -/
theorem State.twrite_gets (s : State) (core at_ : Nat) (bs : List Byte) (h : s.canon = true) :
    s.tileGets (s.twrite core at_ bs) core at_ bs.length (fun k => bs.getD k 0) := by
  have hc := s.canon_core core h
  unfold CoreSt.canon at hc
  rw [Bool.and_eq_true] at hc
  refine ⟨fun k hk => ?_, fun j hj => ?_, fun c hne => ?_⟩
  · rw [s.tile_twrite core at_ bs h, Tab.get_setRange_in bs at_ k hk hc.1]
    simp [List.getD_eq_getElem?_getD, hk]
  · rw [s.tile_twrite core at_ bs h]
    exact Tab.get_setRange_out bs at_ hc.1 hj
  · unfold State.twrite
    rw [State.core_setCore_ne _ _ ((State.canon_iff s).1 h).2.2.2.2.2.2.2.2.2.2.1 hne]

end Sys2Proof.Machine
end

