-- ==== Sys2Proof/Tests/Slice0.lean ====
section
/-!
SUPPORT. Tests/Slice0.lean: tests of the model, each a named theorem: the loader's checks with a term that each
refuses, words written out from the encoding tables of spec/04_instruction_encoding.md, and for each statement of
Certificates/Slice0/Obligations.lean small states that meet the hypotheses of its clauses together.
-/

namespace Sys2Proof.Tests

open Machine

set_option Elab.async false

/-! ### Small terms -/

/-- Core 0, strand 0. -/
def sA : Site := ⟨0, 0⟩
/-- No condition. -/
def pT : Pred := ⟨0, false⟩
/-- A condition on p1. -/
def p1 : Pred := ⟨1, false⟩
/-- The tile store from a unit. -/
def tu (n : BitVec 13) : Tsop := ⟨n, 0, 0⟩
/-- The address in a0. -/
def m0 : Mop := ⟨0, 0, 0, 0⟩
/-- A report of no error. -/
def hwN : HwReport := ⟨[], false, [], false⟩
/-- A product of 128 BF16 rows. -/
def fM : MatF := ⟨tu 0, tu 64, tu 400, 128, 0, 0, false, 0, 0, false, 0, 0⟩
/-- A vector of 256 FP32 elements, one source. -/
def fV : VecF := ⟨tu 16, tu 0, tu 0, 1, 8, 0, tu 0, 0, 8⟩
/-- Two sources. -/
def fV2 : VecF := { fV with tsb := tu 8 }

/-! ### What the loader refuses (R89, R119, R144) -/

/-- One term for each check of WellFormed.lean. -/
def illFormed : List Instr :=
  [.skip sA ⟨0, true⟩ 1, .loop sA 0 false 0 1 0, .pset sA pT 1 5 0 0 0 0 (tu 0) 0, .pset sA pT 1 3 4 0 0 0 (tu 0) 0
  , .pset sA pT 1 1 6 0 0 0 (tu 0) 0, .pset sA pT 1 0 0 4 0 0 (tu 0) 0, .pset sA pT 1 1 0 32 0 0 (tu 0) 0
  , .pset sA pT 1 3 0 8 0 0 (tu 0) 0, .skip sA pT 0, .soinc sA pT 0 false (.id 0) 0
  , .soset sA pT 0 false (.id 0) true true (.id 0) 96 0 0, .ldt sA pT (tu 0) m0 0 0 hwN, .stt sA pT (tu 0) m0 6145 0 hwN
  , .ldt sA pT (tu 0) m0 1 6 hwN, .gth sA pT (tu 0) m0 4097 0 (tu 512) hwN, .sct sA pT (tu 0) m0 0 0 (tu 512) hwN
  , .pfh sA pT m0 0 0 0 false 0 0, .pfh sA pT m0 1 0 0 false 0 3, .xfer sA pT (tu 0) m0 (.id 1) 0 0 hwN]

/-- One term for each check of the matrix, vector and other formats. -/
def illFormed2 : List Instr :=
  [.mload sA pT (tu 0) (tu 0) 8 0 hwN, .mload sA pT (tu 0) (tu 0) 0 3 hwN, .mmul sA pT { fM with rows := 0 } hwN
  , .mmuls sA pT { fM with fmts := 8 } hwN, .mmul sA pT { fM with fmtt := 8 } hwN, .mmul sA pT { fM with anch := 2 } hwN
  , .mmulw sA pT { fM with fmts := 1 } hwN, .mmulw sA pT { fM with mw := 4 } hwN, .mmulw sA pT { fM with pass := 3 } hwN
  , .mscale sA pT (tu 0) (tu 400) 4097 0 false 0 hwN, .vadd sA pT { fV2 with vl := 0 } hwN
  , .vmul sA pT { fV2 with fmt := 9 } hwN, .vfma sA pT { fV2 with func := 1 } hwN, .vact sA pT fV2 hwN
  , .vred sA pT { fV with tsc := tu 1 } hwN, .vmax sA pT { fV2 with tsd := tu 1 } hwN, .vexp sA pT { fV with rnd := 1 } hwN
  , .vder sA pT { fV2 with func := 7 } hwN, .vscan sA pT { fV with ofmt := 2 } hwN, .vcvt sA pT { fV with rnd := 2 } hwN
  , .vcvt sA pT { fV with ofmt := 9 } hwN]

/-- One term for each check of the attention, routing and engine formats, and of a region. -/
def illFormed3 : List Instr :=
  [.ablk sA pT (tu 0) (tu 64) (tu 256) 1 0 true true 0x3F80 8 false hwN none
  , .ablk sA pT (tu 0) (tu 64) (tu 256) 0 2 true true 0x3F80 8 false hwN none
  , .ablk sA pT (tu 0) (tu 64) (tu 256) 0 0 true true 0x3F80 9 false hwN none
  , .ablk sA pT (tu 0) (tu 64) (tu 256) 0 0 true true 0 8 false hwN none
  , .asel sA pT (tu 0) (tu 64) (tu 256) 0 0 false 0 0 true true true 0 hwN
  , .asel sA pT (tu 0) (tu 64) (tu 256) 0 0 false 1 65 true true true 0 hwN
  , .kvapp sA pT (tu 0) (tu 400) 0 0 0 false 0 0 false 0 1 hwN, .rtopk sA pT (tu 0) (tu 64) 7 0 1 3 hwN
  , .rtopk sA pT (tu 0) (tu 64) 7 0 4097 0 hwN, .disp sA pT (tu 0) m0 m0 1 false 4097 0
  , .cmb sA pT (tu 0) (tu 64) m0 1 0 2 hwN, .precon sA pT m0 0 2, .ldt sA pT ⟨0, 0, 15⟩ m0 1 0 hwN
  , .ldt sA pT (tu 6143) m0 2 0 hwN, .mload sA pT (tu 5744) (tu 0) 2 0 hwN, .mload sA pT (tu 1) (tu 0) 0 0 hwN]

/-- What the loader accepts: one term beside each kind above. -/
def wellFormed : List Instr :=
  [.nop sA, .loop sA 0 false 0 1 1, .pset sA pT 1 2 5 0 0 0 (tu 6143) 127, .skip sA ⟨1, true⟩ 255
  , .soinc sA pT 8191 false (.id 0) 65535, .soset sA pT 0 false (.id 0) true true (.id 0) 95 0 0
  , .ldt sA pT (tu 0) m0 6144 5 hwN, .gth sA pT (tu 0) m0 4096 0 (tu 512) hwN, .pfh sA pT m0 1 0 0 false 63 2
  , .mload sA pT (tu 32) (tu 0) 2 0 hwN, .mmul sA pT fM hwN, .mmulw sA pT { fM with pass := 2 } hwN, .vadd sA pT fV2 hwN
  , .vact sA pT fV hwN, .vcvt sA pT { fV with rnd := 1 } hwN
  , .ablk sA pT (tu 0) (tu 64) (tu 256) 0 0 true true 0x3F80 8 false hwN none
  , .kvapp sA pT (tu 0) (tu 400) 0 0 0 false 0 0 false 127 2 hwN, .rtopk sA pT (tu 0) (tu 64) 7 0 1 2 hwN
  , .postEvent sA pT m0 ⟨0, 4⟩, .fenceComplete sA, .standbyPowerLoss]

theorem test_illFormed_control : illFormed.all (fun i => !i.wf) = true := by decide +kernel
theorem test_illFormed_matrix : illFormed2.all (fun i => !i.wf) = true := by decide +kernel
theorem test_illFormed_rest : illFormed3.all (fun i => !i.wf) = true := by decide +kernel
theorem test_wellFormed : wellFormed.all Instr.wf = true := by decide +kernel

/-! ### Words written out from R117 to R141 -/

-- R127: opcode 0x03, PRED 1 in [10:8], N 5 in [23:16]
theorem test_word_skip : decode sA (0x03 + 1 * 2 ^ 8 + 5 * 2 ^ 16) = some (.skip sA p1 5) := by decide +kernel
-- R129: opcode 0x11, INDEX 0x1A in [28:16], AMOUNT 3 in [63:48]
theorem test_word_soinc : decode sA (0x11 + 0x1A * 2 ^ 16 + 3 * 2 ^ 48) = some (.soinc sA pT 0x1A false (.id 0) 3) := by
  decide +kernel
-- R130, R121, R123: opcode 0x20, BASE 8 in [28:16], AREG 1 in [39:36], DISP -1 in [59:47], LEN 2 in [88:76]
theorem test_word_ldt : decode sA (0x20 + 8 * 2 ^ 16 + 1 * 2 ^ 36 + 0x1FFF * 2 ^ 47 + 2 * 2 ^ 76) =
    some (.ldt sA pT (tu 8) ⟨1, 0, 0, 0x1FFF⟩ 2 0 noReport) := by decide +kernel
-- R133: opcode 0x31, TSC 64 in [55:36], TSX 400 in [75:56], ROWS 128 in [88:76], ACCUM in [97]
theorem test_word_mmul : decode sA (0x31 + 64 * 2 ^ 36 + 400 * 2 ^ 56 + 128 * 2 ^ 76 + 2 ^ 97) =
    some (.mmul sA pT { fM with accum := true } noReport) := by decide +kernel
-- R137: opcode 0x40, TSD 16, TSB 8 in [75:56], VL 1, FMT 8 in [92:89], OFMT 8 in [122:119]
theorem test_word_vadd : decode sA (0x40 + 16 * 2 ^ 16 + 8 * 2 ^ 56 + 1 * 2 ^ 76 + 8 * 2 ^ 89 + 8 * 2 ^ 119) =
    some (.vadd sA pT fV2 noReport) := by decide +kernel
-- R138: opcode 0x50, TSKV 64, TSST 256, FIRST [82], SCALE 1.0 in [99:84], HDIM 8 in [103:100]
theorem test_word_ablk : decode sA (0x50 + 64 * 2 ^ 36 + 256 * 2 ^ 56 + 2 ^ 82 + 0x3F80 * 2 ^ 84 + 8 * 2 ^ 100) =
    some (.ablk sA pT (tu 0) (tu 64) (tu 256) 0 0 true false 0x3F80 8 false noReport none) := by decide +kernel
-- R140: opcode 0x60, TSD 64 in [55:36], E - 1 = 7 in [67:56], K - 1 = 1 in [70:68], NTOK 3 in [83:71], NORM 1 in [85:84]
theorem test_word_rtopk : decode sA (0x60 + 64 * 2 ^ 36 + 7 * 2 ^ 56 + 1 * 2 ^ 68 + 3 * 2 ^ 71 + 1 * 2 ^ 84) =
    some (.rtopk sA pT (tu 0) (tu 64) 7 1 3 1 noReport) := by decide +kernel
-- R141: opcode 0x80, AREG 2 in [19:16], DONE 9 in [81:69], CODE 4 in [92:85]
theorem test_word_postEvent : decode sA (0x80 + 2 * 2 ^ 16 + 9 * 2 ^ 69 + 4 * 2 ^ 85) =
    some (.postEvent sA pT ⟨2, 0, 0, 0⟩ ⟨9, 4⟩) := by decide +kernel
-- R120, R144: a reserved opcode, a reserved bit
theorem test_word_reserved : decode sA 0x06 = none ∧ decode sA (0x03 + 5 * 2 ^ 16 + 2 ^ 127) = none := by decide +kernel

/-! ### Small states -/

/-- A mapping of one HBM frame. -/
def mapOf (frame : Nat) : Mapping := ⟨frame, .hbm, .hbm, false, false, false, 0, none⟩
/-- Context 0, which runs, with the first two frames of its space mapped. -/
def ctxR : Ctx := { Ctx.reset with st := .running, maps := [(0, some (mapOf 0)), (1, some (mapOf 1))] }
/-- A strand that runs. -/
def strR : Strand := { Strand.reset with st := .run, enabled := true }
/-- A device whose context 0 runs, with the given first strand. -/
def dev (t : Strand) : State :=
  { State.reset with
    strands := [(0, t)], bt := { BeatUnit.reset with st := .locked }
    sec := { SecUnit.reset with ctxs := [(0, ctxR)], run := some 0, shown := some 0 }
    step := { StepUnit.reset with active := true, beats := 4 } }
/-- Strand 0 of core 0 runs. -/
def dR : State := dev strR
/-- The same with a tile store. -/
def dTile (tile : Tab Byte) : State := { dR with cores := [(0, { CoreSt.reset with tile := tile })] }
/-- Node 5 is a member of the job, port 3 can send, and connection 2 is open to it. -/
def dNet : State :=
  { dR with
    flt := { FltUnit.reset with map := { FaultMap.reset with members := [0, 5] } }
    ports := [(3, { Port.reset with link := true, lock := 15, spray := true })]
    conns := [(2, { Conn.reset with opened := true, peer := 5, ctx := 0, theirs := 9 })] }
/-- The nonzero bytes of a list as cells from an address. -/
def cellsAt (base : Nat) (bs : List Byte) : Tab Byte :=
  (((List.range bs.length).map (base + ·)).zip bs).filter (fun e => e.2 != 0)
/-- An image with a ROOTS and a PLANS section and STEP_BEATS 4. -/
def imgOf (roots plans : List Byte) : List Byte :=
  List.replicate 8 0 ++ toBytes 4 4 ++ List.replicate 100 0 ++ toBytes 8 256 ++ toBytes 8 roots.length ++
    toBytes 8 (256 + roots.length) ++ toBytes 8 plans.length ++ List.replicate 112 0 ++ roots ++ plans
/-- A TREE plan of one member, node 0, one shard and one element. -/
def treePlan : List Byte :=
  toBytes 2 1 ++ [0, 0] ++ toBytes 4 48 ++ List.replicate 8 0 ++
    (toBytes 2 1 ++ [0, 0] ++ toBytes 4 1 ++ toBytes 8 1 ++ toBytes 8 0x3000 ++ List.replicate 8 0 ++ toBytes 2 0
      ++ List.replicate 14 0)
/-- A gather pool of one entry. -/
def poolPlan : List Byte :=
  toBytes 2 5 ++ [0, 0] ++ toBytes 4 32 ++ List.replicate 8 0 ++
    (toBytes 8 0x10000000 ++ toBytes 8 0x200000 ++ toBytes 2 1 ++ [0, 0] ++ toBytes 4 1 ++ toBytes 8 0x4000)
/-- ROOTS: one layer, one head, BF16 pages, two HBM frames at 0x200000, tables in frame 0, a ring of 4. -/
def rootsSec : List Byte :=
  toBytes 2 1 ++ [1, 0] ++ toBytes 4 2 ++ toBytes 8 0x200000 ++ toBytes 4 0 ++ toBytes 8 0 ++ toBytes 8 0x8000
    ++ toBytes 8 0x9000 ++ toBytes 8 0xA000 ++ toBytes 2 4 ++ toBytes 2 7 ++ toBytes 4 0 ++ [8, 0, 0, 0]
/-- The running device with an image. -/
def withImg (s : State) (img : List Byte) : State :=
  { s with sec := { s.sec with ctxs := [(0, { ctxR with image := some img })] } }
/-- A dense BF16 stationary tile of zeros. -/
def tileZ : StatTile := ⟨0, 0, 0, [], [], [], [], false⟩
/-- A product of one row. -/
def prodZ : Product :=
  ⟨0, .dense, 0, 0, 128, 64, 0, 1, 0, false, none, false, 0, 0, false, false, 0, 0, tileZ, [], []⟩
/-- The running device with something on its first core. -/
def dCore (c : CoreSt) : State := { dR with cores := [(0, c)] }
/-- A valid product record at unit 400. -/
def dRec : State :=
  dCore { CoreSt.reset with stat := some tileZ, tile := cellsAt (400 * 512) (toBytes 4 (2 ^ 31)) }
/-- The running device with bytes in memory. -/
def dMem (l : List (Nat × List Byte)) : State := { dR with mem := l.flatMap (fun e => cellsAt e.1 e.2) }
/-- The device with key-value pages: stream 0 has one block, both page frames are FREE. -/
def dKv : State :=
  withImg (dMem [(0x9000, toBytes 8 0xB000 ++ toBytes 8 0xC000 ++ toBytes 4 1)]) (imgOf rootsSec [])
/-- The detached device after power-up, ready, with its window live by PCIe. -/
def dReady : State :=
  { State.reset with
    svc := { Svc.reset with st := .ready }
    pins := { Pins.reset with stby := true, stage2 := true, rails := true, perst := false, pcieTrained := true } }
/-- The same with context 1 LOADED and arguments in the mailbox (R508). -/
def dArgs (l : List (Nat × W64)) : State :=
  { (l.foldl (fun s e => s.put Reg.SVC_MBOX_ARG_ARG e.2.toNat 0 e.1) dReady) with
    sec := { SecUnit.reset with ctxs := [(1, { ctxR with st := .loaded, maps := [(1, some (mapOf 1))] })] } }

/-! ### Witnesses: runs, control, sync objects -/

theorem wit_front :
    ({ dR with pending := [.nop sA] } : State).pending = .nop sA :: [] ∧ dR.pending = [] := by
  decide +kernel

theorem wit_canon : State.reset.canon = true ∧ dR.canon = true ∧ dNet.canon = true := by decide +kernel

theorem wit_ring : State.reset.svc.ring.length ≤ 1024 ∧ State.reset.pending = [] := by decide +kernel

theorem wit_predicateZero : dR.canIssue sA = true := by decide +kernel

theorem wit_falsePredicate :
    dR.canon = true ∧ (Instr.skip sA p1 3).condition = some (sA, p1) ∧ (Instr.skip sA p1 3).wf = true ∧
    dR.canIssue sA = true ∧ (dR.strand sA).cond p1 = false := by
  decide +kernel

theorem wit_nopSkipLoop :
    dR.canon = true ∧ dR.executes sA pT (.nop sA) ∧ dR.executes sA pT (.skip sA pT 255) ∧
    dR.executes sA pT (.loop sA 0 false 0 0 2) ∧ dR.executes sA pT (.loop sA 0 false 0 0xFFFFFFFF 2) := by
  unfold State.executes
  decide +kernel

theorem wit_loopBack :
    Tab.wf 0 [(0, (3 : W32))] = true ∧ ({ strR with lc := [(0, 3)], loops := [⟨0, 1, 4, 3⟩] } : Strand).loops =
    ⟨0, 1, 4, 3⟩ :: [] ∧ 1 < ({ strR with lc := [(0, 3)] } : Strand).lcv 0 ∧ ({ strR with lc := [(0, 1)] } : Strand).lcv 0 ≤ 1 := by
  decide +kernel

theorem wit_predicateWrite :
    dR.canon = true ∧ dR.executes sA pT (.pset sA pT 1 0 0 0 0 0 (tu 0) 0) ∧
    dR.clear sA (.pset sA pT 1 0 0 0 0 0 (tu 0) 0) [] ∧ dR.executes sA pT (.pset sA pT 1 1 4 0 0 0xFFFFFFFF (tu 0) 0) ∧
    dR.clear sA (.pset sA pT 1 1 4 0 0 0xFFFFFFFF (tu 0) 0) [] ∧ dR.executes sA pT (.pset sA pT 1 2 5 0 0 1 (tu 6143) 127) ∧
    dR.clear sA (.pset sA pT 1 2 5 0 0 1 (tu 6143) 127) [] ∧ dR.executes sA pT (.pset sA pT 1 3 3 7 1 0 (tu 0) 0) ∧
    dR.clear sA (.pset sA pT 1 3 3 7 1 0 (tu 0) 0) [] ∧ dR.executes sA pT (.pset sA pT 1 4 0 63 0 0 (tu 0) 0) ∧
    dR.clear sA (.pset sA pT 1 4 0 63 0 0 (tu 0) 0) [] := by
  unfold State.executes State.clear
  decide +kernel

theorem wit_psetValues :
    dR.psetValue sA 1 4 0 0 0xFFFFFFFF (tu 0) 0 = false ∧ dR.psetValue sA 1 2 0 0 0xFFFFFFFF (tu 0) 0 = true ∧
    dR.psetValue sA 3 3 0 1 0 (tu 0) 0 = true := by
  decide +kernel

theorem wit_beatHalt :
    dR.canon = true ∧ dR.executes sA pT (.halt ⟨sA, 7⟩) ∧ dR.executes sA pT (.beat sA 7) ∧
    (dR.strand sA).seg.toNat + 1 < dR.step.beats := by
  unfold State.executes
  decide +kernel

theorem wit_beatLast :
    (dev { strR with seg := 3 }).executes sA pT (.beat sA 0) ∧
    (dev { strR with seg := 3 }).step.beats ≤ ((dev { strR with seg := 3 }).strand sA).seg.toNat + 1 := by
  unfold State.executes
  decide +kernel

theorem wit_syncWaitSet :
    dR.foreign (dR.strand sA) false (.id 0) = false ∧ dR.executes sA pT (.sowait sA pT 8191 false (.id 0) 1 1) ∧
    (dR.obj 8191).met 1 = false ∧ (dR.obj 8191).met 0 = true ∧
    dR.executes sA pT (.soset sA pT 8127 false (.id 0) true true (.id 0) 95 3 4) ∧ NodeOp.bad (dR.strand sA) (.id 0) = false ∧
    dR.executes sA pT (.soset sA pT 8127 false (.id 0) false false (.id 0) 0 3 4) := by
  unfold State.executes
  decide +kernel

theorem wit_syncIncrement :
    dR.canon = true ∧ dR.executes sA pT (.soinc sA pT 8127 false (.id 0) 65535) ∧
    dR.foreign (dR.strand sA) false (.id 0) = false ∧ (dR.obj 8127).count.toNat + 65535 < 2 ^ 32 ∧
    2 ^ 32 ≤ (({ dR with so := [(8127, { SyncObj.reset with count := 0xFFFFFFFF })] } : State).obj 8127).count.toNat + 1 := by
  unfold State.executes
  decide +kernel

theorem wit_syncRemote :
    dNet.canon = true ∧ dNet.executes sA pT (.soinc sA pT 7 true (.id 5) 1) ∧ 5 ≠ dNet.node ∧
    dNet.inJob 6 = false ∧ dNet.inJob 5 = true ∧ dNet.isFenced 5 = false ∧ dNet.running = some 0 ∧
    dNet.waitSends = [] ∧ dNet.canSend 0 5 (dataFrame 0x02 5 (7 + 1 * 2 ^ 16) 0 true []) = some 2 ∧
    dNet.portFor (dataFrame 0x02 5 (7 + 1 * 2 ^ 16) 0 true []) = some 3 := by
  unfold State.executes
  decide +kernel

theorem wit_syncFenced :
    ({ dNet with flt := { dNet.flt with map := { dNet.flt.map with failed := [⟨5, 0, none, none, none⟩] } } } :
    State).isFenced 5 = true := by
  decide +kernel

theorem wit_reserved :
    dR.executes sA pT (.soinc sA pT 8128 false (.id 0) 1) ∧ dR.executes sA pT (.soinc sA pT 8191 false (.id 0) 1) ∧
    dR.executes sA pT (.soset sA pT 8128 false (.id 0) false false (.id 0) 0 0 0) ∧
    dR.executes sA pT (.sowait sA pT 8191 false (.id 0) 0 0) := by
  unfold State.executes
  decide +kernel

theorem wit_fences :
    dR.executes sA pT (.fence sA pT .device) ∧ dR.executes sA pT (.fence sA pT .global) ∧
    dR.outstanding (.strand sA) = false ∧ (dev { strR with st := .waitFence, fence := some .global }).fenceDone sA .global = true := by
  unfold State.executes
  decide +kernel

theorem wit_fenceWaits :
    ({ dR with waitSends := [⟨0, 5, dataFrame 0x01 5 0 0 true [], .strand sA⟩] } :
    State).outstanding (.strand sA) = true := by
  decide +kernel

theorem wit_soResume :
    (dev { strR with st := .waitSo, soWait := some ⟨3, 0, 1⟩ }).canon = true ∧
    ((dev { strR with st := .waitSo, soWait := some ⟨3, 0, 1⟩ }).obj 3).met 0 = true := by
  decide +kernel

theorem wit_narrowReturn :
    (dev { strR with st := .parkNarrow, held := some ⟨.gth sA pT (tu 0) m0 1 0 (tu 8) hwN, [], [], [], []⟩ }).canon =
    true := by
  decide +kernel

theorem wit_strandErrors :
    dR.executes sA pT (.ldt sA pT (tu 0) ⟨0, 0, 0, 8191⟩ 1 0 hwN) ∧
    dR.conflict sA (Instr.ldt sA pT (tu 0) ⟨0, 0, 0, 8191⟩ 1 0 hwN).regions = false ∧
    firstCause (regionCauses (dR.strand sA) (Instr.ldt sA pT (tu 0) ⟨0, 0, 0, 8191⟩ 1 0 hwN).regions ++
      dR.readCauses sA 0 (.ldt sA pT (tu 0) ⟨0, 0, 0, 8191⟩ 1 0 hwN) ⟨0, 0, 0, 8191⟩ 512) = some 0x06 ∧
    2 ^ 32 ≤ (((dev { strR with sreg := [(0, 0x100000000)] }).strand sA).s 0).toNat ∧
    (dev { strR with sreg := [(0, 0x100000000)] }).executes sA pT (.loop sA 0 true 0 0 1) := by
  unfold State.executes
  decide +kernel

/-! ### Witnesses: moves, prefetches, collectives -/

theorem wit_loadTile :
    dR.canon = true ∧ dR.running = some 0 ∧ dR.executes sA pT (.ldt sA pT (tu 6143) m0 1 5 hwN) ∧ hwN.ecc = [] ∧
    dR.clear sA (.ldt sA pT (tu 6143) m0 1 5 hwN) (dR.readCauses sA 0 (.ldt sA pT (tu 6143) m0 1 5 hwN) m0 512) := by
  unfold State.executes State.clear
  decide +kernel

theorem wit_loadPlain :
    isView (Mop.addr (dR.strand sA) m0) = false ∧ dR.staleMet 0 512 = [] ∧ dR.readWaits 0 512 = false ∧
    ∀ k, k < 512 → dR.servedFrom (0 + k) = 0 + k := by
  decide +kernel

theorem wit_gatherTile :
    dR.executes sA pT (.gth sA pT (tu 0) m0 2 0 (tu 8) hwN) ∧ hwN.miss = false ∧
    dR.clear sA (.gth sA pT (tu 0) m0 2 0 (tu 8) hwN) (dR.readCauses sA 0 (.gth sA pT (tu 0) m0 2 0 (tu 8) hwN) m0 32) ∧
    ∀ g ∈ dR.granules 0 0 4096 2, dR.plainBytes g 32 := by
  unfold State.executes State.clear State.plainBytes State.freshBytes
  decide +kernel

theorem wit_storeTile :
    dR.executes sA pT (.stt sA pT (tu 0) m0 2 0 hwN) ∧ Mop.addr (dR.strand sA) m0 % 512 = 0 ∧
    dR.clear sA (.stt sA pT (tu 0) m0 2 0 hwN) (dR.writeCauses 0 (Mop.bad (dR.strand sA) m0) [(0, 1024)]) ∧
    dR.moveHolds 0 0 1024 = false := by
  unfold State.executes State.clear
  decide +kernel

theorem wit_scatterTile :
    dR.executes sA pT (.sct sA pT (tu 0) m0 2 0 (tu 8) hwN) ∧ Mop.addr (dR.strand sA) m0 % 32 = 0 ∧
    dR.clear sA (.sct sA pT (tu 0) m0 2 0 (tu 8) hwN) (dR.writeCauses 0 (Mop.bad (dR.strand sA) m0)
      ((dR.granules 0 0 4096 2).map (fun g => (g, 32)))) ∧ ∀ g ∈ dR.granules 0 0 4096 2, dR.moveHolds 0 g 32 = false := by
  unfold State.executes State.clear
  decide +kernel

theorem wit_remoteTransfer :
    dNet.executes sA pT (.xfer sA pT (tu 0) m0 (.id 5) 8 0 hwN) ∧ NodeOp.bad (dNet.strand sA) (.id 5) = false ∧
    5 ≠ dNet.node ∧ dNet.inJob 5 = true ∧ Mop.bad (dNet.strand sA) m0 = false ∧ isView 0 = false ∧
    dNet.clear sA (.xfer sA pT (tu 0) m0 (.id 5) 8 0 hwN) [] ∧ dNet.isFenced 5 = false ∧
    dNet.canSend 0 5 (dataFrame 0x01 5 0 4096 true (dNet.tread 0 0 4096)) = some 2 ∧
    dNet.portFor (dataFrame 0x01 5 0 4096 true (dNet.tread 0 0 4096)) = some 3 := by
  unfold State.executes State.clear
  decide +kernel

/-- A prefetch descriptor: 512 bytes from 0x1000 to 0x2000. -/
def pfBytes : List Byte :=
  toBytes 8 0x1000 ++ toBytes 8 0x2000 ++ toBytes 8 512 ++ toBytes 8 0x1000 ++ toBytes 8 0x1200 ++ List.replicate 24 0

theorem wit_prefetchIssue :
    dR.prefetch sA 0 = none ∧ dR.executes sA pT (.pfh sA pT m0 1 0 7 true 0 1) ∧
    dR.accessOk 0 0 64 false = true ∧ (pfDesc (({ dR with mem := cellsAt 0 pfBytes } : State).vread 0 0 64)).ok = true ∧
    dR.watchFits 0 sA 0 (pfDesc pfBytes) = true := by
  unfold State.executes
  decide +kernel

/-- The prefetch of that descriptor, issued in beat 0. -/
def pfR : Prefetch :=
  ⟨sA, 0, 0x1000, 0x2000, 512, 0x1000, 0x1200, 0, false, false, 1, 1, some 7, 0, .active, false, false, []⟩

theorem wit_prefetchEvents :
    ({ dR with prefetches := [pfR] } : State).canon = true ∧
    ({ dR with prefetches := [pfR] } : State).prefetch sA 0 = some pfR ∧ dR.pfReach 0 pfR 0 512 = 512 ∧
    ({ dR with prefetches := [pfR] } : State).pfServed 0 pfR = true ∧ dR.entryNext = false ∧
    dR.pfReach 0 { pfR with src := 0x3FFE00, len := 1024 } 0 1024 < 1024 ∧ pfR.deadline ≤ dR.beat + 1 := by
  decide +kernel

theorem wit_collectiveIssue :
    (withImg dR (imgOf [] treePlan)).canon = true ∧
    (withImg dR (imgOf [] treePlan)).executes sA pT (.coll sA pT m0 0 0 0 false) ∧
    ((withImg dR (imgOf [] treePlan)).plan 0).any (fun r => r.kind == 1 &&
      ((withImg dR (imgOf [] treePlan)).collRanges r 0 0).all (fun x => decide (x.1 + x.2 ≤ 2 ^ 48) &&
        (withImg dR (imgOf [] treePlan)).mapped 0 x.1 x.2)) = true ∧ (withImg dR (imgOf [] treePlan)).collBad 0 0 = false := by
  unfold State.executes
  decide +kernel

/-- The step of that plan with nothing to come. -/
def opZ : CollOp := ⟨3, 0, 0, [⟨0, sA, 0, 0, none⟩], [], [], [], [], 4, 4, false, false⟩

theorem wit_collectiveReady :
    (({ withImg dR (imgOf [] treePlan) with colls := [opZ] } : State).circDrainAll.colls.find?
      (fun o => o.id == 3) = some opZ) ∧
    ((withImg dR (imgOf [] treePlan)).plan 0).any (fun r =>
      ({ withImg dR (imgOf [] treePlan) with colls := [opZ] } : State).circDrainAll.collReady r opZ) = true := by
  decide +kernel

theorem wit_gatherStarves :
    (imgPool (withImg dR (imgOf [] poolPlan)).img).isSome = true ∧
    ([(⟨3, 0, 0⟩ : GatherWait)].find? (fun g => g.op == 3)) = some ⟨3, 0, 0⟩ ∧
    0 + 2 ≤ ({ dR with bt := { dR.bt with count := 2 } } : State).beat := by
  decide +kernel

/-! ### Witnesses: matrix and vector -/

theorem wit_stationaryLoad :
    dR.arrayQueue (dR.arrayOf 0) < 2 ∧ dR.executes sA pT (.mload sA pT (tu 64) (tu 0) 0 0 hwN) ∧ dR.clear sA (.mload sA pT (tu 64) (tu 0) 0 0 hwN) [] ∧
    metaBad 0 [] = false ∧ dR.executes sA pT (.mload sA pT (tu 16) (tu 200) 0 2 hwN) ∧
    dR.clear sA (.mload sA pT (tu 16) (tu 200) 0 2 hwN) [] ∧ metaBad 2 (dR.tread 0 (200 * 512) 1024) = false := by
  unfold State.executes State.clear
  decide +kernel

theorem wit_productIssue :
    dRec.canon = true ∧ dRec.executes sA pT (productInstr .dense sA pT fM hwN) ∧
    dRec.clear sA (productInstr .dense sA pT fM hwN) (dRec.productCauses sA .dense fM (dRec.strand sA)) ∧
    (dRec.core 0).stat = some tileZ ∧ dRec.arrayQueue (dRec.arrayOf 0) < 2 := by
  unfold State.executes State.clear
  decide +kernel

/-- The device with a compressed stationary tile. -/
def dSparse : State := dCore { CoreSt.reset with stat := some { tileZ with sparse := 1 }, tile := (dRec.core 0).tile }

theorem wit_productSparse :
    dSparse.executes sA pT (productInstr .sparse sA pT fM hwN) ∧
    dSparse.clear sA (productInstr .sparse sA pT fM hwN) (dSparse.productCauses sA .sparse fM (dSparse.strand sA)) := by
  unfold State.executes State.clear
  decide +kernel

theorem wit_productMulti :
    dRec.executes sA pT (productInstr .multi sA pT { fM with mw := 3, pass := 3 } hwN) ∧
    dRec.clear sA (productInstr .multi sA pT { fM with mw := 3, pass := 3 } hwN)
      (dRec.productCauses sA .multi { fM with mw := 3, pass := 3 } (dRec.strand sA)) := by
  unfold State.executes State.clear
  decide +kernel

/-- The accumulator path leaves the first accumulator of a product wrong. -/
def wrongF : ArrFault := ⟨[], [(0, 0, 1)], [], []⟩

/-- The value that 0 bits stand for. -/
def zV : Fv := .num false 0 (-133)

theorem zero_row : rowVals 0 [] [] = List.replicate 128 zV := by decide +kernel

theorem zero_cells : tileZ.cells = List.replicate 128 (List.replicate 128 (some zV)) := by
  simp [StatTile.cells, tileZ, regionVals, statRows, zero_row, List.map_const']

theorem zero_columns : prodZ.tile.columns prodZ.ts = List.replicate 128 (List.replicate 128 (some zV)) := by
  have e : prodZ.tile.columns prodZ.ts = (List.range 128).map (fun n => tileZ.cells.map (fun r => r.getD n none)) := rfl
  rw [e, zero_cells, List.map_congr_left (g := fun _ => List.replicate 128 (some zV))
    (fun n h => by
      rw [List.map_replicate, List.getD_eq_getElem?_getD, List.getElem?_replicate, if_pos (List.mem_range.1 h)]; rfl), List.map_const', List.length_range]

theorem zero_streamed : prodZ.streamed = [List.replicate 128 zV] := by decide +kernel

theorem zero_dot : accSum 0 (dotTerms 0 (List.replicate 128 zV)
    (List.replicate 128 (some zV))) = some 0 := by decide +kernel

theorem zip_snd {α β γ : Type} (l : List α) (r : List β) (g : β → γ) (h : r.length ≤ l.length) :
    (l.zip r).map (fun e => g e.2) = r.map g := by
  have : (fun e : α × β => g e.2) = g ∘ Prod.snd := rfl
  rw [this, ← List.map_map, List.map_snd_zip h]

theorem zero_sums : prodZ.sums [] 0 = [List.replicate 128 (some 0)] := by
  unfold Product.sums
  have n : prodZ.skips 0 = false := by decide +kernel
  have r : List.range prodZ.rows = [0] := by decide +kernel
  simp only [zero_columns, zero_streamed, r, List.zip_cons_cons, List.zip_nil_left, List.map_cons, List.map_nil, n]
  simp only [Bool.false_eq_true, if_false, List.isEmpty_nil, if_true]
  rw [zip_snd (List.range 128) _ (fun w => (accSum 0 (dotTerms 0 (List.replicate 128 zV) w)).map (fun v => v))
    (by simp), List.map_replicate, zero_dot]
  rfl

theorem zero_attempts : prodZ.attempts [] (List.replicate 1 (List.replicate 128 0)) 3 0 0 = (0, 0, [List.replicate 128 (some 0)]) := by
  have a : prodZ.apply [] 0 (List.replicate 1 (List.replicate 128 0)) = [List.replicate 128 (some 0)] := by
    unfold Product.apply
    rw [zero_sums]
    decide +kernel
  unfold Product.attempts
  simp only [a]
  decide +kernel

theorem row_fails {p : Product} {old vals : List (List W64)} {f : ArrFault} {n : Nat} {a : Int} {acc : List (List (Option Int))}
    (h : p.attempts f.cells old 3 0 p.anchor = (n, a, acc)) (k : p.accRows = p.rows) (w : p.words f acc = vals)
    (l : 0 < p.rows) (u : p.skips 0 = false) (x : (p.streamed.getD 0 []).any (fun v => !v.isFin) = false)
    (e : (old.getD 0 [] ++ vals.getD 0 []).any accExempt = false)
    (d : (accMiss (passSigns p.kind p.mw p.pass).1 (old.getD 0 []) (vals.getD 0 []) ((p.sums f.cells a).getD 0 []) != 0) = true) :
    (p.failing old f).1.isEmpty = false := by
  unfold Product.failing
  rw [h]
  simp only [k, w, if_true]
  rw [List.isEmpty_eq_false_iff_exists_mem]
  refine ⟨0, List.mem_filter.2 ⟨List.mem_filter.2 ⟨List.mem_range.2 l, by rw [u]; rfl⟩, ?_⟩⟩
  simp only [List.flatMap_cons, List.flatMap_nil, List.append_nil, Nat.zero_add, List.any_cons, List.any_nil, x, e, d,
    Bool.or_false, Bool.or_true, Bool.not_false, Bool.and_true]

theorem zero_fails : (prodZ.failing (List.replicate 1 (List.replicate 128 0)) wrongF).1.isEmpty = false := by
  refine row_fails (vals := [1 :: List.replicate 127 0]) (acc := [List.replicate 128 (some 0)]) (h := zero_attempts) (by decide +kernel) (by decide +kernel)
    (by decide +kernel) (by decide +kernel) ?_ (by decide +kernel) ?_
  · rw [zero_streamed]; decide +kernel
  · rw [show wrongF.cells = [] from rfl, zero_sums]; decide +kernel

/-- The check of that product fails, on whatever state. -/
theorem zero_check (s : State) (n : Nat) : (s.checkProduct n prodZ (some wrongF)).isSome = true := by
  have o : s.accOld n prodZ = List.replicate 1 (List.replicate 128 0) := rfl
  simp only [State.checkProduct, o, zero_fails, Bool.false_and, Bool.false_eq_true, if_false, Option.isSome_some]

theorem wit_productCompletes :
    (dCore { CoreSt.reset with prods := [prodZ] }).canon = true ∧
    ((dCore { CoreSt.reset with prods := [prodZ] }).core 0).prods = prodZ :: [] ∧ prodZ.tsx * 512 + 4 ≤ prodZ.tsc * 512 ∧
    prodZ.relievable = true ∧ ((dCore { CoreSt.reset with prods := [prodZ] }).reliefOf prodZ.array).isSome = true ∧
    ({ prodZ with tile := { tileZ with written := true } } : Product).relievable = false := by
  decide +kernel

theorem wit_reliefEnds :
    (dCore { CoreSt.reset with relief := [(1, prodZ)] }).canon = true ∧
    ((dCore { CoreSt.reset with relief := [(1, prodZ)] }).core 0).relief = (1, prodZ) :: [] ∧
    (∀ r ∈ ([] : List (Nat × Product)), r.2.strand ≠ prodZ.strand) := by
  decide +kernel

theorem wit_scaleScan :
    dR.executes sA pT (.mscale sA pT (tu 0) (tu 400) 4 0 false 7 hwN) ∧
    dR.clear sA (.mscale sA pT (tu 0) (tu 400) 4 0 false 7 hwN) [(dR.recordBad 0 400 4, 0x0A)] := by
  unfold State.executes State.clear
  decide +kernel

theorem wit_vectorElementwise :
    dR.executes sA pT (.vadd sA pT fV2 hwN) ∧ dR.vecClear sA fV2 shapeAB false hwN ∧
    dR.executes sA pT (.vmul sA pT fV2 hwN) ∧ dR.executes sA pT (.vmax sA pT { fV2 with func := 1 } hwN) ∧
    dR.vecClear sA { fV2 with func := 1 } shapeAB false hwN ∧ dR.executes sA pT (.vder sA pT { fV2 with func := 6 } hwN) ∧
    dR.vecClear sA { fV2 with func := 6 } shapeAB false hwN ∧ dR.executes sA pT (.vact sA pT { fV with func := 9 } hwN) ∧
    dR.vecClear sA { fV with func := 9 } shapeA false hwN ∧ dR.executes sA pT (.vfma sA pT { fV2 with tsc := tu 32 } hwN) ∧
    dR.vecClear sA { fV2 with tsc := tu 32 } shapeABC false hwN := by
  unfold State.executes State.vecClear
  decide +kernel

theorem wit_vectorRows :
    dR.executes sA pT (.vexp sA pT fV hwN) ∧ dR.vecClear sA fV (shapeExp 0) false hwN ∧
    dR.executes sA pT (.vexp sA pT { fV2 with func := 1 } hwN) ∧ dR.vecClear sA { fV2 with func := 1 } (shapeExp 1) false hwN ∧
    dR.executes sA pT (.vred sA pT { fV with func := 3 } hwN) ∧ dR.vecClear sA { fV with func := 3 } shapeRed false hwN ∧
    dR.executes sA pT (.vscan sA pT { fV with tsb := tu 8 } hwN) ∧
    dR.vecClear sA { fV with tsb := tu 8 } (shapeScan 0) false hwN ∧
    dR.executes sA pT (.vscan sA pT { fV2 with func := 1, tsc := tu 32 } hwN) ∧
    dR.vecClear sA { fV2 with func := 1, tsc := tu 32 } (shapeScan 1) false hwN := by
  unfold State.executes State.vecClear
  decide +kernel

theorem wit_vectorConvert :
    dR.executes sA pT (.vcvt sA pT { fV with ofmt := 0, rnd := 1 } hwN) ∧
    dR.vecClear sA { fV with ofmt := 0, rnd := 1 } shapeA (mxFmt 0) hwN ∧ mxFmt 0 = false ∧
    dR.executes sA pT (.vcvt sA pT { fV with ofmt := 2, tsc := tu 32 } hwN) ∧
    dR.vecClear sA { fV with ofmt := 2, tsc := tu 32 } shapeA (mxFmt 2) hwN ∧ mxFmt 2 = true := by
  unfold State.executes State.vecClear
  decide +kernel

/-! ### Witnesses: attention, pages, routing -/

/-- A forward ABLK of BF16 pages. -/
def iAblk (bwd : Bool) : Instr := .ablk sA pT (tu 0) (tu 128) (tu 1024) 0 0 true true 0x3F80 8 bwd hwN none

theorem wit_attention :
    hwN.clean ∧ dR.executes sA pT (iAblk false) ∧ dR.clear sA (iAblk false) [(false && false, 0x0A)] ∧
    dR.executes sA pT (iAblk true) := by
  unfold State.executes State.clear HwReport.clean
  decide +kernel

/-- The device with valid records of both gradient partials. -/
def dGrad : State :=
  dCore { CoreSt.reset with tile := cellsAt (256 * 512) (toBytes 4 (2 ^ 31)) ++ cellsAt (513 * 512) (toBytes 4 (2 ^ 31)) }

theorem wit_attentionBackward :
    dGrad.canon = true ∧ dGrad.executes sA pT (iAblk true) ∧ dGrad.clear sA (iAblk true)
    [(true && (dGrad.partialBad 0 (128 + 2 * pageTile 0) || dGrad.partialBad 0 (128 + 2 * pageTile 0 + 257)), 0x0A)] := by
  unfold State.executes State.clear
  decide +kernel

theorem wit_attentionSelect :
    dR.executes sA pT (.asel sA pT (tu 0) (tu 64) (tu 256) 3 0 false 256 64 true true true 127 hwN) ∧
    dR.clear sA (.asel sA pT (tu 0) (tu 64) (tu 256) 3 0 false 256 64 true true true 127 hwN)
      [(decide (131072 < 0 + (127 + 1)) || decide (131071 < selQblk (dR.strand sA) 3 0 false) ||
        (!true && ofBytes (dR.tread 0 (256 * 512 + 6) 2) != 0), 0x0A)] := by
  unfold State.executes State.clear
  decide +kernel

/-- A KVAPP of one row at a position. -/
def iKv (pos : BitVec 24) : Instr := .kvapp sA pT (tu 0) (tu 400) 0 0 0 true pos 0 false 0 0 hwN
/-- Its arguments. -/
def kKv (pos : Nat) : KvArgs := ⟨0, 0, 0, true, pos, 1, 0, 0, 400⟩

theorem wit_keyValueAppend :
    dKv.canon = true ∧ kvArgs (dKv.strand sA) (iKv 127) = some (kKv 127) ∧ dKv.executes sA pT (iKv 127) ∧
    dKv.clear sA (iKv 127) [(!(kKv 127).tooLong && dKv.kvBad (kKv 127), 0x0A)] ∧ (dKv.strand sA).kvWait = none ∧
    (kKv 127).tooLong = false ∧ dKv.roots.any (fun e => dKv.kvFrame e.2 (kKv 127)) = true := by
  unfold State.executes State.clear
  decide +kernel

theorem wit_keyValueLong :
    (kvArgs (dKv.strand sA)
      (.kvapp sA pT (tu 0) (tu 400) 0 0 0 true 0xFFFFFF 0 false 1 0 hwN)).any (fun k => k.tooLong) = true ∧
    dKv.clear sA (.kvapp sA pT (tu 0) (tu 400) 0 0 0 true 0xFFFFFF 0 false 1 0 hwN) [(false, 0x0A)] := by
  unfold State.clear
  decide +kernel

/-- The same device with both page frames in quarantine, and its strand waiting for one. -/
def dKvFull : State :=
  { dKv with
    mem := cellsAt 0x8000 (toBytes 8 (2 * 2 ^ 16) ++ toBytes 8 0 ++ toBytes 8 (2 * 2 ^ 16)) ++ dKv.mem
    strands := [(0, { strR with kvWait := some ⟨iKv 127, 0, false⟩ })], bt := { dR.bt with count := 2 } }

theorem wit_keyValueWait :
    dKvFull.canon = true ∧ dKvFull.allocPage = none ∧ 0 + 2 ≤ dKvFull.beat ∧
    (match dKvFull.entry 0 0 with | .frame _ _ _ => true | _ => false) = false ∧
    (({ dKvFull with mem := dKv.mem } : State).roots.any (fun e => ({ dKvFull with mem := dKv.mem } : State).kvFrame e.2 (kKv 127)))
      = true := by
  decide +kernel

theorem wit_routingRank :
    dR.executes sA pT (.rtopk sA pT (tu 0) (tu 64) 3 1 2 0 hwN) ∧ dR.clear sA (.rtopk sA pT (tu 0) (tu 64) 3 1 2 0 hwN) []
    ∧ (rankRow [fone, fzero]).head?.isSome = true := by
  unfold State.executes State.clear
  decide +kernel

/-- A DISP descriptor: one expert, K 1, FORWARD, one round, one member, rows of 32 bytes. -/
def dispBytes : List Byte :=
  toBytes 2 1 ++ [1, 0, 1, 0, 0, 0] ++ toBytes 2 9 ++ toBytes 2 0 ++ toBytes 4 1 ++ List.replicate 8 0 ++ toBytes 4 32 ++
    toBytes 4 0 ++ toBytes 8 0x5000 ++ toBytes 8 0x6000 ++ toBytes 8 0x7000 ++ toBytes 8 0x7100 ++ toBytes 8 0x7200 ++
    toBytes 8 0x7300 ++ toBytes 8 0x7400 ++ List.replicate 40 0

theorem wit_routingDispatch :
    (dMem [(0, dispBytes)]).executes sA pT (.disp sA pT (tu 0) m0 ⟨0, 0, 0, 16⟩ 1 false 1 7) ∧
    firstCause ((dMem [(0, dispBytes)]).dispCauses sA (tu 0) m0 ⟨0, 0, 0, 16⟩ false 1) = none ∧
    (dMem [(0, dispBytes)]).conflict sA (Instr.disp sA pT (tu 0) m0 ⟨0, 0, 0, 16⟩ 1 false 1 7).regions = false ∧
    ((dMem [(0, dispBytes)]).group 0).disps.length < 16 := by
  unfold State.executes
  decide +kernel

/-- A dispatch under way. -/
def dispZ : Dispatch := ⟨sA, 0, (dispHead dispBytes).1, 1, false, 1, 0, 0, 7, 0, [], [], [], [], true, []⟩

theorem wit_routingFull :
    16 ≤ (({ dMem [(0, dispBytes)] with groups := [(0, { GroupSt.reset with disps := List.replicate 16 dispZ })] } :
    State).group 0).disps.length := by
  decide +kernel

theorem wit_routingCombine :
    dR.executes sA pT (.cmb sA pT (tu 0) (tu 64) m0 2 1 8 hwN) ∧ dR.clear sA (.cmb sA pT (tu 0) (tu 64) m0 2 1 8 hwN) [] ∧
    Mop.bad (dR.strand sA) m0 = false ∧ dR.accessOk 0 (0 + 256 * (1 * 2 + 1)) 256 false = true := by
  unfold State.executes State.clear
  decide +kernel

/-! ### Witnesses: engines and services -/

theorem wit_engineUpdate :
    dR.executes sA pT (.upd sA pT m0 8191 65535 9) ∧ Mop.bad (dR.strand sA) m0 = false ∧
    (dR.group (groupOf 0)).jobs.length < 64 := by
  unfold State.executes
  decide +kernel

/-- A PRECON descriptor and the header of its shard: one row, one column, layer 0. -/
def dRoot : State :=
  dMem [(0, toBytes 8 0x10000 ++ toBytes 8 0x20000 ++ toBytes 8 0x30000 ++ [0, 1, 1, 0] ++ toBytes 2 0 ++ toBytes 2 0 ++
      toBytes 4 0x3F800000),
    (0x10000, toBytes 4 0 ++ toBytes 2 3 ++ toBytes 2 0 ++ toBytes 8 32 ++ toBytes 8 0 ++ toBytes 2 1 ++ toBytes 2 32)]
/-- Its descriptor. -/
def dscRoot : PreconDesc := preconDesc (dRoot.vread 0 0 64)

theorem wit_engineRoot :
    dRoot.canon = true ∧ dRoot.executes sA pT (.precon sA pT m0 9 1) ∧
    firstBad (dRoot.preconChecks 0 (dRoot.vread 0 0 64) 1
      (shardBytes 3 (dRoot.shardHead 0 (gen dscRoot.state dRoot.ueStep)).n 1 32)) = none ∧
    (dRoot.shardHead 0 (gen dscRoot.state dRoot.ueStep)).stamp = dRoot.ueStep ∧
    (dRoot.shardHead 0 (gen dscRoot.state dRoot.ueStep)).rule = 3 ∧
    (dRoot.shardHead 0 (gen dscRoot.state dRoot.ueStep)).layer = dscRoot.layer ∧
    (dRoot.shardHead 0 (gen dscRoot.state dRoot.ueStep)).kr = 1 ∧
    dRoot.factorBad 0 dscRoot (dRoot.shardHead 0 (gen dscRoot.state dRoot.ueStep)) = false ∧ (dRoot.group 0).roots = [] := by
  unfold State.executes
  decide +kernel

/-- An INGEST block: one record of 512 bytes to 0x5000. -/
def dIngest : State :=
  dMem [(0, toBytes 8 0x4000 ++ toBytes 8 1 ++ toBytes 8 0x5000 ++ toBytes 4 512 ++ toBytes 4 1 ++ toBytes 4 0 ++ toBytes 4 1)]

theorem wit_engineIngest :
    dIngest.canon = true ∧ dIngest.executes sA pT (.ingest sA pT m0 9) ∧ dIngest.blockBad 0 0 128 = false ∧
    dIngest.ingestBad 0 (ingestArg (dIngest.vread 0 0 128)) = false := by
  unfold State.executes
  decide +kernel

theorem wit_engineFlash :
    dR.executes sA pT (.ckptFlash sA pT m0 9 [⟨0x1000, 0x1000, 512⟩]) ∧ dR.blockBad 0 0 64 = false ∧
    bits (fld (dR.vread 0 0 64) 0 1) 2 6 = 0 ∧ fld (dR.vread 0 0 64) 1 7 = 0 ∧ fld (dR.vread 0 0 64) 16 48 = 0 ∧
    dR.flashReadOnly = none ∧ dR.flashRoom 0 dR.ueStep (dR.inForce [⟨0x1000, 0x1000, 512⟩]) = true := by
  unfold State.executes
  decide +kernel

/-- A CKPT_STORE block with 4 blocks of 512 bytes and key slot 0. -/
def dStore : State :=
  { dMem [(32, toBytes 8 4)] with
    sec := { dR.sec with ctxs := [(0, { ctxR with slots := [(0, some 5)] })] } }

theorem wit_engineStore :
    dStore.canon = true ∧ dStore.executes sA pT (.ckptStore sA pT m0 9 [⟨0x1000, 0x1000, 1024⟩]) ∧
    dStore.blockBad 0 0 128 = false ∧ fld (dStore.vread 0 0 128) 22 1 ≤ 1 ∧ fld (dStore.vread 0 0 128) 23 1 ≤ 7 ∧
    fld (dStore.vread 0 0 128) 40 88 = 0 ∧ (Tab.get none (dStore.ctx 0).slots (fld (dStore.vread 0 0 128) 23 1)).isSome = true ∧
    1 + ((dStore.inForce [⟨0x1000, 0x1000, 1024⟩]).map (fun r => (r.2 + blockSize 0 - 1) / blockSize 0)).sum ≤
      fld (dStore.vread 0 0 128) 32 8 := by
  unfold State.executes
  decide +kernel

theorem wit_enginePost :
    (dMem [(0, toBytes 2 0x0BFF)]).executes sA pT (.postEvent sA pT m0 ⟨9, 4⟩) ∧ dR.executes sA pT (.postEvent sA pT m0 ⟨9, 5⟩) ∧
    (dMem [(0, toBytes 2 0x0BFF)]).blockBad 0 0 16 = false ∧ fld ((dMem [(0, toBytes 2 0x0BFF)]).vread 0 0 16) 2 2 = 0 ∧
    fld ((dMem [(0, toBytes 2 0x0BFF)]).vread 0 0 16) 8 8 = 0 ∧ fld ((dMem [(0, toBytes 2 0x0BFF)]).vread 0 0 16) 0 2 = 0x0BFF ∧
    (dR.core 0).posted < 64 ∧
    64 ≤ (({ dMem [(0, toBytes 2 0x0BFF)] with cores := [(0, { CoreSt.reset with posted := 64 })] } : State).core 0).posted := by
  unfold State.executes
  decide +kernel

/-- A waiting update job with a gate, and a running one. -/
def jobW : UpdJob := ⟨1, sA, 0, 0, 7, 1, 9, .waiting, 0, false⟩
/-- The device with jobs in group 0. -/
def dJobs (l : List UpdJob) : State := { dR with groups := [(0, { GroupSt.reset with jobs := l })] }

theorem wit_updateEnds :
    (dJobs [jobW]).canon = true ∧ jobW ∈ ((dJobs [jobW]).group 0).jobs ∧
    (∀ k ∈ ((dJobs [jobW]).group 0).jobs, k.id = jobW.id → k = jobW) ∧ jobW.target ≠ 0 ∧
    (({ dJobs [jobW] with so := [(7, { SyncObj.reset with status := .fencedRelease })] } : State).obj jobW.gate).status =
      .fencedRelease ∧ (dJobs [{ jobW with phase := .running }]).outstanding (.tee 0 1) = false := by
  decide +kernel

/-- A CARRY descriptor of 32 elements of layout 1, and its shard header. -/
def dUpd : State :=
  { dJobs [{ jobW with target := 0 }] with
    mem := cellsAt 0 ([4, 0, 255, 2] ++ toBytes 4 0 ++ toBytes 8 32 ++ toBytes 8 0 ++ toBytes 8 0x5000 ++ toBytes 8 0x10000 ++
      toBytes 8 0x20000) ++ cellsAt 0x10000 (toBytes 4 0 ++ toBytes 2 1 ++ toBytes 2 0 ++ toBytes 8 32) }
/-- Its descriptor and its header. -/
def dscUpd : UpdDesc := updDesc (dUpd.vread 0 0 192)
/-- The header. -/
def hdUpd : ShardHead := dUpd.shardHead 0 (gen dscUpd.state dUpd.ueStep)

theorem wit_updateStarts :
    dUpd.canon = true ∧ dUpd.gateOpen { jobW with target := 0 } = true ∧
    ((dUpd.group 0).jobs.filter (fun k => k.phase != .waiting)).length < 4 ∧
    (dUpd.group 0).jobs.find? (fun k => k.phase == .waiting && dUpd.gateOpen k) = some { jobW with target := 0 } ∧
    (∀ k ∈ (dUpd.group 0).jobs, k.target ≠ 0 → (dUpd.obj k.gate).status ≠ .fencedRelease) ∧
    firstBad (dUpd.updChecks 0 dscUpd hdUpd.kr hdUpd.kc) = none ∧ headBad dUpd.ueStep dscUpd hdUpd = false ∧
    planesBad dscUpd.lay (dUpd.readPlanes 0 0x10000 (shardPlanes dscUpd.lay dscUpd.n hdUpd.kr hdUpd.kc)) = false ∧
    dscUpd.rule ≠ 3 := by
  decide +kernel

/-- A root computation of a 1 by 1 factor in group 0. -/
def rootR : RootJob := ⟨4, 0, sA, 0, [9], true, 0, 0, 0x30000, false, 0, 0, [], 0, 1, 0, 1, 0x3F800000, 3, .running⟩

theorem wit_rootAttempts :
    ({ dR with groups := [(0, { GroupSt.reset with roots := [rootR] })] } : State).canon = true ∧
    ([rootR].find? (fun q => q.id == rootR.id && q.st == .running)) = some rootR ∧
    (rootAttempt 1 1 (toBytes 4 0x3F800000) fzero 0).1.isSome = true ∧
    (rootAttempt 1 1 (toBytes 4 0x7F800000) fone 0).1.isNone = true := by
  decide +kernel

/-- A checkpoint with nothing left to write. -/
def ckJ : CkptJob := ⟨sA, 9, 1, 0, 0, [], targetAt [] 0, 0, 512, 0, true⟩

theorem wit_checkpointEnds :
    ({ dR with ckptFlash := [ckJ], ckptStore := [ckJ] } : State).canon = true ∧ dR.running = some 0 ∧
    dR.flt.guard = false ∧ ckJ.left = 0 := by
  decide +kernel

/-- Frame 7 in quarantine, frame 8 to be scrubbed, frame 1 moving to frame 9. -/
def dFrames : State :=
  { dR with
    bt := { dR.bt with count := 2 }, frames := [(1, .mapped 0 1), (7, .quarantine 0), (8, .scrub), (9, .mapped 0 1)]
    sec := { dR.sec with ctxs := [(0, { ctxR with maps := [(1, some { mapOf 1 with moving := some (.hbm, 9) })] })] } }

theorem wit_frameEvents :
    dFrames.canon = true ∧ dFrames.frame 7 = .quarantine 0 ∧ 0 + 2 ≤ dFrames.beat ∧ dFrames.frame 8 = .scrub ∧
    dFrames.allMaps.find? (fun e => e.2.2.frame == 1 && e.2.2.moving.isSome) =
      some (0, 1, { mapOf 1 with moving := some (.hbm, 9) }) := by
  decide +kernel

/-- A page move out of HBM frame 0, and HBM frame 0 in quarantine since beat 0. -/
def dMove : State :=
  { dKv with
    pages := { PageUnit.reset with moves := [⟨false, 0, 1, 0, 0⟩] }, bt := { dR.bt with count := 2 }
    mem := cellsAt 0x8000 (toBytes 8 (2 * 2 ^ 16)) ++ dKv.mem }

theorem wit_framePages :
    dMove.canon = true ∧ dMove.roots.isSome = true ∧
    dMove.pages.moves.find? (fun m => m.lpddr == (0 % 2 == 1) && m.src == 0 / 2) = some ⟨false, 0, 1, 0, 0⟩ ∧
    dMove.roots.any (fun e => decide (0 / 2 < e.2.extent (0 % 2))) = true ∧ dMove.quarDue 0 0 = true ∧
    dMove.resolvedBefore 0 0 (dMove.frBeat 0 0) = false ∧
    ({ dMove with pages := { dMove.pages with resolutions := [(0, 0)] } } : State).resolvedBefore 0 0 (dMove.frBeat 0 0) = true := by
  decide +kernel

/-- The ring holds a FREE of block 0 of stream 0, and the doorbell has rung. -/
def dPage : State :=
  { dKv with
    so := [(7, { SyncObj.reset with count := 1 })]
    mem := dKv.mem ++ cellsAt 0xA000 ([2, 0] ++ toBytes 2 9 ++ toBytes 4 0 ++ toBytes 4 0 ++ toBytes 4 0 ++ toBytes 4 1) }

theorem wit_pageCommands :
    dPage.canon = true ∧ dPage.get Reg.KVP_CMD_CONS_K = 0 ∧ dPage.roots.any (fun e => decide (0 < e.2.ringN) &&
    decide (0 < (dPage.obj e.2.doorbell).count.toNat) && (ringRow (dPage.ringRec 0 e.2 0).op).isSome &&
    !dPage.badRecord e.2 (dPage.ringRec 0 e.2 0) && (dPage.ringRec 0 e.2 0).op == 2) = true ∧ (ringRow 1).isSome = true ∧
    (ringRow 3).isSome = true ∧ dKv.roots.any (fun e => dKv.badRecord e.2 ⟨1, 9, 0, 1, 1, 1⟩) = true := by
  decide +kernel

/-! ### Witnesses: faults, beat, boundaries, temperature -/

/-- A strand that overruns. -/
def strO : Strand := { strR with overrun := true, overBeats := 16 }

theorem wit_faultEvents :
    dR.canon = true ∧ dR.running.isSome = true ∧ dR.step.active = true ∧ (dev strO).canon = true ∧
    max 8 ((dev strO).get Reg.FLT_CFG_HANG) ≤ ((dev strO).strand sA).overBeats ∧ (dev strO).flt.selfCause = none ∧
    (dev strO).flt.fencedSelf = false ∧ dR.owes (dR.strand sA) = true ∧ (dR.strand sA).beatReq = false := by
  decide +kernel

theorem wit_faultSampled :
    ((List.range 8).any (fun c => (List.range 4).any (fun k => (List.range 2).any (fun g => dR.sampled ⟨Fin.ofNat 96 c, Fin.ofNat 4 k⟩ g)))) = true := by
  decide +kernel

theorem wit_faultPolicy :
    imgOvrFault dR.img = false ∧ dR.bt.runStretch < dR.stretchLimit ∧
    imgOvrFault (withImg dR (List.replicate 7 0 ++ [4])).img = true ∧ dR.stretchLimit ≤
      ({ dR with bt := { dR.bt with runStretch := 4 } } : State).bt.runStretch := by
  decide +kernel

/-- A device that acquires the beat for 4,096 beats, 16 of them good. -/
def dAcq : State := { dR with bt := { dR.bt with st := .acquire, lockRun := 16, acquireBeats := 4096 } }

theorem wit_beatAcquire :
    dAcq.canon = true ∧ dAcq.bt.st = .acquire ∧ 16 ≤ dAcq.bt.lockRun ∧ 4096 ≤ dAcq.bt.acquireBeats ∧
    dAcq.svc.mbox.job = none := by
  decide +kernel

/-- A silent peer, node `n`. -/
def peerS (n : BitVec 15) : Peer := ⟨n, true, true, 0, false, false, 1, 1, false, false, 0, false, false, []⟩
/-- A device in its guard with eight silent peers, a started job and a late join. -/
def dSil : State :=
  { dR with
    bt := { dR.bt with inGuard := true, offHighRun := 2
                       peers := (List.range 8).map (fun k => (k, some (peerS (BitVec.ofNat 15 (k + 1))))) }
    svc := { Svc.reset with mbox := { Mbox.reset with st := .busy, job := some (.jobStart 0 3) } }
    sec := { dR.sec with ctxs := [(0, { ctxR with job := some ⟨0, none, .fresh, 0, none, false, false, false, false⟩ })] } }

theorem wit_beatSilence :
    dSil.canon = true ∧ dSil.bt.usable = false ∧ dSil.bt.refNode ≠ some (BitVec.ofNat 15 dSil.node) ∧
    dSil.peer 7 = some (peerS 8) ∧ 8 ≤ dSil.lostPeers ∧ dSil.bt.st ≠ .detached ∧ 2 ≤ dSil.bt.offHighRun ∧
    dSil.portOf 8 = some 7 ∧ dSil.watching = true ∧ dSil.isFenced 8 = false ∧ 8 ∉ dSil.flt.proposed ∧
    (dSil.ctx 0).job.any (fun j => decide (j.startBeat ≤ dSil.beat + 16) && !j.late) = true := by
  decide +kernel

/-- A stretch request for this beat. -/
def dStr : State := { dR with bt := { dR.bt with stretches := [⟨0, 3, false, false⟩] } }

theorem wit_guard :
    dStr.canon = true ∧ dStr.stretchNow = some ⟨0, 3, false, false⟩ ∧ dStr.bt.stretched = false ∧ dStr.fenceWindow = false ∧
    dR.stretchNow = none ∧ dR.bt.inGuard = false ∧ ({ dR with flt := { dR.flt with selfCause := some 11 } } : State).canon = true := by
  decide +kernel

/-- The device in its guard. -/
def dG (f : FltUnit) (sec : SecUnit) (step : StepUnit) : State :=
  { dR with bt := { dR.bt with inGuard := true }, flt := f, sec := sec, step := step }
/-- A job that starts at beat 1. -/
def jobN : Job := ⟨0, none, .fresh, 1, none, false, false, false, false⟩
/-- The step ends with its verdict here. -/
def stepE : StepUnit := { dR.step with beats := 1, reduced := some 0 }

theorem wit_boundaries :
    (boundaryRow 900 .beat).isSome = true ∧ (dG dR.flt dR.sec dR.step).boundaryKind = some .beat ∧
    (dG dR.flt dR.sec stepE).boundaryKind = some .stepEnd ∧
    (dG { dR.flt with due := [(5, 1)] } dR.sec dR.step).boundaryKind = some .fence ∧
    (dG dR.flt { dR.sec with run := none, switching := some (1, 1) } dR.step).boundaryKind = some .switchEnd ∧
    (dG dR.flt { dR.sec with run := none, ctxs := [(0, { ctxR with job := some jobN })] } dR.step).boundaryKind = some .firstEntry ∧
    (dG { dR.flt with removal := 2 } dR.sec dR.step).boundaryKind = some .fence := by
  decide +kernel

theorem wit_boundaryStepEnd :
    (dG dR.flt dR.sec stepE).canon = true ∧ (dG dR.flt dR.sec stepE).atStepEnd = true ∧
    (dG dR.flt dR.sec stepE).coresDue = false ∧ actionOf 0 ≠ .replay ∧ (dG dR.flt dR.sec stepE).spareWaiting = none := by
  decide +kernel

theorem wit_thermal :
    dR.canon = true ∧ 16 ≤ Tab.get 0 ({ dR with hotBeats := [(7, 16)] } : State).hotBeats 7 ∧
    throttleLevel 95 95 ≠ 0 ∧ ({ dR with pins := { Pins.reset with rails := true } } : State).pins.rails = true ∧
    0 < dR.get Reg.MT_FTL_SPARE_BLOCKS 2 - 0 + 1 := by
  decide +kernel

/-! ### Witnesses: frames and connections -/

/-- A frame of node 5 on connection 2. -/
def hdr5 : Hdr := ⟨3, 5, 2, 0, 0, 0, 0, true, true⟩

theorem wit_dataFrames :
    dNet.canon = true ∧ dNet.rxNextFrame hdr5 ∧ dKv.roots.isSome = true ∧
    (withImg dNet (imgOf [] treePlan)).rxNextFrame hdr5 ∧ ((withImg dNet (imgOf [] treePlan)).plan 0).isSome = true ∧
    (withImg dNet (imgOf [] treePlan)).coll 0 0 = none ∧
    (({ withImg dNet (imgOf [] treePlan) with colls := [opZ] } : State).coll 0 0).isSome = true ∧
    (withImg dNet (imgOf rootsSec [])).rxNextFrame hdr5 ∧ (withImg dNet (imgOf rootsSec [])).roots.isSome = true := by
  unfold State.rxNextFrame
  decide +kernel

theorem wit_refusedFrames :
    ({ hdr5 with auth := false } : Hdr).auth = false ∧ (dNet.conn 2).opened = true ∧
    (dNet.conn 2).authFails + 1 < 16 ∧ dNet.rxConn { hdr5 with dgen := 1 } = none ∧ dNet.rxConn hdr5 = some 2 ∧
    ({ dNet with sec := { dNet.sec with run := none } } : State).running ≠ some (dNet.conn 2).ctx ∧
    ({ hdr5 with epoch := 1 } : Hdr).epoch.toNat ≠ (dNet.ctx 0).entries % 256 ∧
    ({ dNet.conn 2 with rxNext := 1 } : Conn).seen 0 = true := by
  decide +kernel

/-- A count frame of two members, and one that differs. -/
def cntF : CountFrame := ⟨9, 0, 2, 0, 1, 1, 1, 1, 0, 1, 32, 0x1000, 0x2000, 0x3000, 7, [(0, 1)]⟩

theorem wit_routingCounts :
    (⟨cntF, 0, [], [], false, 0, false⟩ : HolderDisp).mismatch cntF = false ∧
    (([] : List (Nat × CountFrame)) ++ [(5, cntF)]).countP (fun (e : Nat × CountFrame) => e.2.round == 0) < cntF.members ∧
    (({ dNet with groups := [(9, { GroupSt.reset with holders := [⟨cntF, 0, [], [], false, 0, false⟩] })] } : State).holder 9).isSome =
      true ∧ (dNet.holderFor cntF).mismatch cntF = false ∧
    (⟨cntF, 0, [], [], false, 0, false⟩ : HolderDisp).mismatch { cntF with cap := 2 } = true := by
  decide +kernel

/-- A dispatch that waits for the grants of nodes 5 and 6, and a strand that waits for a page. -/
def dWait : State :=
  { withImg dNet (imgOf rootsSec []) with
    groups := [(0, { GroupSt.reset with disps := [{ dispZ with waitHolders := [5, 6] }] })]
    strands := [(0, { strR with st := .parkNarrow, held := some ⟨.ldt sA pT (tu 0) m0 1 2 hwN, [(3, 0), (4, 1)], [], [], []⟩ })] }

theorem wit_routingWaits :
    dWait.canon = true ∧ dWait.rxNextFrame hdr5 ∧
    (dWait.allDisps.find? (fun e => e.2.head.did == 9 && e.2.head.pos == 0 && e.2.head.dir == 0 && e.2.round == 0
      && e.2.waitHolders.contains 5)).isSome = true ∧ ([5, 6] : List Nat).erase 5 ≠ [] ∧ dWait.tagOwner 3 = some sA ∧
    dWait.roots.isSome = true ∧ (dWait.strand sA).held.isSome = true ∧
    ([(3, 0), (4, 1)] : List (Nat × Nat)).filter (fun e => e.1 != 3) ≠ [] := by
  unfold State.rxNextFrame
  decide +kernel

/-- A device whose connection 3 opens to node 6. -/
def dOpen : State := { dNet with conns := dNet.conns ++ [(3, { Conn.reset with pendingOpen := true, peer := 6 })] }

theorem wit_connectionFrames :
    dNet.rxControlOk hdr5 ∧ dNet.flt.selfCause = none ∧ (dNet.ctx 0).st ≠ .free ∧ dNet.connOf 0 6 = none ∧
    dNet.freeConn = some (0, false) ∧ dNet.waitSends = [] ∧
    dNet.portFor (controlFrame 0x0A 5 0 0 0) = some 3 ∧ dNet.portFor (controlFrame 0x08 5 0 0 0) = some 3 ∧ dOpen.canon = true ∧ (dOpen.conn 3).pendingOpen = true ∧
    (dOpen.conn 3).peer = 6 ∧ dOpen.isFenced 6 = false := by
  unfold State.rxControlOk
  decide +kernel

/-- A packet not yet acknowledged, sent again `k` times. -/
def pkt (k : Nat) : Packet := ⟨dataFrame 0x01 5 0 0 true [], .none, k, false⟩

theorem wit_connectionTimers :
    ({ dNet.conn 2 with ackDue := 1 } : Conn).opened = true ∧
    [pkt 0].find? (fun p => p.frame.psn == 0) = some (pkt 0) ∧ dNet.portAgain (pkt 0).frame = some 3 ∧
    ({ dNet with ports := [] } : State).portAgain (pkt 0).frame = none ∧ (pkt 0).tries < max 1 (dNet.get Reg.FAB_CFG_RETX_MAX) ∧
    max 1 (dNet.get Reg.FAB_CFG_RETX_MAX) ≤ (pkt 7).tries ∧
    ({ dNet with conns := [(2, { dNet.conn 2 with ackDue := 1, unacked := [pkt 7] })] } : State).canon = true := by
  decide +kernel

theorem wit_portEvents :
    dNet.canon = true ∧ 8000 - 4000 ≤ 4096 ∧
    ({ dNet with ports := [(3, { Port.reset with link := true, lock := 15 })] } : State).portGood 3 = true ∧
    131072 ≤ Port.reset.clean := by
  decide +kernel

/-- The management node is 5 and IP is on. -/
def dMgmt : State :=
  { (((dNet.put Reg.FAB_IP_CFG_EN 1).put Reg.FAB_MGMT_EN 1).put Reg.FAB_MGMT_NODE 5) with
    pins := { Pins.reset with stage2 := true } }

theorem wit_networkFrames :
    dMgmt.canon = true ∧ dMgmt.flag Reg.FAB_IP_CFG_EN = true ∧ dMgmt.flag Reg.FAB_MGMT_EN = true ∧
    dMgmt.get Reg.FAB_MGMT_NODE = hdr5.snode.toNat ∧ dMgmt.portFor (controlFrame 0x0E 5 0 0 0) = some 3 ∧ dMgmt.session 5 none = none ∧ dMgmt.isFenced 5 = false ∧
    dNet.flag Reg.FAB_MGMT_EN = false := by
  decide +kernel

/-- A marker without notices. -/
def mk0 : Marker := ⟨0, 0, 1, 0, 2, 2, 5, 0, false, false, none, [], 0, 0, 6400⟩
/-- A device with a peer that acquires the beat from reference 1. -/
def dMk (st : BeatSt) : State :=
  { dNet with bt := { dNet.bt with st := st, refNode := some 1, peers := [(3, some { peerS 5 with heart := 4 })] } }

theorem wit_markers :
    (dMk .acquire).canon = true ∧ (dMk .acquire).peer 3 = some { peerS 5 with heart := 4 } ∧
    (dMk .acquire).isFenced 5 = false ∧ mk0.period = (dMk .acquire).bt.sel ∧ (mk0.elapsed.toNat - mk0.turn.toNat) / 2 ≤ 3200 ∧
    ({ mk0 with period := 1 } : Marker).period ≠ (dMk .acquire).bt.sel ∧ (dMk .acquire).bt.heardAny = false ∧
    mk0.refNode ≠ BitVec.ofNat 15 (dMk .acquire).node := by
  decide +kernel

theorem wit_markerNotices :
    ({ dMk .locked with bt := { (dMk .locked).bt with inGuard := true } } : State).guardBegun 0 = true ∧
    (dMk .locked).bt.stretches.any (fun n => n.beat == 0) = false ∧ (0 : BitVec 15).toNat = (dMk .locked).node ∧
    (dMk .locked).flt.notices.any (fun h => h.notice == ⟨0, 3, 0⟩ && h.sender == 5) = false := by
  decide +kernel

/-- A join of context 0 whose formation is not yet done. -/
def dForm : State :=
  { dR with
    svc := { Svc.reset with mbox := { Mbox.reset with st := .busy, job := some (.jobStart 0 1) } }
    sec := { dR.sec with ctxs := [(0, { ctxR with image := some (imgOf [] treePlan)
                                                  job := some ⟨0, none, .fresh, 0, none, false, false, false, false⟩ })] } }

theorem wit_formation :
    dForm.canon = true ∧ dForm.joining.any (fun e => decide (e.2.1 < 4)) = true ∧
    (dForm.ctx 0).job.any (fun j => (dForm.formationDiff 0 j ⟨1, 0, 0, 0, 2, 0⟩).isSome) = true ∧
    (dForm.ctx 0).job.any (fun j => (dForm.formationDiff 0 j ⟨0, 0, 0, 0, 2, 0⟩).isNone) = true := by
  decide +kernel

/-! ### Witnesses: mailbox, contexts, keys -/

/-- The device while a mailbox command runs. -/
def busy (s : State) (j : MboxJob) : State := { s with svc := { s.svc with mbox := { Mbox.reset with st := .busy, job := some j } } }

theorem wit_mailboxProtocol :
    dReady.canon = true ∧ (0x23, Instr.spareJoin .pcie 5) ∈ mailboxRows .pcie 5 ∧
    ({ dReady with pins := Pins.reset } : State).live .pcie = false ∧ (busy dReady .summary).live .mgmt = true ∧
    (busy dReady .summary).svc.mbox.st = .busy ∧ dReady.mboxFree .pcie ∧ dReady.mboxFree .mgmt ∧ dReady.mboxFree .smbus := by
  unfold State.mboxFree
  decide +kernel

theorem wit_mailboxUnusable :
    ({ dReady with svc := { dReady.svc with st := .unusable } } : State).svc.st = .unusable ∧
    fld ({ dReady with svc := { dReady.svc with st := .unusable } } : State).args 24 1 ≤ 7 := by
  decide +kernel

theorem wit_mailboxServices :
    dReady.mboxFree .pcie ∧ dReady.bt.st = .detached ∧ dReady.svc.st = .ready ∧ dReady.noContext = true ∧
    ({ dReady with bt := dR.bt } : State).bt.st ≠ .detached := by
  unfold State.mboxFree
  decide +kernel

/-- Context 1 LOADED, whose image can be loaded to and whose job can start. -/
def dStart : State :=
  { (dArgs [(0, 1), (1, 0x200000), (2, 512)]).put Reg.FAB_NODE_VALID 1 with
    sec := { SecUnit.reset with ctxs :=
      [(1, { ctxR with st := .loaded, image := some (imgOf [] treePlan), maps := [(1, some (mapOf 1))] })] } }

theorem wit_mailboxStart :
    dStart.canon = true ∧ dStart.mboxFree .pcie ∧ ctxArg dStart.args = (1, false) ∧ dStart.idleCtx 1 = true ∧
    fld dStart.args 1 1 ≤ 1 ∧ fld dStart.args 2 1 = 0 ∧ fld dStart.args 8 8 % 512 = 0 ∧
    dStart.mapsRange 1 (fld dStart.args 8 8) (fld dStart.args 16 8) = true ∧ dStart.mayStart 1 = true ∧
    dStart.svc.recBad = false ∧ dStart.beatHeld = false := by
  unfold State.mboxFree
  decide +kernel

theorem wit_mailboxLeave :
    ({ dStart with svc := { dStart.svc with st := .running } } : State).svc.st = .running ∧
    (({ dStart with sec := { dStart.sec with ctxs := [(1, { ctxR with job := some jobN })] } } : State).ctx 1).job = some jobN := by
  decide +kernel

theorem wit_serviceEnds :
    (busy dReady (.test true)).canon = true ∧ (busy dReady (.imageLoad 1 0x200000 512 true)).svc.mbox.job =
      some (.imageLoad 1 0x200000 512 true) ∧ (busy dStart (.jobStart 1 4)).canon = true ∧
    shardSkew 0 [] = none ∧ dR.running = some 0 ∧ ({ dR with flt := { dR.flt with map := { dR.flt.map with derive := true } } } : State).flt.map.derive = true ∧
    dR.flt.map.derive = false := by
  decide +kernel

theorem wit_imageFault :
    ((busy dStart (.imageLoad 1 0x200000 512 true)).loadFault 1 []).isSome = true := by
  decide +kernel

theorem wit_contextCreate :
    dReady.mboxFree .pcie ∧ dReady.svcUp = true ∧ ctxArg (dArgs [(1, 0x600000)]).args = (0, false) ∧
    ((dArgs [(1, 0x600000)]).ctx 0).st = .free ∧ fld (dArgs [(1, 0x600000)]).args 8 8 = 0x600000 ∧
    ((dArgs [(1, 0x600000)]).frame 3).taken = false ∧ fld (dArgs [(1, 0x600000)]).args 1 1 < 2 ∧
    fld (dArgs [(1, 0x600000)]).args 2 1 < 16 ∧ argsDirty (dArgs [(1, 0x600000)]).args [(0, 3), (8, 8)] = false := by
  unfold State.mboxFree
  decide +kernel

/-- A mapping of one frame at 0x400000 is asked for, with the beat running. -/
def dMap : State := { dArgs [(0, 1), (1, 0x400000), (2, 1)] with bt := dR.bt }

theorem wit_contextMap :
    dMap.canon = true ∧ dMap.mboxFree .pcie ∧ ctxArg dMap.args = (1, false) ∧ (dMap.ctx 1).st ≠ .free ∧
    fld dMap.args 8 8 = 0x400000 ∧ fld dMap.args 16 4 = 1 ∧ fld dMap.args 1 1 = 0 ∧ dMap.supply false ≥ 1 ∧
    (dMap.ctx 1).covers 2 1 = false ∧ baseBad 0x400000 1 = false ∧ argsDirty dMap.args [(0, 2), (8, 12)] = false ∧
    argsDirty dMap.args [(0, 1), (8, 12)] = false ∧ dMap.bt.st ≠ .detached ∧ 0x400000 / frameBytes < viewStart := by
  unfold State.mboxFree
  decide +kernel

theorem wit_contextSwitch :
    argsDirty (dArgs [(0, 1), (1, 7)]).args [(0, 1), (8, 8)] = false ∧
    argsDirty (dArgs [(0, 1)]).args [(0, 1)] = false ∧ (dArgs [(0, 1)]).running ≠ some 1 ∧
    (dArgs [(0, 1)]).sec.switching.any (fun w => w.1.val == 1) = false ∧
    ({ dArgs [(0, 1)] with sec := { (dArgs [(0, 1)]).sec with run := some 1 } } : State).running = some 1 := by
  decide +kernel

theorem wit_keyImport :
    ctxArg (dArgs [(0, 0x0701)]).args = (1, false) ∧ fld (dArgs [(0, 0x0701)]).args 1 1 = 7 ∧
    argsDirty (dArgs [(0, 0x0701)]).args [(0, 2), (16, 144)] = false ∧
    (match (dArgs [(0, 0x0701)]).importKey 1 7 (List.replicate 144 0) with | .error e => e == 1 | .ok _ => false) = true ∧
    argsDirty (dArgs [(0, 1), (2, 9)]).args [(0, 1), (16, 64)] = false := by
  decide +kernel

/-- Context 1 with its ephemeral key of a report. -/
def dEph : State :=
  { dArgs [(0, 0x0701)] with sec := { SecUnit.reset with ctxs := [(1, { ctxR with st := .loaded, ephemeral := some (3, 0, false) })] } }

/-- A key imports where the cryptography unwraps it (log 12). -/
theorem wit_keyImported (key : BitVec 256)
    (h : Config.unwrapKey 3 (List.replicate 144 0 ++ toBytes 1 1 ++ toBytes 1 7 ++ toBytes 64 0) = some key) :
    dEph.importKey 1 7 (List.replicate 144 0) = .ok key := by
  have e : (dEph.ctx 1).ephemeral = some (3, 0, false) := by decide +kernel
  have f : (Tab.get none (dEph.ctx 1).slots 7).isSome = false := by decide +kernel
  have z : (0 : BitVec 512).toNat = 0 := BitVec.toNat_zero
  simp only [State.importKey, e, z, h, f]
  rfl

/-- Context 1 with a sealed key of its image. -/
def dSeal : State :=
  { dReady with
    svc := { dReady.svc with blobs := [(2, some (BitVec.ofNat 384 (ofBytes (imgDigestField (imgOf [] []))), 5, 77))] }
    sec := { SecUnit.reset with ctxs :=
      [(1, { ctxR with image := some (imgOf [] []), sealedSlot := some 2, slots := [(0, some 5)] })] } }

theorem wit_unseal :
    dSeal.canon = true ∧ (dSeal.ctx 1).sealedSlot = some 2 ∧ (dSeal.ctx 1).image = some (imgOf [] []) ∧
    Tab.get none (dSeal.ctx 1).slots 0 = some 5 ∧
    Tab.get none dSeal.svc.blobs 2 = some (BitVec.ofNat 384 (ofBytes (imgDigestField (imgOf [] []))), 5, 77) ∧
    Tab.get none dReady.svc.blobs 2 = none := by
  decide +kernel

/-! ### Witnesses: registers, debug, power -/

theorem wit_reservedBits :
    dReady.canon = true ∧ (0x010008 : BitVec 24).toNat % 8 = 0 ∧ reservedBit 0x010008 63 ∧ reservedBit 0x010008 2 ∧
    ¬ reservedBit 0x010008 1 ∧ inRing 0x0FFFF8 = false ∧ fieldsAt (aliasOf 0x0FFFF8) = [] ∧ dReady.live .pcie = true := by
  unfold reservedBit
  decide +kernel

theorem wit_period :
    dReady.bt.st = .detached ∧ (1 : W64).setWidth 2 ≠ (3 : BitVec 2) ∧ dR.bt.st ≠ .detached ∧
    (7 : W64).setWidth 2 = (3 : BitVec 2) := by
  decide +kernel

theorem wit_registerWindow :
    dReady.live .pcie = true ∧ dReady.pins.stage2 = true ∧ dReady.bt.st = .detached ∧ dR.bt.st ≠ .detached ∧
    dReady.running = none ∧ imgHasMode dR.img 1 = false ∧
    (0x23, Instr.spareJoin .pcie 5) ∈ mailboxRows .pcie 5 ∧ (0x8000000000000523 : W64).getLsbD 63 = true ∧
    (0x8000000000000523 : W64).toNat % 2 ^ 8 = 0x23 ∧ BitVec.ofNat 8 ((0x8000000000000523 : W64).toNat / 2 ^ 8) = 5 := by
  decide +kernel

theorem wit_ringRead : (let s := dReady.event 0x0B03 1; s.svc.ring[s.ringPlace 0]?.isSome) = true := by decide +kernel

theorem wit_debug :
    (dR.ctx 0).st ≠ .free ∧ ((dR.put Reg.DBG_CTRL_SPACE 3).dbgBad) = true ∧ (dR.put Reg.DBG_CTRL_SPACE 1).dbgBad = false ∧
    (dR.put Reg.DBG_CTRL_SPACE 1).get Reg.DBG_CTRL_SPACE = 1 ∧ dR.dbgBad = false ∧ dR.get Reg.DBG_CTRL_SPACE = 0 := by
  decide +kernel

theorem wit_power :
    State.reset.pins.stby = false ∧ ({ dReady with pins := { Pins.reset with stby := true } } : State).pins.stage2 = false ∧
    ({ dReady with pins := { dReady.pins with seated := true } } : State).pins.seated = true ∧ dReady.pins.seated = false ∧
    dReady.svc.best = none ∧ (4400 : BitVec 16).toNat = 4400 ∧ (5800 : BitVec 16).toNat ≤ 5800 := by
  decide +kernel

/-- The device at the end of self-test: every slice but `out` has passed. -/
def dBist (out : List Nat) : State :=
  { dReady with
    svc := { dReady.svc with st := .bist, bist := ⟨(List.range 113).filter (fun k => !out.contains k), [], out, []⟩ } }

theorem wit_selfTest :
    (dBist []).canon = true ∧ (dBist []).bistOver = true ∧ (dBist [5]).bistOver = true ∧
    (dBist [5]).svc.bist.failed.any (fun k => decide (108 ≤ k)) = false ∧
    (dBist [112]).svc.bist.failed.any (fun k => decide (108 ≤ k)) = true ∧ (dBist []).sliceRuns 112 = true ∧
    ({ dBist [] with svc := { (dBist []).svc with bist := ⟨[], [112], [], []⟩ } } : State).svc.bist.once = [112] ∧
    (dBist []).unionRecord.retired = [] := by
  decide +kernel

theorem wit_supply :
    dReady.pins.rails = true ∧ (4299 : BitVec 16).toNat < 4300 ∧ 4400 < (4401 : BitVec 16).toNat ∧
    (3999 : BitVec 16).toNat < 4000 ∧ 5800 < (5801 : BitVec 16).toNat ∧ 6000 < (6001 : BitVec 16).toNat ∧
    ({ dR with flt := { dR.flt with guard := true } } : State).flt.guard = true ∧
    ({ dReady with pins := { dReady.pins with pathOn := true } } : State).pins.pathOn = true ∧ 10000 < 10001 := by
  decide +kernel

/-- A running job and a failed node. -/
def dJob : State :=
  { dR with
    pins := dReady.pins, flt := { dR.flt with map := { FaultMap.reset with failed := [⟨9, 0, none, none, none⟩] } }
    sec := { dR.sec with ctxs := [(0, { ctxR with job := some jobN })] } }

theorem wit_removal :
    dReady.flt.removal = 0 ∧ dReady.anyJob = false ∧ dJob.canon = true ∧ dJob.anyJob = true ∧
    dJob.flt.map.failed ≠ [] ∧ ({ dReady.flt with removal := 1 } : FltUnit).removal = 1 ∧ dReady.flashWrites = false ∧
    dReady.svc.writeTo = [] ∧ dReady.pins.okSteady = false ∧ ({ dReady.pins with forced := true } : Pins).forced = true ∧
    ({ dR with ckptFlash := [ckJ] } : State).flashWrites = true := by
  decide +kernel

/-- On a module with two devices a request is refused (R560). -/
theorem wit_removalTwin (n : Nat) (h : Config.twinOf dJob.node = some n) : dJob.isD2 = true := by
  simp only [State.isD2, h]; rfl

/-! ### Witnesses: encoding and completion -/

theorem wit_decodeEncode :
    (Instr.mmul ⟨95, 3⟩ ⟨7, true⟩ fM hwN).bare ⟨95, 3⟩ = some (.mmul ⟨95, 3⟩ ⟨7, true⟩ fM noReport) ∧
    decode sA (encode (.mmul sA ⟨7, true⟩ fM hwN)) = some (.mmul sA ⟨7, true⟩ fM noReport) := by
  decide +kernel

theorem wit_everyCommand : (Instr.nop sA).wf = true ∧ (Instr.skip sA pT 0).wf = false := by decide +kernel

/-! ### Witnesses: further clauses -/

theorem wit_prefetchStopped :
    ({ dR with prefetches := [{ pfR with st := .waiting, src := 0x3FFE00, len := 1024 }] } : State).prefetch sA 0 =
      some { pfR with st := .waiting, src := 0x3FFE00, len := 1024 } ∧
    ({ dR with bt := { dR.bt with inGuard := true } } : State).entryNext = false := by
  decide +kernel

/-- A gather of two members into entry 0 of a pool. -/
def gatherPlan : List Byte :=
  toBytes 2 3 ++ [0, 0] ++ toBytes 4 48 ++ List.replicate 8 0 ++
    (toBytes 2 0 ++ [0, 0] ++ toBytes 4 512 ++ toBytes 8 0x5000 ++ toBytes 8 0x6000 ++ toBytes 2 2 ++ List.replicate 6 0 ++
      toBytes 2 0 ++ toBytes 2 5 ++ List.replicate 12 0)
/-- The networked device with that plan, its pool, and the entry in a state. -/
def dPool (st : Byte) (ops : List CollOp) : State :=
  { withImg dNet (imgOf [] (gatherPlan ++ poolPlan)) with mem := cellsAt 0x4000 [st], colls := ops }
/-- A gather under way. -/
def opG : CollOp := ⟨3, 0, 0, [⟨0, sA, 0, 0, none⟩], [], [], [], [], 0, 1024, false, false⟩

theorem wit_collectivePool :
    (dPool 0 []).canon = true ∧ (dPool 0 []).executes sA pT (.coll sA pT m0 0 0 7 true) ∧
    ((dPool 0 []).plan 0).any (fun r => r.kind == 3 && ((dPool 0 []).collRanges r 0 0).all (fun x =>
      decide (x.1 + x.2 ≤ 2 ^ 48) && (dPool 0 []).mapped 0 x.1 x.2)) = true ∧ (dPool 0 []).collBad 0 0 = false ∧
    (dPool 0 []).filling 0 = none ∧ (dPool 0 [opG]).filling 0 = some opG ∧
    (imgPool (dPool 0 []).img).any (fun p => p.etab % 32 == 0 && (dPool 0 []).poolState p 0 != 2 &&
      (dPool 2 []).poolState p 0 == 2) = true := by
  unfold State.executes
  decide +kernel

theorem wit_collectiveStarves :
    ({ dPool 0 [{ opG with waiting := true }] with
      gathers := [⟨3, 0, 0⟩], bt := { dR.bt with count := 2 } } : State).gathers.find? (fun g => g.op == 3) = some ⟨3, 0, 0⟩ ∧
    (dPool 0 [{ opG with waiting := true }]).colls.find? (fun o => o.id == 3) = some { opG with waiting := true } := by
  decide +kernel

theorem wit_poolLanding :
    (dPool 0 [opG]).rxNextFrame hdr5 ∧ (dPool 0 [opG]).coll 0 0 = some opG ∧
    ((dPool 0 [opG]).plan 0).any (fun r => r.kind == 3) = true ∧ (imgPool (dPool 0 [opG]).img).isSome = true ∧
    (∀ q ∈ imgPlans (dPool 0 [opG]).img, q.kind ≠ 4) ∧ (1, 64) ∉ opG.seen := by
  unfold State.rxNextFrame
  decide +kernel

theorem wit_resultHeld :
    (withImg dNet (imgOf [] treePlan)).collHeld = [] ∧ ({ dNet with collHeld := [] } : State).collHeld = [] := by
  decide +kernel

/-- A device whose row has one claim of an expert, at unit 64, and a dispatch descriptor of a direction, with expert 0 at
node 5. -/
def dDisp (dir : Byte) : State :=
  { dNet with
    cores := [(0, { CoreSt.reset with tile := cellsAt (64 * 512) (toBytes 2 0x8000) })]
    mem := cellsAt 0 (dispBytes.take 3 ++ [dir] ++ (dispBytes.drop 4).take 20 ++ [0, 1] ++ dispBytes.drop 26) ++ cellsAt 0x7300 [5] }
/-- Its DISP. -/
def iDisp : Instr := .disp sA pT (tu 64) m0 ⟨0, 0, 0, 16⟩ 1 false 1 7
/-- The header of its descriptor. -/
def hDisp (dir : Byte) : DispHead := (dispHead ((dDisp dir).vread 0 0 128)).1

theorem wit_dispatchForward :
    (dDisp 0).canon = true ∧ (dDisp 0).executes sA pT iDisp ∧
    firstCause ((dDisp 0).dispCauses sA (tu 64) m0 ⟨0, 0, 0, 16⟩ false 1) = none ∧ (dDisp 0).conflict sA iDisp.regions = false ∧
    (hDisp 0).dir = 0 ∧ (dDisp 0).holdersOf 0 (hDisp 0) = [5] ∧ (dDisp 0).node = 0 ∧ (dDisp 0).isFenced 5 = false := by
  unfold State.executes
  decide +kernel

theorem wit_dispatchOther :
    (dDisp 1).executes sA pT iDisp ∧ (hDisp 1).dir = 1 ∧
    firstCause ((dDisp 1).dispCauses sA (tu 64) m0 ⟨0, 0, 0, 16⟩ false 1) = none ∧ (dDisp 2).executes sA pT iDisp ∧
    (hDisp 2).dir = 2 ∧ firstCause ((dDisp 2).dispCauses sA (tu 64) m0 ⟨0, 0, 0, 16⟩ false 1) = none ∧
    (dDisp 2).conflict sA iDisp.regions = false := by
  unfold State.executes
  decide +kernel

theorem wit_dispatchHere :
    (dMem [(0, dispBytes)]).node ∈ (dMem [(0, dispBytes)]).holdersOf 0 (dispHead ((dMem [(0, dispBytes)]).vread 0 0 128)).1 := by
  decide +kernel

theorem wit_combineClaim :
    (dDisp 0).executes sA pT (.cmb sA pT (tu 0) (tu 64) m0 1 0 8 hwN) ∧
    (dDisp 0).clear sA (.cmb sA pT (tu 0) (tu 64) m0 1 0 8 hwN) [] ∧ ((dDisp 0).rankAt 0 64 0 0).2 = true ∧
    (dDisp 0).accessOk 0 0 256 false = true ∧ (dDisp 0).directOk 0 0 256 = true := by
  unfold State.executes State.clear
  decide +kernel

theorem wit_combineFresh :
    (dDisp 0).staleMet 0 256 = [] ∧ (dDisp 0).readWaits 0 256 = false ∧
    ∀ k, k < 256 → (dDisp 0).servedFrom (0 + k) = 0 + k := by
  decide +kernel

/-- A dispatch to node 5 that waits on object 7 for its increment. -/
def dEarly : State :=
  { dDisp 0 with groups := [(0, { GroupSt.reset with disps := [{ dispZ with head := hDisp 0 }] })] }

theorem wit_earlyIncrement :
    dEarly.rxNextFrame hdr5 ∧ (dEarly.dispOf 0 5 7).isSome = true ∧ dEarly.dispOf 0 5 8 = none := by
  unfold State.rxNextFrame
  decide +kernel

theorem wit_engineFull :
    (dJobs (List.replicate 64 jobW)).canon = true ∧ (dJobs (List.replicate 64 jobW)).executes sA pT (.upd sA pT m0 8191 65535 9) ∧
    64 ≤ ((dJobs (List.replicate 64 jobW)).group 0).jobs.length := by
  unfold State.executes
  decide +kernel

/-- The device of the root descriptor with a root of its SCRATCH in group 3. -/
def dRoot2 (st : RootSt) : State :=
  { dRoot with groups := [(3, { GroupSt.reset with roots := [{ rootR with issueStep := dRoot.ueStep, st := st }] })] }

theorem wit_engineMerge :
    (dRoot2 .running).canon = true ∧
    ((dRoot2 .running).sameRoot 0 0x30000).any (fun e => e.1 == 3 && e.2.st == .running) = true ∧
    ((dRoot2 .done).sameRoot 0 0x30000).any (fun e => e.2.st == .done) = true ∧ (dRoot2 .done).executes sA pT (.precon sA pT m0 9 1) := by
  unfold State.executes
  decide +kernel

/-- A KRON descriptor of 1 by 32 and its header; its left root of group 3 runs. -/
def dKron : State :=
  { dRoot2 .running with
    groups := [(0, { GroupSt.reset with jobs := [{ jobW with target := 0, desc := 0x400 }] }),
      (3, { GroupSt.reset with roots := [{ rootR with issueStep := 0 }] })]
    mem := cellsAt 0x400 ([3, 0, 255, 6] ++ toBytes 4 0 ++ toBytes 8 32 ++ toBytes 8 0 ++ toBytes 8 0 ++ toBytes 8 0x10000 ++
        toBytes 8 0x20000 ++ List.replicate 64 0 ++ toBytes 4 0x3F800000 ++ List.replicate 12 0 ++ toBytes 2 1 ++ toBytes 2 32 ++ toBytes 4 0 ++ toBytes 8 0x5000 ++
        toBytes 8 0x6000 ++ toBytes 8 0x50000 ++ toBytes 8 0x30000 ++ toBytes 8 0x40000) ++
      cellsAt 0x10000 (toBytes 4 0 ++ toBytes 2 3 ++ toBytes 2 0 ++ toBytes 8 32 ++ toBytes 8 0 ++ toBytes 2 1 ++ toBytes 2 32) ++
      cellsAt 0x30000 (toBytes 4 0 ++ toBytes 4 0 ++ [1]) }
/-- Its descriptor. -/
def dscKron : UpdDesc := updDesc (dKron.vread 0 0x400 192)

theorem wit_updateWaitsRoot :
    dKron.canon = true ∧ dscKron.rule = 3 ∧
    firstBad (dKron.updChecks 0 dscKron 1 32) = none ∧ headBad dKron.ueStep dscKron (dKron.shardHead 0 0x10000) = false ∧
    dKron.rootRuns 0 dscKron.scrl = true ∧ gen dscKron.state dKron.ueStep = 0x10000 ∧
    (dKron.group 0).jobs.find? (fun k => k.phase == .waiting && dKron.gateOpen k) = some { jobW with target := 0, desc := 0x400 } := by
  decide +kernel

/-- Nothing is written between its header and its root header, which reads as 0. -/
theorem kron_zero (o n : Nat) (h : 0x200 ≤ o) (k : o + n ≤ 0x10000) : dKron.vread 0 (0x10000 + o) n = List.replicate n 0 := by
  have z (i : Nat) (hi : i < n) : dKron.vbyte 0 (0x10000 + o + i) = 0 := by
    have e : dKron.mapping 0 0 = some (mapOf 0) := by decide +kernel
    have d : (0x10000 + o + i) / frameBytes = 0 := by unfold frameBytes; omega
    have u : dKron.translate 0 (0x10000 + o + i) = some (0x10000 + o + i) := by
      simp only [State.translate, d, e, mapOf]; simp; unfold frameBytes; omega
    have m : ∀ q ∈ dKron.mem, q.1 < 0x10200 ∨ 0x20000 ≤ q.1 := by decide +kernel
    rw [State.vbyte, u]
    rcases Tab.get_mem (0 : Byte) (0x10000 + o + i) dKron.mem with g | g
    · exact g
    · have := m _ g; simp only at this; omega
  rw [State.vread, List.map_congr_left (fun i hi => z i (List.mem_range.1 hi)), List.map_const', List.length_range]

/-- The FP32 codes of a plane of zeros. -/
theorem words_zero (n : Nat) : words32 (List.replicate (4 * n) 0) = List.replicate n 0 := by
  have f (i : Nat) (h : i < n) : fld (List.replicate (4 * n) 0) (4 * i) 4 = 0 := by
    have l : min 4 (4 * n - 4 * i) = 4 := by omega
    rw [fld, List.drop_replicate, List.take_replicate, l]; rfl
  have l : (List.replicate (4 * n) (0 : Byte)).length / 4 = n := by simp
  rw [words32, l, List.map_congr_left (fun i h => f i (List.mem_range.1 h)), List.map_const', List.length_range]

/-- Its planes hold no value that refuses the job. -/
theorem wit_updatePlanes : planesBad 3 (dKron.readPlanes 0 0x10000 (shardPlanes 3 32 1 32)) = false := by
  have p : shardPlanes 3 32 1 32 = [(512, 128), (1024, 32), (1536, 32), (2048, 1), (2560, 4), (3072, 4 * 1024), (7168, 4),
    (7680, 4 * 1024)] := by decide
  have f : (ofF32 0).isNan = false := by decide +kernel
  have q : (List.replicate 1024 0).any (fun v => (ofF32 v).isNan) = false := by
    simp only [List.any_replicate, f]; rfl
  simp only [State.readPlanes, p, List.map_cons, List.map_nil]
  rw [kron_zero 512 _ (by decide) (by decide), kron_zero 1024 _ (by decide) (by decide),
    kron_zero 1536 _ (by decide) (by decide), kron_zero 2048 _ (by decide) (by decide),
    kron_zero 2560 _ (by decide) (by decide), kron_zero 3072 _ (by decide) (by decide),
    kron_zero 7168 _ (by decide) (by decide), kron_zero 7680 _ (by decide) (by decide)]
  simp only [planesBad, List.getD_cons_zero, List.getD_cons_succ, List.drop_succ_cons, List.drop_zero, List.any_cons,
    List.any_nil, words_zero, q]
  decide +kernel

theorem wit_updateSends :
    ({ dJobs [{ jobW with phase := .running }] with
      waitSends := [⟨0, 5, dataFrame 0x01 5 0 0 true [], .tee 0 1⟩] } : State).outstanding (.tee 0 1) = true := by
  decide +kernel

/-- A core with a byte in its tile store. -/
def coreT : CoreSt := { CoreSt.reset with tile := [(0, 1)] }
/-- A root computation of a 1 by 1 factor of 1 on core 0. -/
def dAttempt (factor : Nat) (c : CoreSt) : State :=
  { dCore c with
    groups := [(0, { GroupSt.reset with roots := [{ rootR with cores := 1 }] })], mem := cellsAt 0x30204 (toBytes 4 factor) }

theorem wit_rootEnds :
    (dAttempt 0x3F800000 coreT).canon = true ∧
    (let s := dAttempt 0x3F800000 coreT
     let f := s.vread 0 (0x30000 + 512 + 4) 4
     (rootAttempt 1 1 f fone 0).1.isSome && s.attemptRuns 0 { rootR with cores := 1 } (rootAttempt 1 1 f fone 0).2) = true ∧
    (dAttempt 0x3F800000 { coreT with stat := some tileZ }).attemptRuns 0 { rootR with cores := 1 } 1 = false ∧
    (∀ j ∈ ((dAttempt 0x3F800000 coreT).group 0).jobs, j.phase ≠ .waitRoot) := by
  decide +kernel

theorem wit_frameDetached :
    ({ dFrames with bt := BeatUnit.reset } : State).bt.st = .detached ∧
    ({ dFrames with bt := { dR.bt with count := 1 } } : State).beat < 0 + 2 := by
  decide +kernel

/-- The device with key-value pages whose block 0 has HBM frame 0, in a state. -/
def dOwn (st : Nat) : State :=
  withImg (dMem [(0x8000, toBytes 8 (1 + st * 2 ^ 16)), (0x9000, toBytes 8 0xB000 ++ toBytes 8 0xC000 ++ toBytes 4 1), (0xB000, [1])])
    (imgOf rootsSec [])
/-- Its roots. -/
def rOwn : Roots := ((dOwn 1).roots.map (·.2)).getD ⟨0, 0, 0, 0, 0, 0, 0, 0, 0, 0, 0, 0, 0, 0⟩

theorem wit_keyValueOwn :
    (dOwn 1).canon = true ∧ (dOwn 1).entry (rOwn.stream 0 0 0) (127 / 128) = .frame 0 0 0 ∧
    (dOwn 1).frRef 0 0 ≤ 1 ∧ (dOwn 1).frState 0 0 = 1 ∧ (dOwn 1).kvFrame rOwn (kKv 127) = true ∧ (dOwn 3).frState 0 0 = 3 ∧
    (dOwn 1).roots = some (0, rOwn) ∧ (dOwn 3).roots = some (0, rOwn) ∧
    (dOwn 1).clear sA (iKv 127) [(!(kKv 127).tooLong && (dOwn 1).kvBad (kKv 127), 0x0A)] ∧
    (dOwn 3).clear sA (iKv 127) [(!(kKv 127).tooLong && (dOwn 3).kvBad (kKv 127), 0x0A)] := by
  unfold State.clear
  decide +kernel

/-- The first 4 MiB of its space are mapped to the first 4 MiB of memory. -/
theorem own_translate (va : Nat) (h : va < 2 ^ 22) : (dOwn 1).translate 0 va = some va := by
  have e0 : (dOwn 1).mapping 0 0 = some (mapOf 0) := by decide +kernel
  have e1 : (dOwn 1).mapping 0 1 = some (mapOf 1) := by decide +kernel
  have d : va / frameBytes = 0 ∨ va / frameBytes = 1 := by unfold frameBytes; omega
  rcases d with d | d <;> simp only [State.translate, d, e0, e1, mapOf] <;> simp <;> unfold frameBytes at * <;> omega

/-- Ranges of that space that do not meet share no byte. -/
theorem own_apart (x n y m : Nat) (hx : x + n ≤ 2 ^ 22) (hy : y + m ≤ 2 ^ 22) (h : x + n ≤ y ∨ y + m ≤ x ∨ n = 0) :
    (dOwn 1).apart 0 x n y m := by
  intro i j pa hi hj hp
  rw [own_translate _ (by omega)] at hp ⊢
  simp only [Option.some.injEq] at hp
  simp only [ne_eq, Option.some.injEq]
  omega

/-- A range of that space has bytes of its own. -/
theorem own_bytes (x n : Nat) (h : x + n ≤ 2 ^ 22) : (dOwn 1).ownBytes 0 x n := by
  refine ⟨fun i hi => ?_, fun i j hi hj e => ?_⟩
  · rw [own_translate _ (by omega)]; rfl
  · rw [own_translate _ (by omega), own_translate _ (by omega)] at e
    simp only [Option.some.injEq] at e
    omega

/-- The rows of the append have room there. -/
theorem wit_keyValueRoom : (dOwn 1).kvRoom 0 rOwn (kKv 127) 0 0 := by
  have hva : (kKv 127).rowsVa rOwn 0 0 = 0x20FF00 := by decide +kernel
  have hl : rOwn.rowBytes * (kKv 127).rows = 256 := by decide +kernel
  have hd : (dOwn 1).streamDesc (rOwn.stream 0 0 0) = (0xB000, 0xC000, 1, 0) := by decide +kernel
  have hv : rOwn.descVa (rOwn.stream 0 0 0) = 0x9000 := by decide +kernel
  have hr : rOwn.recVa 0 0 = 0x8000 := by decide +kernel
  have hf : rOwn.fmt = 0 := by decide +kernel
  have hs : rOwn.frameVa 0 0 = 0x200000 := by decide +kernel
  have k : (kKv 127) = ⟨0, 0, 0, true, 127, 1, 0, 0, 400⟩ := rfl
  have o := own_bytes 0x20FF00 256 (by decide)
  unfold State.kvRoom
  simp only [k] at *
  simp only [hd, hv, hr, hf, hs, if_true]
  refine ⟨o.1, o.2, ?_, ?_, ?_, ?_, ?_, ?_, ?_⟩ <;> apply own_apart <;> decide

/-- A first entry into a job with a fault history and an image without a record for it. -/
def dSurv : State :=
  dG { dR.flt with map := { FaultMap.reset with failed := [⟨9, 1, none, none, none⟩] } }
    { dR.sec with run := none, ctxs := [(0, { ctxR with job := some jobN, image := some (imgOf [] []) })] } dR.step

theorem wit_boundarySurvivor :
    dSurv.canon = true ∧ dSurv.boundaryKind = some .firstEntry ∧ dSurv.firstJob = some 0 ∧
    (dSurv.fltOf 0).roleMask ≠ 0 ∧ (∀ o ∈ survivorOvls ((dSurv.ctx 0).image.getD []), fld o.head 0 2 ≠ (dSurv.fltOf 0).roleMask) ∧
    (({ dSurv with flt := dR.flt } : State).fltOf 0).roleMask = 0 := by
  decide +kernel

/-- The networked device with a session to node 5 and the device session of node 5. -/
def dSess : State := { dNet with sec := { dNet.sec with sessions := [⟨5, some 0, 1, 2, 3, 4⟩, ⟨5, none, 1, 2, 3, 4⟩] } }

theorem wit_sessions :
    dSess.canon = true ∧ dSess.session 5 (some 0) = some ⟨5, some 0, 1, 2, 3, 4⟩ ∧ (dSess.conn 2).opened = true ∧
    (dSess.session hdr5.snode.toNat none).isSome = true := by
  decide +kernel

/-- The device with an NVMe/TCP connection in a phase and an operation on it. -/
def dNvme (ph : TcpPhase) (ops : List NvmeOp) : State := { dNet with tcp := [(4, some ⟨9, 4420, 3, ph⟩)], nvme := ops }
/-- A read of a record of 512 bytes to 0x1000. -/
def opRead : NvmeOp := ⟨1, .ingest 2 0 0x1000, ⟨9, 4420, 1⟩, some 4, 0, 512, [], [], 0, 3⟩
/-- A write of a checkpoint. -/
def opWrite : NvmeOp := ⟨1, .ckptStore, ⟨9, 4420, 1⟩, some 4, 0, 2, [], [7, 8], 3, 3⟩

theorem wit_storeMessages :
    (dNvme .ready [opRead]).canon = true ∧ (dNvme .icReq []).tcpConn 4 = some ⟨9, 4420, 3, .icReq⟩ ∧
    (∀ o ∈ (dNvme .ready [opRead]).nvme, o.conn.isSome = true) ∧ (dNvme .ready [opRead]).nvmeOp 4 1 = some opRead ∧
    (dNvme .ready [opRead]).running = some 0 ∧ opRead.got.length ≤ opRead.bytes ∧
    (List.replicate 512 (7 : Byte)).length ≤ opRead.bytes - opRead.got.length ∧
    (dNvme .ready [opWrite]).nvmeOp 4 1 = some opWrite ∧ opWrite.payload ≠ [] ∧
    ({ dNvme .ready [opWrite] with ckptStore := [{ ckJ with left := 1 }] } : State).ckptStore = { ckJ with left := 1 } :: [] ∧
    opRead.tries < 3 ∧ 3 ≤ opWrite.tries ∧
    ([(⟨2, sA, 0, 1, 9⟩ : IngestJob)].find? (fun q => q.id == 2)) = some ⟨2, sA, 0, 1, 9⟩ := by
  decide +kernel

/-- Context 1 LOADED and the beat held by another job. -/
def dHeldBeat : State := { dStart with bt := dR.bt }
/-- An image load from the store to 0x200000. -/
def dLoad : State := (dArgs [(0, 0x10001), (1, 0x200000), (2, 512)])

theorem wit_mailboxBeat :
    dHeldBeat.canon = true ∧ dHeldBeat.mboxFree .pcie ∧ dHeldBeat.beatHeld = true ∧ dHeldBeat.mayStart 1 = true ∧
    dLoad.mboxFree .pcie ∧ ctxArg dLoad.args = (1, false) ∧ dLoad.idleCtx 1 = true ∧ fld dLoad.args 1 1 ≤ 1 ∧
    fld dLoad.args 2 1 = 1 ∧ fld dLoad.args 54 1 ≤ 1 ∧ fld dLoad.args 8 8 % 512 = 0 ∧
    dLoad.mapsRange 1 (fld dLoad.args 8 8) (fld dLoad.args 16 8) = true := by
  unfold State.mboxFree
  decide +kernel

/-- Up to sixteen members always pair (R569). -/
theorem pairing_small (l : List Nat) (k : Nat) (h : l.length ≤ 16) : (pairing l k).isSome = true := by
  simp only [pairing]
  split
  · rfl
  · rfl

/-- JOB_START of context 1 finds its pairing. -/
theorem wit_mailboxPairs : (pairing (dStart.joinSet 1) 0).isSome = true :=
  pairing_small _ _ (by unfold State.joinSet; decide +kernel)

/-- More than sixteen members pair only as the assignment of the manufacturer says (R569). -/
theorem wit_mailboxNoPairing (h : Pairing.ok (List.range 17) (Config.peerOf (List.range 17) 0) = false) :
    pairing (List.range 17) 0 = none := by
  simp only [pairing, h, Bool.false_and]; decide

/-- A generation in flash with and without the context's own sets. -/
def genF (own : Bool) : FlashGen := ⟨1, 0, 0, own, false, [], 0, []⟩
/-- Context 1 joins from a source. -/
def dSrc (src : JobSource) (gens : List FlashGen) : State :=
  { busy dReady (.jobStart 1 4) with
    gens := gens
    sec := { SecUnit.reset with ctxs := [(1, { ctxR with job := some ⟨0, none, src, 0, none, false, false, false, false⟩ })] } }

theorem wit_stateLoads :
    (dSrc .flash [genF true]).canon = true ∧
    ((dSrc .flash [genF true]).flashGens 1 0).any (fun g => g.own) = true ∧
    ((dSrc .flash [genF false]).flashGens 1 0).any (fun g => g.own) = false ∧
    shardSkew 0 (((dSrc .flash [genF true]).flashGens 1 0).flatMap FlashGen.ranges) = none ∧
    ((dSrc .store []).ctx 1).job.any (fun j => j.source == .store) = true ∧
    ((dSrc .fresh []).ctx 1).job.any (fun j => j.source == .fresh) = true := by
  decide +kernel

theorem wit_debugMemory :
    (dR.put Reg.DBG_ADDR_ADDR 0x1000).dbgBad = false ∧ (dR.put Reg.DBG_ADDR_ADDR 0x1000).get Reg.DBG_ADDR_ADDR = 0x1000 := by
  decide +kernel

theorem wit_supplyStep :
    ({ dR with pins := dReady.pins } : State).running.isSome = true ∧ dR.step.active = true ∧
    ({ dR with pins := dReady.pins } : State).pins.rails = true := by
  decide +kernel

theorem wit_decodeServices :
    (Instr.postEvent sA pT m0 ⟨9, 4⟩).bare sA = some (.postEvent sA pT m0 ⟨9, 4⟩) ∧
    decode sA (encode (.postEvent sA pT m0 ⟨9, 5⟩)) = some (.postEvent sA pT m0 ⟨9, 5⟩) ∧
    decode sA (encode (.postEvent sA pT m0 ⟨9, 1⟩)) ≠ some (.postEvent sA pT m0 ⟨9, 1⟩) := by
  decide +kernel

/-! ### One step each: expected values by hand from the rules cited -/

/-- The state after a command; reset where the command does not end in a state. -/
def after1 (i : Instr) (s : State) : State := match exec i s with | .next t => t | _ => State.reset

/-- An empty queue idles (log 1). -/
theorem test_step_idle : step State.reset = .next State.reset := rfl

/-- A command in front runs, with the rest of the queue left. -/
theorem test_step_front : (match step { dR with pending := [.nop sA, .skip sA pT 3] } with
    | .next t => t.pending == [.skip sA pT 3] && (t.strand sA).pc == 1 | _ => false) = true := by decide +kernel

theorem test_skip : ((after1 (.skip sA pT 255) dR).strand sA).pc = 256 := by decide +kernel

/-- R82: a count of 0 skips the body of 2. -/
theorem test_loop_zero : ((after1 (.loop sA 0 false 0 0 2) dR).strand sA).pc = 3 := by decide +kernel

/-- R82: a body of one instruction, run three times. -/
theorem test_loop_body : (let s := after1 (.loop sA 1 false 0 3 1) dR; let s := after1 (.nop sA) s; let s := after1 (.nop sA) s
    ((s.strand sA).pc, (s.strand sA).lcv 1, ((after1 (.nop sA) s).strand sA).pc)) = (1, 1, 2) := by decide +kernel

/-- A device whose object 5 is at its largest count. -/
def dSat : State := { dR with so := [(5, { SyncObj.reset with count := 0xFFFFFFFF })] }

/-- R102: a saturated count stays and is reported. -/
theorem test_soinc_saturates : (let t := after1 (.soinc sA pT 5 false (.id 0) 9) dSat; ((t.obj 5).count.toNat,
    t.svc.ring.map (fun e => e.1.code.toNat))) = (0xFFFFFFFF, [0x0231]) := by decide +kernel

/-- R100: objects 8,128 and above are reserved. -/
theorem test_soinc_reserved : (let t := after1 (.soinc sA pT 8128 false (.id 0) 1) dR
    ((t.strand sA).st, t.obj 8128 == dR.obj 8128)) = (.stopped, true) := by decide +kernel

/-- R131: LDT moves 512 B from memory to unit 3. -/
theorem test_ldt : ((after1 (.ldt sA pT (tu 3) m0 1 0 hwN) (dMem [(0, [1, 2, 3]), (0x1FF, [9])])).core 0).tile =
    [(1536, 1), (1537, 2), (1538, 3), (2047, 9)] := by decide +kernel

/-- The tile store with FP32 words at unit 0 and at unit 8. -/
def dWords (a b : List Nat) : State :=
  dCore { CoreSt.reset with tile := cellsAt 0 (a.flatMap (toBytes 4)) ++ cellsAt 4096 (b.flatMap (toBytes 4)) }

/-- 1 + 2 = 3, 1.5 + −1.5 = +0; the least subnormal stays. -/
theorem test_vadd : (let t := after1 (.vadd sA pT fV2 hwN) (dWords [0x3F800000, 0x3FC00000, 1] [0x40000000, 0xBFC00000, 0])
    (List.range 3).map (fun k => ofBytes (t.tread 0 (8192 + 4 * k) 4))) = [0x40400000, 0, 1] := by decide +kernel

/-- 3 × 0.5 = 1.5 and a product that overflows. -/
theorem test_vmul : (let t := after1 (.vmul sA pT fV2 hwN) (dWords [0x40400000, 0x7F000000] [0x3F000000, 0x40800000])
    (List.range 2).map (fun k => ofBytes (t.tread 0 (8192 + 4 * k) 4))) = [0x3FC00000, 0x7F800000] := by decide +kernel

/-- FP32 to BF16, ties to even (R199, R228). -/
theorem test_vcvt : (let t := after1 (.vcvt sA pT { fV with ofmt := 0 } hwN) (dWords [0x3F808000, 0x3F818000, 0x3F808001] [])
    (List.range 3).map (fun k => ofBytes (t.tread 0 (8192 + 2 * k) 2))) = [0x3F80, 0x3F82, 0x3F81] := by decide +kernel

/-- e^0 = 1 (R203). -/
theorem test_exp_zero : expF fzero fzero fzero = fone := by decide +kernel

/-- R50: the period is locked while the beat unit is not DETACHED. -/
theorem test_period : ((after1 (.btPeriodWrite 1) dReady).bt.sel, (after1 (.btPeriodWrite 1) dR).bt.sel,
    (after1 (.btPeriodWrite 1) dR).svc.ring.map (fun e => e.1.code)) = (1, 2, [0x0108]) := by decide +kernel

/-- R14: an access of 4 bytes is refused and reported. -/
theorem test_narrow : (let t := after1 (.narrowRegisterWrite .pcie 0x020008 4 7) dReady
    (t.regRead 0x020008, t.svc.ring.map (fun e => e.1.code))) = (1500, [0x0B40]) := by decide +kernel

/-- That header with a tag that is wrong. -/
def hdrBad : Hdr := ⟨3, 5, 2, 0, 0, 0, 0, true, false⟩

/-- R440, R459: bytes of the next frame of a connection reach memory; a wrong tag is dropped. -/
theorem test_data_frame : ((after1 (.dataReceive hdr5 0x1000 [7, 8] none) dNet).mem,
    (after1 (.dataReceive hdrBad 0x1000 [7, 8] none) dNet).mem) = ([(0x1000, 7), (0x1001, 8)], []) := by
  decide +kernel

/-- R508: CTX_CREATE takes the save frame at 0x600000. -/
theorem test_ctx_create : (let t := after1 (.ctxCreate .pcie 5) (dArgs [(1, 0x600000)])
    ((t.ctx 0).st, t.frame 3, t.svc.mbox.result)) = (.loaded, .save 0, 0) := by decide +kernel

/-- R480: a self-fence counts its boundary and ends in DETACHED. -/
theorem test_self_fence : (let t := after1 .selfFencing { dR with flt := { dR.flt with selfCause := some 3 } }
    (t.bt.count, t.bt.st, (t.strand sA).st, t.flt.fencedSelf)) = (1, .detached, .stopped, true) := by decide +kernel

/-- CRC-32C of the nine digits is the published check value (R531 names the code). -/
theorem test_crc32c : crc32c ("123456789".toList.map (fun c => BitVec.ofNat 8 c.toNat)) = 0xE3069283 := by decide +kernel

/-- SHA-384 of "abc" begins with the published value (R84 names the function). -/
theorem test_sha384 : (sha384 ("abc".toList.map (fun c => BitVec.ofNat 8 c.toNat))).toNat / 2 ^ 320 = 0xCB00753F45A35E8B := by
  decide +kernel

/-! ### The worked examples of the spec -/

/-- The beat segment of spec/04_instruction_encoding.md ("one attention beat segment"): words and instructions. -/
def segment : List (Nat × Instr) :=
  [(0x00000000000000000001000003840010, .sowait sA pT 900 false (.id 0) 1 0)
  , (0x00000000000000000000000000080903, .skip sA ⟨1, true⟩ 8)
  , (0x00000000042000000000002001000020, .ldt sA pT (tu 256) ⟨2, 0, 0, 0⟩ 512 2 noReport)
  , (0x00000083DB5400004000100000000050, .ablk sA pT (tu 0) (tu 256) (tu 64) 0 0 true false 0x3DB5 8 false noReport none)
  , (0x00000000000000000100000002000001, .loop sA 0 false 0 2 1)
  , (0x00000083DB5000004040180000000050, .ablk sA pT (tu 0) ⟨384, 0, 8⟩ (tu 64) 0 0 false false 0x3DB5 8 false noReport none)
  , (0x00000083DB5900004000280000000050, .ablk sA pT (tu 0) (tu 640) (tu 64) 0 1 false true 0x3DB5 8 false noReport none)
  , (0x00000000020820000000003000400021, .stt sA pT (tu 64) ⟨3, 0, 0, 0⟩ 130 1 noReport)
  , (0x00000000000000000001000000000013, .fence sA pT .device)
  , (0x00000000000000000001000003850011, .soinc sA pT 901 false (.id 0) 1)
  , (0x00000000000000000000000000000004, .beat sA 0)]

theorem test_segment : segment.all (fun e => decode sA e.1 == some e.2 && encode e.2 == e.1) = true := by decide +kernel

/-- A BF16 product of four terms with ANCHOR_EXACT (spec/06, "one accumulator"): A, and its conversion to BF16. -/
theorem test_anchor_example :
    let v := accSum 0 (dotTerms (-55) [.num false 3 (-1), .num true 2 0, .num false 5 (-4), .num false 1 0]
      [some (.num false 4 0), some (.num false 1 (-1)), some (.num true 5 (-2)), some (.num true 1 (-60))])
    v = some 166070236259287039 ∧ v.map (fun x => (fmtOf 0).enc .rne (.num false x.toNat (-55))) = some 0x4093 := by
  decide +kernel

/-- A hint of -60 overflows and -44 does not: A = 9 × 2^44 (spec/06, "replay"; R192). -/
theorem test_replay_example :
    let sum (a : Int) := accSum 0 (dotTerms a [.num false 3 0, .num false 3 (-1)] [some (.num false 2 0), some (.num false 2 0)])
    accOver (sum (-60)) = true ∧ accOver (sum (-44)) = false ∧ sum (-44) = some 158329674399744 := by decide +kernel

/-- A LINREC row (spec/07): a = (0.5, 0.5, 2, 0.25), b = (1, 2, 3, 4), h0 = 8 gives 5, 4.5, 12, 7. -/
theorem test_linrec_example :
    ((scanRow ([.num false 1 (-1), .num false 1 (-1), .num false 2 0, .num false 1 (-2)])
      ([1, 2, 3, 4].map (fun n => .num false n 0)) (.num false 8 0)).map (fun v => v.bits32.toNat)) =
    [0x40A00000, 0x40900000, 0x41400000, 0x40E00000] := by decide +kernel

/-- The selection example (spec/08): scores of ten blocks, TOPK 2, WIN 2, QBLK 9. -/
theorem test_selection_example :
    let scores := [0x3F000000, 0x40000000, 0xBF800000, 0x40000000, 0x40600000, 0x3E800000, 0xBF000000, 0x3F800000, 0, 0x3FC00000]
    let cands := (scores.zip (List.range 10)).foldl (keepCand 2) []
    cands.map (·.2) = [4, 1] ∧ selectionList cands 9 2 10 = [0, 1, 4, 8, 9] := by decide +kernel

/-- The routing example (spec/10): with CAP 2, expert 2 counts 3 and 2 and grants 2 and 0; in round 1 one slot of expert 3
is left for counts 1 and 1. -/
theorem test_grant_example : (grantExpert 2 0 [3, 2]).1.map (·.1) = [2, 0] ∧ (grantExpert 2 1 [1, 1]).1.map (·.1) = [1, 0] := by
  decide +kernel

/-- A device of a D2 whose twin is node 5: four more ports for frames to it (R29, R445). -/
def dTwin : State :=
  { dNet with
    bt := { dNet.bt with peers := [(16, some ⟨5, false, false, 7, false, false, 0, 0, false, false, 0, false, false, []⟩)] } }

theorem test_twin_paths :
    let f := controlFrame 0x08 5 0 0 0
    let t := dTwin.emitIn 5 none f
    (dTwin.portFor f, t.portFor f, t.portFor (controlFrame 0x08 6 0 0 0)) = (some 3, some 16, some 3) := by
  decide +kernel

end Sys2Proof.Tests
end

section
/-!
SUPPORT and PROOFS. What every step keeps (00_scope.md): the canonical form (log 3) and the bound of the event ring
(R543). One lemma `Keeps.<operation>` per operation of the model that answers a state, in the order of the model's
files, then the step.
-/

namespace Sys2Proof.Machine

set_option Elab.async false

/-! ### The invariants of a step, relative to the state it starts from

`State.canon` is a conjunction of Booleans; as a structure with one named field per table, an update of one table keeps
the other fields by name. -/

/-- Every sparse table of the device has rising keys and lists no default. -/
structure State.Canonical (s : State) : Prop where
  regs : Tab.wf 0 s.regs = true
  mem : Tab.wf 0 s.mem = true
  flash : Tab.wf 0 s.flash = true
  so : Tab.wf SyncObj.reset s.so = true
  frames : Tab.wf FrameSt.free s.frames = true
  conns : Tab.wf Conn.reset s.conns = true
  ports : Tab.wf Port.reset s.ports = true
  peers : Tab.wf none s.bt.peers = true
  strands : Tab.wf Strand.reset s.strands = true
  eachStrand : s.strands.all (fun e => e.2.canon) = true
  cores : Tab.wf CoreSt.reset s.cores = true
  eachCore : s.cores.all (fun e => e.2.canon) = true
  groups : Tab.wf GroupSt.reset s.groups = true
  eachGroup : s.groups.all (fun e => e.2.canon) = true
  ctxs : Tab.wf Ctx.reset s.sec.ctxs = true
  eachCtx : s.sec.ctxs.all (fun e => e.2.canon) = true
  collNext : Tab.wf 0 s.collNext = true
  circNext : Tab.wf 0 s.circNext = true
  throttle : Tab.wf 0 s.throttle = true
  hotBeats : Tab.wf 0 s.hotBeats = true
  tcp : Tab.wf none s.tcp = true

theorem State.canonical_iff (s : State) : s.Canonical ↔ s.canon = true := by
  rw [State.canon_iff]
  exact ⟨fun h => ⟨h.1, h.2, h.3, h.4, h.5, h.6, h.7, h.8, h.9, h.10, h.11, h.12, h.13, h.14, h.15, h.16, h.17,
      h.18, h.19, h.20, h.21⟩,
    fun ⟨h1, h2, h3, h4, h5, h6, h7, h8, h9, h10, h11, h12, h13, h14, h15, h16, h17, h18, h19, h20, h21⟩ =>
      ⟨h1, h2, h3, h4, h5, h6, h7, h8, h9, h10, h11, h12, h13, h14, h15, h16, h17, h18, h19, h20, h21⟩⟩

/-- What holds at `s₀` before a step holds at `s` in the middle of it: the canonical form (log 3), and an event ring of
at most 1,024 records (R543). Each operation of the model takes `Keeps s₀ s` to `Keeps s₀` of its result, so the proof
for a composite operation reads as the composition itself. -/
structure Keeps (s₀ s : State) : Prop where
  canon : s₀.canon = true → s.canon = true
  ring : s₀.svc.ring.length ≤ 1024 → s.svc.ring.length ≤ 1024

/-- The same of the state that an outcome answers, when it answers one. -/
def KeepsOut (s₀ : State) (o : Host.Outcome State Fault Refusal) : Prop := ∀ t, o = .next t → Keeps s₀ t

section

variable {s₀ s t : State}

theorem Keeps.refl (s : State) : Keeps s s := ⟨id, id⟩

theorem Keeps.next (h : Keeps s₀ s) : KeepsOut s₀ (.next s) := fun _ e => Host.Outcome.next.inj e ▸ h

theorem KeepsOut.refused {r : Refusal} : KeepsOut s₀ (.refused r) := fun _ e => nomatch e

theorem Keeps.tables (h : Keeps s₀ s) (h0 : s₀.canon = true) : s.Canonical := s.canonical_iff.2 (h.canon h0)

/-- An update that writes no table and not the ring. -/
theorem Keeps.frame (h : Keeps s₀ s) {gens bt flt step sec svc pins pages prefetches gathers waitSends colls collHeld
    nextOp nvme neighbours router ingests ckptFlash ckptStore mapChanges modeInForce modePend capInForce rate64 sent
    freeCounter pending} (hbt : bt.peers = s.bt.peers := by rfl) (hsec : sec.ctxs = s.sec.ctxs := by rfl)
    (hsvc : svc.ring = s.svc.ring := by rfl) :
    Keeps s₀ { s with
      gens := gens, bt := bt, flt := flt, step := step, sec := sec, svc := svc, pins := pins, pages := pages
      prefetches := prefetches, gathers := gathers, waitSends := waitSends, colls := colls, collHeld := collHeld
      nextOp := nextOp, nvme := nvme, neighbours := neighbours, router := router, ingests := ingests
      ckptFlash := ckptFlash, ckptStore := ckptStore, mapChanges := mapChanges, modeInForce := modeInForce
      modePend := modePend, capInForce := capInForce, rate64 := rate64, sent := sent, freeCounter := freeCounter
      pending := pending } :=
  ⟨fun h0 => (State.canonical_iff _).1 { h.tables h0 with
      peers := hbt ▸ (h.tables h0).peers
      ctxs := hsec ▸ (h.tables h0).ctxs
      eachCtx := hsec ▸ (h.tables h0).eachCtx }, fun h0 => hsvc ▸ h.ring h0⟩

/-- The same with a ring of the same length: a read marks records, and keeps them. -/
theorem Keeps.frameRing (h : Keeps s₀ s) {svc pins} (hr : svc.ring.length = s.svc.ring.length) :
    Keeps s₀ { s with svc := svc, pins := pins } := ⟨h.canon, fun h0 => hr.trans_le (h.ring h0)⟩

/-- An update of tables alone. -/
theorem Keeps.update (h : Keeps s₀ s) (ht : s₀.canon = true → t.Canonical)
    (hr : t.svc.ring = s.svc.ring := by rfl) : Keeps s₀ t :=
  ⟨fun h0 => t.canonical_iff.1 (ht h0), fun h0 => hr ▸ h.ring h0⟩

/-! ### The shapes that operations are put together from -/

theorem Keeps.ite {c : Prop} [Decidable c] (hs : Keeps s₀ s) (ht : Keeps s₀ t) : Keeps s₀ (if c then s else t) := by
  split
  · exact hs
  · exact ht

theorem KeepsOut.ite {c : Prop} [Decidable c] {o p : Host.Outcome State Fault Refusal} (ho : KeepsOut s₀ o)
    (hp : KeepsOut s₀ p) : KeepsOut s₀ (if c then o else p) := by
  split
  · exact ho
  · exact hp

theorem Keeps.foldl {α : Type} {l : List α} {f : State → α → State} (h : Keeps s₀ s)
    (hf : ∀ t a, Keeps s₀ t → Keeps s₀ (f t a)) : Keeps s₀ (l.foldl f s) := by
  induction l generalizing s with
  | nil => exact h
  | cons a l ih => exact ih (hf s a h)

theorem Keeps.foldlFst {α β : Type} {l : List α} {f : State × β → α → State × β} {p : State × β} (h : Keeps s₀ p.1)
    (hf : ∀ q a, Keeps s₀ q.1 → Keeps s₀ (f q a).1) : Keeps s₀ (l.foldl f p).1 := by
  induction l generalizing p with
  | nil => exact h
  | cons a l ih => exact ih (hf p a h)

theorem Keeps.iteFst {β : Type} {c : Prop} [Decidable c] {p q : State × β} (hp : Keeps s₀ p.1) (hq : Keeps s₀ q.1) :
    Keeps s₀ (if c then p else q).1 := by
  split
  · exact hp
  · exact hq

/-- The first part of a pair that was taken apart. -/
theorem Keeps.ofPair {β : Type} {p : State × β} {x : β} (e : p = (s, x)) (h : Keeps s₀ p.1) : Keeps s₀ s := by
  subst e
  exact h

/-! ### Tables -/

/-- A property of every entry survives a change of every entry that keeps it. -/
theorem all_mapv {α : Type} [DecidableEq α] (p : α → Bool) (d : α) {f : α → α} (hf : ∀ x, p x = true → p (f x) = true)
    {t : Tab α} (h : t.all (fun e => p e.2) = true) : (Tab.mapv d f t).all (fun e => p e.2) = true := by
  induction t with
  | nil => rfl
  | cons e t ih =>
    obtain ⟨he, ht⟩ := Bool.and_eq_true_iff.1 (List.all_cons ▸ h)
    unfold Tab.mapv
    split
    · exact ih ht
    · exact List.all_cons ▸ Bool.and_eq_true_iff.2 ⟨hf _ he, ih ht⟩

/-- A fold whose steps keep the canonical form keeps it. -/
theorem wf_foldl {α β : Type} [DecidableEq α] {d : α} {l : List β} {f : Tab α → β → Tab α} {t : Tab α}
    (h : Tab.wf d t = true) (hf : ∀ t b, Tab.wf d t = true → Tab.wf d (f t b) = true) :
    Tab.wf d (l.foldl f t) = true := by
  induction l generalizing t with
  | nil => exact h
  | cons b l ih => exact ih (hf t b h)

/-- A fold whose steps keep a property of every entry keeps it. -/
theorem all_foldl {α β : Type} {p : α → Bool} {l : List β} {f : Tab α → β → Tab α} {t : Tab α}
    (h : t.all (fun e => p e.2) = true)
    (hf : ∀ t b, t.all (fun e => p e.2) = true → (f t b).all (fun e => p e.2) = true) :
    (l.foldl f t).all (fun e => p e.2) = true := by
  induction l generalizing t with
  | nil => exact h
  | cons b l ih => exact ih (hf t b h)

/-- Marking a group whole or not keeps the stores (R559). -/
theorem eachGroup_setWhole {t : Tab GroupSt} (h : t.all (fun e => e.2.canon) = true) (g : Nat) (b : Bool) :
    (Tab.set GroupSt.reset t g { Tab.get GroupSt.reset t g with whole := b }).all (fun e => e.2.canon) = true :=
  all_set GroupSt.canon _ _ _ _ h (all_get GroupSt.canon _ rfl _ h g)

/-- Editing the listed mappings keeps their table canonical: no entry is added, moved or taken off. -/
theorem wf_mapSome {α : Type} [DecidableEq α] {f : α → α} : ∀ {t : Tab (Option α)}, Tab.wf none t = true →
    Tab.wf none (t.map (fun e => (e.1, e.2.map f))) = true
  | [], _ => rfl
  | (k, v) :: t, h => by
    obtain ⟨hv, ha, ht⟩ := Tab.wf_cons.1 h
    refine Tab.wf_cons.2 ⟨fun e => hv (Option.map_eq_none_iff.1 e), fun p hp => ?_, wf_mapSome ht⟩
    obtain ⟨q, hq, rfl⟩ := List.mem_map.1 hp
    exact ha q hq

/-- Releasing objects keeps their table canonical (R106). -/
theorem wf_releaseObjects {t : Tab SyncObj} {p : SyncObj → Bool} (h : Tab.wf SyncObj.reset t = true) :
    Tab.wf SyncObj.reset (releaseObjects t p) = true := Tab.wf_mapv _ h

/-- Leaving loops keeps the loop counters canonical (R82, R122). -/
theorem wf_loopBack (pc : Nat) : ∀ (fs : List LoopFrame) {lc : Tab W32}, Tab.wf 0 lc = true →
    Tab.wf 0 (loopBack lc pc fs).1 = true
  | [], _, h => h
  | f :: fs, lc, h => by
    unfold loopBack
    split
    · dsimp only
      split
      · exact Tab.wf_set _ _ h
      · exact wf_loopBack pc fs h
    · exact h

/-! ### Parts of a state that keeps its form -/

theorem Keeps.strand (h : Keeps s₀ s) (a : Site) (h0 : s₀.canon = true) : (s.strand a).canon = true :=
  s.canon_strand a (h.canon h0)
theorem Keeps.core (h : Keeps s₀ s) (c : Nat) (h0 : s₀.canon = true) : (s.core c).canon = true :=
  s.canon_core c (h.canon h0)
theorem Keeps.group (h : Keeps s₀ s) (g : Nat) (h0 : s₀.canon = true) : (s.group g).canon = true :=
  s.canon_group g (h.canon h0)
theorem Keeps.ctx (h : Keeps s₀ s) (c : Nat) (h0 : s₀.canon = true) : (s.ctx c).canon = true :=
  s.canon_ctx c (h.canon h0)

theorem Ctx.canon_iff (x : Ctx) :
    x.canon = true ↔ Tab.wf none x.maps = true ∧ Tab.wf SyncObj.reset x.saved.so = true := by
  rw [Ctx.canon, Bool.and_eq_true]

theorem CoreSt.canon_iff (c : CoreSt) : c.canon = true ↔ Tab.wf 0 c.tile = true ∧ Tab.wf none c.marks = true := by
  rw [CoreSt.canon, Bool.and_eq_true]

theorem Strand.canon_iff (t : Strand) : t.canon = true ↔
    Tab.wf 0 t.sreg = true ∧ Tab.wf 0 t.areg = true ∧ Tab.wf 0 t.lc = true := by
  rw [Strand.canon, Bool.and_eq_true, Bool.and_eq_true, and_assoc]

theorem Strand.canon_goto {t : Strand} {pc : Nat} (h : t.canon = true) : (t.goto pc).canon = true := by
  obtain ⟨hs, ha, hl⟩ := t.canon_iff.1 h
  exact (Strand.canon_iff _).2 ⟨hs, ha, wf_loopBack pc t.loops hl⟩

theorem Strand.canon_setPred {t : Strand} {n : Nat} {v : Bool} (h : t.canon = true) : (t.setPred n v).canon = true := by
  unfold Strand.setPred
  split
  · exact h
  · exact h

theorem Strand.canon_enterLoop {t : Strand} {lc body count : Nat} (h : t.canon = true) :
    (t.enterLoop lc body count).canon = true := by
  obtain ⟨hs, ha, hl⟩ := t.canon_iff.1 h
  have ht (loops : List LoopFrame) (pc : W32) :
      ({ t with lc := Tab.set 0 t.lc lc (BitVec.ofNat 32 count), pc := pc, loops := loops } : Strand).canon = true :=
    (Strand.canon_iff _).2 ⟨hs, ha, Tab.wf_set _ _ hl⟩
  unfold Strand.enterLoop
  dsimp only
  split
  · exact Strand.canon_goto (ht t.loops t.pc)
  · exact ht _ _

/-- A strand at its entry has canonical registers: initial values are written one by one (R80). -/
theorem State.canon_enterStrand (s : State) (e : ProgEntry) : (s.enterStrand e).canon = true := by
  have hw (l : List (Nat × W64)) : Tab.wf 0 (l.foldl (fun t x => Tab.set 0 t x.1 x.2) []) = true :=
    wf_foldl rfl fun _ _ ht => Tab.wf_set _ _ ht
  refine (Strand.canon_iff _).2 ⟨?_, hw _, rfl⟩
  unfold State.enterStrand
  dsimp only
  split
  · exact Tab.wf_set _ _ (Tab.wf_set _ _ (hw _))
  · exact hw _

theorem Keeps.maps (h : Keeps s₀ s) (c : Nat) (h0 : s₀.canon = true) : Tab.wf none (s.ctx c).maps = true :=
  ((s.ctx c).canon_iff.1 (h.ctx c h0)).1
theorem Keeps.savedSo (h : Keeps s₀ s) (c : Nat) (h0 : s₀.canon = true) :
    Tab.wf SyncObj.reset (s.ctx c).saved.so = true := ((s.ctx c).canon_iff.1 (h.ctx c h0)).2

/-! ### Replacing one part -/

theorem Keeps.setWord (h : Keeps s₀ s) {off : Nat} {w : W64} : Keeps s₀ (s.setWord off w) :=
  ⟨fun h0 => s.canon_setWord off w (h.canon h0), h.ring⟩
theorem Keeps.put (h : Keeps s₀ s) {f : Fld} {v i j : Nat} : Keeps s₀ (s.put f v i j) := h.setWord
theorem Keeps.bump (h : Keeps s₀ s) {f : Fld} {i j n : Nat} : Keeps s₀ (s.bump f i j n) := h.put
theorem Keeps.setStrand (h : Keeps s₀ s) {a : Site} {x : Strand} (hx : s₀.canon = true → x.canon = true) :
    Keeps s₀ (s.setStrand a x) := ⟨fun h0 => s.canon_setStrand a x (h.canon h0) (hx h0), h.ring⟩
theorem Keeps.setCore (h : Keeps s₀ s) {c : Nat} {x : CoreSt} (hx : s₀.canon = true → x.canon = true) :
    Keeps s₀ (s.setCore c x) := ⟨fun h0 => s.canon_setCore c x (h.canon h0) (hx h0), h.ring⟩
theorem Keeps.setGroup (h : Keeps s₀ s) {g : Nat} {x : GroupSt} (hx : s₀.canon = true → x.canon = true) :
    Keeps s₀ (s.setGroup g x) :=
  h.update fun h0 => { h.tables h0 with
    groups := Tab.wf_set g x (h.tables h0).groups
    eachGroup := all_set GroupSt.canon _ _ _ _ (h.tables h0).eachGroup (hx h0) }
theorem Keeps.setObj (h : Keeps s₀ s) {i : Nat} {o : SyncObj} : Keeps s₀ (s.setObj i o) :=
  ⟨fun h0 => s.canon_setObj i o (h.canon h0), h.ring⟩
theorem Keeps.setCtx (h : Keeps s₀ s) {c : Nat} {x : Ctx} (hx : s₀.canon = true → x.canon = true) :
    Keeps s₀ (s.setCtx c x) := ⟨fun h0 => s.canon_setCtx c x (h.canon h0) (hx h0), h.ring⟩
theorem Keeps.setConn (h : Keeps s₀ s) {i : Nat} {c : Conn} : Keeps s₀ (s.setConn i c) :=
  ⟨fun h0 => s.canon_setConn i c (h.canon h0), h.ring⟩
theorem Keeps.setPort (h : Keeps s₀ s) {p : Nat} {q : Port} : Keeps s₀ (s.setPort p q) :=
  ⟨fun h0 => s.canon_setPort p q (h.canon h0), h.ring⟩
theorem Keeps.setFrame (h : Keeps s₀ s) {f : Nat} {x : FrameSt} : Keeps s₀ (s.setFrame f x) :=
  ⟨fun h0 => s.canon_setFrame f x (h.canon h0), h.ring⟩
theorem Keeps.setPeer (h : Keeps s₀ s) {p : Nat} {x : Option Peer} : Keeps s₀ (s.setPeer p x) :=
  ⟨fun h0 => s.canon_setPeer p x (h.canon h0), h.ring⟩

/-! Replacing a part by an edited copy of itself, whose tables are as they were. -/

theorem Keeps.editStrand (h : Keeps s₀ s) {a : Site} {x : Strand} (hs : x.sreg = (s.strand a).sreg := by rfl)
    (ha : x.areg = (s.strand a).areg := by rfl) (hl : x.lc = (s.strand a).lc := by rfl) :
    Keeps s₀ (s.setStrand a x) :=
  h.setStrand fun h0 => x.canon_iff.2 (by rw [hs, ha, hl]; exact (Strand.canon_iff _).1 (h.strand a h0))
theorem Keeps.editCore (h : Keeps s₀ s) {c : Nat} {x : CoreSt} (ht : x.tile = (s.core c).tile := by rfl)
    (hm : x.marks = (s.core c).marks := by rfl) : Keeps s₀ (s.setCore c x) :=
  h.setCore fun h0 => x.canon_iff.2 (by rw [ht, hm]; exact (CoreSt.canon_iff _).1 (h.core c h0))
theorem Keeps.editGroup (h : Keeps s₀ s) {g : Nat} {x : GroupSt} (e : x.store = (s.group g).store := by rfl) :
    Keeps s₀ (s.setGroup g x) := h.setGroup fun h0 => (congrArg (Tab.wf 0) e).trans (h.group g h0)
theorem Keeps.editCtx (h : Keeps s₀ s) {c : Nat} {x : Ctx} (hm : x.maps = (s.ctx c).maps := by rfl)
    (hs : x.saved.so = (s.ctx c).saved.so := by rfl) : Keeps s₀ (s.setCtx c x) :=
  h.setCtx fun h0 => x.canon_iff.2 (by rw [hm, hs]; exact (Ctx.canon_iff _).1 (h.ctx c h0))

/-- The strand may come from an earlier state. -/
theorem Keeps.setStrandOf (h : Keeps s₀ s) {u : State} (hu : Keeps s₀ u) {a b : Site} {x : Strand}
    (hs : x.sreg = (u.strand b).sreg := by rfl) (ha : x.areg = (u.strand b).areg := by rfl)
    (hl : x.lc = (u.strand b).lc := by rfl) : Keeps s₀ (s.setStrand a x) :=
  h.setStrand fun h0 => x.canon_iff.2 (by rw [hs, ha, hl]; exact (Strand.canon_iff _).1 (hu.strand b h0))

theorem Keeps.record (h : Keeps s₀ s) {r : EvtRec} : Keeps s₀ (s.record r) :=
  ⟨fun h0 => s.canon_record r (h.canon h0), fun _ => s.record_ring_length r⟩
theorem Keeps.reset (s₀ : State) : Keeps s₀ State.reset := ⟨fun _ => rfl, fun _ => Nat.zero_le _⟩

/-! Replacing one table as a whole. -/

theorem Keeps.withMem (h : Keeps s₀ s) {m : Tab Byte} (hm : s₀.canon = true → Tab.wf 0 m = true) :
    Keeps s₀ { s with mem := m } := h.update fun h0 => { h.tables h0 with mem := hm h0 }
theorem Keeps.withFlash (h : Keeps s₀ s) {m : Tab Byte} (hm : s₀.canon = true → Tab.wf 0 m = true) :
    Keeps s₀ { s with flash := m } := h.update fun h0 => { h.tables h0 with flash := hm h0 }
theorem Keeps.withFrames (h : Keeps s₀ s) {m : Tab FrameSt} (hm : s₀.canon = true → Tab.wf FrameSt.free m = true) :
    Keeps s₀ { s with frames := m } := h.update fun h0 => { h.tables h0 with frames := hm h0 }
theorem Keeps.withCollNext (h : Keeps s₀ s) {m : Tab Nat} (hm : s₀.canon = true → Tab.wf 0 m = true) :
    Keeps s₀ { s with collNext := m } := h.update fun h0 => { h.tables h0 with collNext := hm h0 }
theorem Keeps.withCircNext (h : Keeps s₀ s) {m : Tab Nat} (hm : s₀.canon = true → Tab.wf 0 m = true) :
    Keeps s₀ { s with circNext := m } := h.update fun h0 => { h.tables h0 with circNext := hm h0 }
theorem Keeps.withHotBeats (h : Keeps s₀ s) {m : Tab Nat} (hm : s₀.canon = true → Tab.wf 0 m = true) :
    Keeps s₀ { s with hotBeats := m } := h.update fun h0 => { h.tables h0 with hotBeats := hm h0 }

theorem Keeps.setVbyte (h : Keeps s₀ s) {c va : Nat} {b : Byte} : Keeps s₀ (s.setVbyte c va b) := by
  unfold State.setVbyte
  split
  · exact h.update fun h0 => { h.tables h0 with mem := Tab.wf_set _ _ (h.tables h0).mem }
  · exact h
theorem Keeps.vwrite (h : Keeps s₀ s) {c va : Nat} {bs : List Byte} : Keeps s₀ (s.vwrite c va bs) := by
  induction bs generalizing s va with
  | nil => exact h
  | cons b bs ih => exact ih h.setVbyte
theorem Keeps.twrite (h : Keeps s₀ s) {core at_ : Nat} {bs : List Byte} : Keeps s₀ (s.twrite core at_ bs) :=
  ⟨fun h0 => s.canon_twrite core at_ bs (h.canon h0), h.ring⟩
theorem Keeps.setMarks (h : Keeps s₀ s) {core u n : Nat} {m : Option Int} : Keeps s₀ (s.setMarks core u n m) :=
  ⟨fun h0 => s.canon_setMarks core u n m (h.canon h0), h.ring⟩

/-! ### The operations, in the order of the model's files -/

/-! #### Operations on the state (Machine/Ops.lean) -/

theorem Keeps.portTraffic (h : Keeps s₀ s) {g cls : Nat} {write : Bool} {bytes requests : Nat} :
    Keeps s₀ (s.portTraffic g cls write bytes requests) := h.bump.bump
theorem Keeps.drawn (h : Keeps s₀ s) : Keeps s₀ s.drawn := h.frame
theorem Keeps.event (h : Keeps s₀ s) {code detail core : Nat} : Keeps s₀ (s.event code detail core) := h.record
theorem Keeps.eventFor (h : Keeps s₀ s) {c code detail : Nat} : Keeps s₀ (s.eventFor c code detail) := h.record
theorem Keeps.selfFence (h : Keeps s₀ s) {cause : Nat} : Keeps s₀ (s.selfFence cause) := by
  unfold State.selfFence
  split
  · exact h
  · exact .ite h h.frame
theorem Keeps.stopStrands (h : Keeps s₀ s) : Keeps s₀ s.stopStrands :=
  h.update fun h0 => { h.tables h0 with
    strands := Tab.wf_mapv _ (h.tables h0).strands
    eachStrand := all_mapv _ _ (fun x hx => by split <;> exact hx) (h.tables h0).eachStrand }
theorem Keeps.setProgErr (h : Keeps s₀ s) {detail core : Nat} : Keeps s₀ (s.setProgErr detail core) := h.frame
theorem Keeps.strandErrorAt (h : Keeps s₀ s) {a : Site} {cause idx : Nat} :
    Keeps s₀ (s.strandErrorAt a cause idx) := h.event.editStrand.stopStrands.setProgErr.selfFence
theorem Keeps.strandError (h : Keeps s₀ s) {a : Site} {cause : Nat} : Keeps s₀ (s.strandError a cause) :=
  h.strandErrorAt
theorem Keeps.programErrorAs (h : Keeps s₀ s) {detail core cause : Nat} :
    Keeps s₀ (s.programErrorAs detail core cause) := h.stopStrands.setProgErr.selfFence
theorem Keeps.programError (h : Keeps s₀ s) {detail core : Nat} : Keeps s₀ (s.programError detail core) :=
  h.programErrorAs
theorem Keeps.soAdd (h : Keeps s₀ s) {i n : Nat} : Keeps s₀ (s.soAdd i n) := .ite h.setObj h.setObj.event
theorem Keeps.touch (h : Keeps s₀ s) {c va n : Nat} : Keeps s₀ (s.touch c va n) := by
  refine h.setCtx fun h0 => (Ctx.canon_iff _).2 ⟨wf_foldl (h.maps c h0) fun m vf hm => ?_, h.savedSo c h0⟩
  split
  · exact Tab.wf_set _ _ hm
  · exact hm
theorem Keeps.markStale (h : Keeps s₀ s) {c va n : Nat} : Keeps s₀ (s.markStale c va n) :=
  .ite h (h.frame.foldl (fun _ _ h1 => h1.bump))
theorem Keeps.store (h : Keeps s₀ s) {c va : Nat} {bs : List Byte} : Keeps s₀ (s.store c va bs) :=
  h.vwrite.touch.markStale
theorem Keeps.advance (h : Keeps s₀ s) {a : Site} : Keeps s₀ (s.advance a) :=
  h.setStrand fun h0 => Strand.canon_goto (h.strand a h0)
theorem Keeps.switchCore (h : Keeps s₀ s) {c : Fin 96} : Keeps s₀ (s.switchCore c) := by
  unfold State.switchCore
  extract_lets
  split
  · exact h.editCore
  · exact h.editCore
theorem Keeps.switchFrom (h : Keeps s₀ s) {a : Site} : Keeps s₀ (s.switchFrom a) := .ite h.switchCore h
theorem Keeps.woken (h : Keeps s₀ s) {c : Fin 96} : Keeps s₀ (s.woken c) := .ite h.switchCore h
theorem Keeps.issueFrom (h : Keeps s₀ s) {a : Site} : Keeps s₀ (s.issueFrom a) := .ite h h.editCore
theorem Keeps.issue (h : Keeps s₀ s) {a : Site} {p : Pred} {body : State → State}
    (hb : ∀ t, Keeps s₀ t → Keeps s₀ (body t)) : Keeps s₀ (s.issue a p body) :=
  .ite (.ite (hb _ h.issueFrom) h.issueFrom.advance) h
theorem Keeps.guarded (h : Keeps s₀ s) {a : Site} {l : List (Bool × Nat)} {body : State → State}
    (hb : ∀ t, Keeps s₀ t → Keeps s₀ (body t)) : Keeps s₀ (s.guarded a l body) := by
  unfold State.guarded
  split
  · exact h.strandError
  · exact hb _ h

/-! #### Flags and counters (Machine/Flags.lean) -/

theorem Keeps.contribute (h : Keeps s₀ s) {bit : Nat} : Keeps s₀ (s.contribute bit) := h.frame
theorem Keeps.stepFlag (h : Keeps s₀ s) {core : Nat} : Keeps s₀ (s.stepFlag core) := h.put.contribute
theorem Keeps.nonfin (h : Keeps s₀ s) {core strand src idx : Nat} : Keeps s₀ (s.nonfin core strand src idx) :=
  .ite h.put.bump.stepFlag h.put.bump.stepFlag.event.editCore
theorem Keeps.saturated (h : Keeps s₀ s) {core : Nat} : Keeps s₀ (s.saturated core) := h.put.stepFlag
theorem Keeps.decideFence (h : Keeps s₀ s) {core cause : Nat} : Keeps s₀ (s.decideFence core cause) :=
  .ite h h.editCore.event.contribute
theorem Keeps.coreFail (h : Keeps s₀ s) {core cause : Nat} : Keeps s₀ (s.coreFail core cause) := by
  unfold State.coreFail
  extract_lets _ _ _ _ c s1
  have hs1 : Keeps s₀ s1 := h.editCore (by unfold c; split_ifs <;> rfl) (by unfold c; split_ifs <;> rfl)
  exact .ite hs1.decideFence hs1
theorem Keeps.residueFail (h : Keeps s₀ s) {core strand : Nat} : Keeps s₀ (s.residueFail core strand) :=
  h.contribute.bump.event.coreFail
theorem Keeps.groupStoreFail (h : Keeps s₀ s) {g : Nat} : Keeps s₀ (s.groupStoreFail g) :=
  .ite (h.editGroup.foldl (fun _ _ h1 => h1.decideFence)) h.editGroup
theorem Keeps.eccError (h : Keeps s₀ s) {core : Nat} {e : EccReport} {named : Nat} :
    Keeps s₀ (s.eccError core e named) := by
  unfold State.eccError
  refine .ite ?_ ?_
  · extract_lets s1
    have hs1 : Keeps s₀ s1 := h.bump
    split
    · exact hs1.bump
    · exact hs1
  · extract_lets s1 src
    have hs1 : Keeps s₀ s1 := h.bump.event
    have hsrc : Keeps s₀ src := hs1.contribute
    split
    · exact hs1.contribute.coreFail
    · exact hs1.contribute.groupStoreFail
    · exact hsrc.frame
    · exact hsrc.frame
    · exact hsrc.frame
    · exact hs1.selfFence
    · exact hs1.frame
theorem Keeps.report (h : Keeps s₀ s) {a : Site} {hw : HwReport} {vec : Bool} : Keeps s₀ (s.report a hw vec) := by
  unfold State.report
  extract_lets s1
  have hs1 : Keeps s₀ s1 := h.foldl (fun _ _ h1 => h1.eccError)
  exact .ite hs1.residueFail hs1

/-! #### Operands (Machine/Operands.lean) -/

theorem Keeps.onRegions (h : Keeps s₀ s) {a : Site} {p : Pred} {rs : List Region}
    {causes : Strand → List (Bool × Nat)} {body : State → State} (hbody : ∀ t, Keeps s₀ t → Keeps s₀ (body t)) :
    Keeps s₀ (s.onRegions a p rs causes body) :=
  h.issue (fun _ h1 => .ite h1 (h1.guarded (fun _ h2 => hbody _ h2)))
theorem Keeps.onTile (h : Keeps s₀ s) {a : Site} {p : Pred} {i : Instr} {causes : Strand → List (Bool × Nat)}
    {body : State → State} (hbody : ∀ t, Keeps s₀ t → Keeps s₀ (body t)) :
    Keeps s₀ (s.onTile a p i causes body) := h.onRegions (fun _ h1 => hbody _ h1)
theorem Keeps.loaded (h : Keeps s₀ s) {i : Instr} : KeepsOut s₀ (loaded i s) := .ite h.next .refused

/-! #### Matrix instructions (Machine/Matrix.lean) -/

theorem Keeps.execMload (h : Keeps s₀ s) {a : Site} {p : Pred} {tsa tsc : Tsop} {fmts : BitVec 4}
    {sparse : BitVec 2} {hw : HwReport} : KeepsOut s₀ (execMload a p tsa tsc fmts sparse hw s) :=
  Keeps.loaded (h.onTile (fun _ h1 => .ite h1 (.ite h1.editCore.strandError h1.editCore.bump.report.advance)))
theorem Keeps.setRecWord (h : Keeps s₀ s) {core unit k v : Nat} : Keeps s₀ (s.setRecWord core unit k v) :=
  h.twrite
theorem Keeps.startProduct (h : Keeps s₀ s) {a : Site} {kind : ProdKind} {f : MatF} {hw : HwReport} :
    Keeps s₀ (s.startProduct a kind f hw) := by
  unfold State.startProduct
  extract_lets
  refine .ite ?_ ?_
  · exact h
  · split
    · exact h
    · exact h.editCore.report.advance
theorem Keeps.execMmul (h : Keeps s₀ s) {a : Site} {p : Pred} {f : MatF} {hw : HwReport} :
    KeepsOut s₀ (execMmul a p f hw s) := Keeps.loaded (h.onTile (fun _ h1 => h1.startProduct))
theorem Keeps.execMmuls (h : Keeps s₀ s) {a : Site} {p : Pred} {f : MatF} {hw : HwReport} :
    KeepsOut s₀ (execMmuls a p f hw s) := Keeps.loaded (h.onTile (fun _ h1 => h1.startProduct))
theorem Keeps.execMmulw (h : Keeps s₀ s) {a : Site} {p : Pred} {f : MatF} {hw : HwReport} :
    KeepsOut s₀ (execMmulw a p f hw s) := Keeps.loaded (h.onTile (fun _ h1 => h1.startProduct))
theorem Keeps.accWrite (h : Keeps s₀ s) {core unit : Nat} {a : Int} {rows : List (List W64)} :
    Keeps s₀ (s.accWrite core unit a rows) := h.twrite.setMarks
theorem Keeps.countProduct (h : Keeps s₀ s) {arr : Nat} {p : Product} {n : Nat} : Keeps s₀ (s.countProduct arr p n) :=
  h.bump.bump.bump.bump.bump
theorem Keeps.exhausted (h : Keeps s₀ s) {core strand : Nat} {accum : Bool} {a : Int} {idx : Nat} :
    Keeps s₀ (s.exhausted core strand accum a idx) := h.saturated.bump.event
theorem Keeps.productFlags (h : Keeps s₀ s) {core : Nat} {p : Product} {replays : Nat} {a : Int} {nonfin sat : Bool} :
    Keeps s₀ (s.productFlags core p replays a nonfin sat) := by
  unfold State.productFlags
  extract_lets s1 s2
  have hs1 : Keeps s₀ s1 := .ite h h.put.bump
  have hs2 : Keeps s₀ s2 := .ite hs1.exhausted hs1
  exact .ite hs2.nonfin hs2
theorem Keeps.sumProduct (h : Keeps s₀ s) {core : Nat} {p : Product} {f : ArrFault} :
    Keeps s₀ (s.sumProduct core p f) := by
  unfold State.sumProduct
  split
  · exact h.accWrite.setRecWord.countProduct.productFlags
theorem Keeps.reliefEvent (h : Keeps s₀ s) {core partner : Nat} {passed noReplay : Bool} :
    Keeps s₀ (s.reliefEvent core partner passed noReplay) := h.event
theorem Keeps.notRelieved (h : Keeps s₀ s) {core partner : Nat} {noReplay : Bool} :
    Keeps s₀ (s.notRelieved core partner noReplay) := h.contribute.bump.reliefEvent
theorem Keeps.logCheck (h : Keeps s₀ s) {core arr strand idx : Nat} {e : ChkFail} :
    Keeps s₀ (s.logCheck core arr strand idx e) := h.setWord.bump.event
theorem Keeps.execProductComplete (h : Keeps s₀ s) {core : Fin 96} {flt : Option ArrFault} :
    KeepsOut s₀ (execProductComplete core flt s) := by
  unfold Machine.execProductComplete
  extract_lets
  refine Keeps.next ?_
  split
  · exact h
  · extract_lets s1
    have hs1 : Keeps s₀ s1 := h.editCore
    split
    · exact hs1.sumProduct
    · extract_lets s2 _ s3
      have hs2 : Keeps s₀ s2 := hs1.drawn.drawn.sumProduct.logCheck.coreFail
      have hs3 : Keeps s₀ s3 := hs2.editCore
      exact .ite hs3.bump.switchFrom hs2.notRelieved
theorem Keeps.execReliefReplayDone (h : Keeps s₀ s) {core : Fin 96} {flt : Option ArrFault} :
    KeepsOut s₀ (execReliefReplayDone core flt s) := by
  refine Keeps.next ?_
  split
  · exact h
  · dsimp only
    refine .woken ?_
    split
    · exact h.editCore.accWrite.bump.countProduct.bump.reliefEvent
    · exact h.editCore.accWrite.bump.countProduct.bump.coreFail.notRelieved
theorem Keeps.execMscale (h : Keeps s₀ s) {a : Site} {p : Pred} {tsa tsx : Tsop} {rows : BitVec 13}
    {fmtt : BitVec 4} {accum : Bool} {klog : BitVec 5} {hw : HwReport} :
    KeepsOut s₀ (execMscale a p tsa tsx rows fmtt accum klog hw s) := by
  unfold Machine.execMscale
  extract_lets
  refine Keeps.loaded ?_
  refine .onTile h (fun _ h1 => ?_)
  extract_lets _ _ _ _ nonfin _ _ _ _ s1 s2 s3 s4
  have hs1 : Keeps s₀ s1 := h1.editStrand
  have hs2 : Keeps s₀ s2 := hs1.setRecWord
  have hs3 : Keeps s₀ s3 := hs2.setRecWord
  have hs4 : Keeps s₀ s4 := .ite hs3.nonfin hs3
  exact hs4.report.advance

/-! #### Vector instructions (Machine/Vector.lean) -/

theorem Keeps.vecDone (h : Keeps s₀ s) {a : Site} {f : VecF} {hw : HwReport} {rate extra : Nat}
    {func scan : Bool} {bad : Nat} : Keeps s₀ (s.vecDone a f hw rate extra func scan bad) := by
  unfold State.vecDone
  extract_lets _ _ s1 s2 s3 s4
  have hs1 : Keeps s₀ s1 := h.bump.bump
  have hs2 : Keeps s₀ s2 := .ite hs1.bump hs1
  have hs3 : Keeps s₀ s3 := .ite hs2.bump hs2
  have hs4 : Keeps s₀ s4 := .ite hs3 hs3.bump.nonfin
  exact hs4.report.advance
theorem Keeps.vecRows (h : Keeps s₀ s) {a : Site} {f : VecF} {hw : HwReport} {rate : Nat} {func scan : Bool}
    {rows : List (List VecElem)} : Keeps s₀ (s.vecRows a f hw rate func scan rows) := h.twrite.vecDone
theorem Keeps.vec (h : Keeps s₀ s) {a : Site} {p : Pred} {f : VecF} {v : VecShape} {mxOut : Bool}
    {body : State → State} (hbody : ∀ t, Keeps s₀ t → Keeps s₀ (body t)) : Keeps s₀ (s.vec a p f v mxOut body) :=
  h.onRegions (fun _ h1 => hbody _ h1)
theorem Keeps.elementwise (h : Keeps s₀ s) {a : Site} {f : VecF} {hw : HwReport} {rate : Nat} {func : Bool}
    {op : Fv → Fv → Fv} : Keeps s₀ (s.elementwise a f hw rate func op) := h.vecRows
theorem Keeps.mapwise (h : Keeps s₀ s) {a : Site} {f : VecF} {hw : HwReport} {rate : Nat} {func : Bool}
    {op : Fv → Fv} : Keeps s₀ (s.mapwise a f hw rate func op) := h.vecRows
theorem Keeps.execVadd (h : Keeps s₀ s) {a : Site} {p : Pred} {f : VecF} {hw : HwReport} :
    KeepsOut s₀ (execVadd a p f hw s) := Keeps.loaded (h.vec (fun _ h1 => h1.elementwise))
theorem Keeps.execVmul (h : Keeps s₀ s) {a : Site} {p : Pred} {f : VecF} {hw : HwReport} :
    KeepsOut s₀ (execVmul a p f hw s) := Keeps.loaded (h.vec (fun _ h1 => h1.elementwise))
theorem Keeps.execVmax (h : Keeps s₀ s) {a : Site} {p : Pred} {f : VecF} {hw : HwReport} :
    KeepsOut s₀ (execVmax a p f hw s) := Keeps.loaded (h.vec (fun _ h1 => h1.elementwise))
theorem Keeps.execVder (h : Keeps s₀ s) {a : Site} {p : Pred} {f : VecF} {hw : HwReport} :
    KeepsOut s₀ (execVder a p f hw s) := Keeps.loaded (h.vec (fun _ h1 => h1.elementwise))
theorem Keeps.execVfma (h : Keeps s₀ s) {a : Site} {p : Pred} {f : VecF} {hw : HwReport} :
    KeepsOut s₀ (execVfma a p f hw s) := Keeps.loaded (h.vec (fun _ h1 => h1.vecRows))
theorem Keeps.execVact (h : Keeps s₀ s) {a : Site} {p : Pred} {f : VecF} {hw : HwReport} :
    KeepsOut s₀ (execVact a p f hw s) := Keeps.loaded (h.vec (fun _ h1 => h1.mapwise))
theorem Keeps.execVexp (h : Keeps s₀ s) {a : Site} {p : Pred} {f : VecF} {hw : HwReport} :
    KeepsOut s₀ (execVexp a p f hw s) := Keeps.loaded (h.vec (fun _ h1 => .ite h1.mapwise h1.vecRows))
theorem Keeps.execVred (h : Keeps s₀ s) {a : Site} {p : Pred} {f : VecF} {hw : HwReport} :
    KeepsOut s₀ (execVred a p f hw s) := Keeps.loaded (h.vec (fun _ h1 => h1.twrite.vecDone))
theorem Keeps.execVscan (h : Keeps s₀ s) {a : Site} {p : Pred} {f : VecF} {hw : HwReport} :
    KeepsOut s₀ (execVscan a p f hw s) := Keeps.loaded (h.vec (fun _ h1 => .ite h1.vecRows h1.twrite.vecRows))
theorem Keeps.execVcvt (h : Keeps s₀ s) {a : Site} {p : Pred} {f : VecF} {hw : HwReport} :
    KeepsOut s₀ (execVcvt a p f hw s) :=
  Keeps.loaded (h.vec (fun _ h1 => .ite h1.twrite.twrite.vecDone h1.twrite.vecDone))

/-! #### Attention instructions (Machine/Attention.lean) -/

theorem Keeps.countAblk (h : Keeps s₀ s) {core n cyc gated pads fmt : Nat} {bwd : Bool} :
    Keeps s₀ (s.countAblk core n cyc gated pads fmt bwd) := h.bump.bump.bump.bump.bump.bump.bump.bump
theorem Keeps.ablkDone (h : Keeps s₀ s) {a : Site} {bad : Bool} {num : Nat} {hw : HwReport}
    {chk : Option ChkFail} : Keeps s₀ (s.ablkDone a bad num hw chk) := by
  unfold State.ablkDone
  extract_lets _ _ _ s1 s2 s3 s4
  have hs1 : Keeps s₀ s1 := h.editCore
  have hs2 : Keeps s₀ s2 := .ite hs1 hs1.bump
  have hs3 : Keeps s₀ s3 := .ite hs2.nonfin hs2
  have hs4 : Keeps s₀ s4 := by
    unfold s4
    split
    · exact hs3.logCheck.coreFail.notRelieved
    · exact hs3
  exact hs4.report.advance
theorem Keeps.emptyRows (h : Keeps s₀ s) {a : Site} {rows : List AttRow} : Keeps s₀ (s.emptyRows a rows) := by
  unfold State.emptyRows
  split
  · exact h
  · exact .ite h.bump.put h.bump.put.editCore.event
theorem Keeps.ablkForward (h : Keeps s₀ s) {a : Site} {uq ukv ust fmt bmask scale h' : Nat} {first last : Bool}
    {hw : HwReport} {chk : Option ChkFail} :
    Keeps s₀ (s.ablkForward a uq ukv ust fmt bmask scale h' first last hw chk) :=
  h.twrite.countAblk.emptyRows.ablkDone
theorem Keeps.addPartial (h : Keeps s₀ s) {a : Site} {unit h' : Nat} {g : List AttGrad}
    {pick : AttGrad → List Fv} {x : List (List Fv)} : Keeps s₀ (s.addPartial a unit h' g pick x).1 :=
  .ite h.accWrite.setRecWord.exhausted h.accWrite.setRecWord
theorem Keeps.ablkBackward (h : Keeps s₀ s) {a : Site} {uq ukv ust fmt bmask scale h' : Nat} {first : Bool}
    {hw : HwReport} {chk : Option ChkFail} :
    Keeps s₀ (s.ablkBackward a uq ukv ust fmt bmask scale h' first hw chk) :=
  h.twrite.addPartial.addPartial.countAblk.ablkDone
theorem Keeps.execAblk (h : Keeps s₀ s) {a : Site} {p : Pred} {tsq tskv tsst : Tsop} {fmt : BitVec 4}
    {bmask : BitVec 2} {first last : Bool} {scale : BitVec 16} {hdim : BitVec 4} {bwd : Bool} {hw : HwReport}
    {chk : Option ChkFail} :
    KeepsOut s₀ (execAblk a p tsq tskv tsst fmt bmask first last scale hdim bwd hw chk s) :=
  Keeps.loaded (h.onTile (fun _ h1 => .ite h1.ablkBackward h1.ablkForward))
theorem Keeps.execAsel (h : Keeps s₀ s) {a : Site} {p : Pred} {tsq tssum tslist : Tsop} {qblk : BitVec 17}
    {qlc : BitVec 2} {qlce : Bool} {topk : BitVec 9} {win : BitVec 7} {first last causal : Bool}
    {nsum1 : BitVec 7} {hw : HwReport} :
    KeepsOut s₀ (execAsel a p tsq tssum tslist qblk qlc qlce topk win first last causal nsum1 hw s) := by
  unfold Machine.execAsel
  extract_lets
  refine Keeps.loaded ?_
  refine .onTile h (fun _ h1 => ?_)
  extract_lets _ _ _ _ _ _ _ _ _ _ _ _ _ s1 _ s2 s3 s4 _ s5 s6
  have hs1 : Keeps s₀ s1 := h1.drawn.twrite
  have hs2 : Keeps s₀ s2 := hs1.bump.bump
  have hs3 : Keeps s₀ s3 := hs2.bump.bump
  have hs4 : Keeps s₀ s4 := .ite hs3.bump hs3
  have hs5 : Keeps s₀ s5 := hs4.editCore
  have hs6 : Keeps s₀ s6 := .ite hs5.put.nonfin hs5
  exact hs6.report.advance

/-! #### Control flow (Machine/Control.lean) -/

theorem Keeps.execNop (h : Keeps s₀ s) {a : Site} : KeepsOut s₀ (execNop a s) :=
  Keeps.loaded (h.issue (fun _ h1 => h1.advance))
theorem Keeps.execLoop (h : Keeps s₀ s) {a : Site} {lc : BitVec 2} {csrc : Bool} {sreg : BitVec 5}
    {count : BitVec 32} {body : BitVec 24} : KeepsOut s₀ (execLoop a lc csrc sreg count body s) :=
  Keeps.loaded (h.issue fun _ h1 => h1.guarded fun _ h2 =>
    h2.setStrand fun h0 => Strand.canon_enterLoop (h2.strand _ h0))
theorem Keeps.execPset (h : Keeps s₀ s) {a : Site} {p : Pred} {dstp src cmp : BitVec 3} {sel : BitVec 6}
    {selb : BitVec 3} {imm : BitVec 32} {tsop : Tsop} {word : BitVec 7} :
    KeepsOut s₀ (execPset a p dstp src cmp sel selb imm tsop word s) :=
  Keeps.loaded (h.onTile (fun _ h1 => .advance (h1.setStrand (fun h0 => Strand.canon_setPred (h1.strand _ h0)))))
theorem Keeps.execSkip (h : Keeps s₀ s) {a : Site} {p : Pred} {n : BitVec 8} : KeepsOut s₀ (execSkip a p n s) :=
  Keeps.loaded (h.issue (fun _ h1 => h1.setStrand (fun h0 => Strand.canon_goto (h1.strand _ h0))))
theorem Keeps.noteSlack (h : Keeps s₀ s) {core slack : Nat} : Keeps s₀ (s.noteSlack core slack) := by
  unfold State.noteSlack
  split
  · exact .ite h.frame h
  · exact h.frame
theorem Keeps.execBeat (h : Keeps s₀ s) {a : Site} {slack : Nat} : KeepsOut s₀ (execBeat a slack s) := by
  refine Keeps.loaded (h.issue fun t h1 => .guarded h1 fun _ h2 => ?_)
  have ht (h0 : s₀.canon = true) : ((t.strand a).endSegment.goto ((t.strand a).pc.toNat + 1)).canon = true :=
    Strand.canon_goto (h1.strand a h0)
  refine .ite (h2.noteSlack.setStrand ht) (.switchFrom (h2.noteSlack.setStrand fun h0 => ?_))
  exact (Strand.canon_iff _).2 ((Strand.canon_iff _).1 (ht h0))
theorem Keeps.execHalt (h : Keeps s₀ s) {e : SegmentEnd} : KeepsOut s₀ (execHalt e s) :=
  Keeps.loaded (h.issue fun _ h1 => .switchFrom (h1.noteSlack.setStrandOf h1 (b := e.site)))

/-! #### Links and connections (Machine/Link.lean) -/

theorem Keeps.emitOn (h : Keeps s₀ s) {port : Nat} {f : Frame} : Keeps s₀ (s.emitOn port f) :=
  .ite h.frame.setPort.bump h.frame.setPort
theorem Keeps.rxRaw (h : Keeps s₀ s) {port n : Nat} : Keeps s₀ (s.rxRaw port n) := .ite h.bump h
theorem Keeps.setSession (h : Keeps s₀ s) {x : Session} : Keeps s₀ (s.setSession x) := h.frame
theorem Keeps.rekey (h : Keeps s₀ s) {x : Session} : Keeps s₀ (s.rekey x) := h.setSession.bump.frame
theorem Keeps.dropSessions (h : Keeps s₀ s) {p : Session → Bool} : Keeps s₀ (s.dropSessions p) := h.frame
theorem Keeps.addSession (h : Keeps s₀ s) {node : Nat} {ctx : Option Nat} : Keeps s₀ (s.addSession node ctx) := by
  unfold State.addSession
  split
  · exact h
  · exact h.frame
theorem Keeps.takeXsn (h : Keeps s₀ s) {node : Nat} {ctx : Option Nat} : Keeps s₀ (s.takeXsn node ctx).1 := by
  unfold State.takeXsn
  split
  · exact h
  · exact (Keeps.ite h.rekey h).setSession
theorem Keeps.emitAs (h : Keeps s₀ s) {port node : Nat} {ctx : Option Nat} {f : Frame} :
    Keeps s₀ (s.emitAs port node ctx f) := h.takeXsn.emitOn
theorem Keeps.emitIn (h : Keeps s₀ s) {node : Nat} {ctx : Option Nat} {f : Frame} : Keeps s₀ (s.emitIn node ctx f) := by
  unfold State.emitIn
  split
  · exact h
  · exact h.emitAs
theorem Keeps.closeConn (h : Keeps s₀ s) {i : Nat} : Keeps s₀ (s.closeConn i) := h.setConn
theorem Keeps.recycle (h : Keeps s₀ s) {i : Nat} : Keeps s₀ (s.recycle i) := h.emitIn.closeConn.bump
theorem Keeps.ask (h : Keeps s₀ s) {i : Nat} : Keeps s₀ (s.ask i) := h.setConn.emitIn
theorem Keeps.askAgain (h : Keeps s₀ s) : Keeps s₀ s.askAgain := h.foldl (fun _ _ h1 => .ite h1.ask h1)
theorem Keeps.openTo (h : Keeps s₀ s) {c node : Nat} : Keeps s₀ (s.openTo c node) := by
  unfold State.openTo
  split
  · exact (Keeps.ite h.recycle h).setConn.ask
  · exact .ite h h.frame.event.put
theorem Keeps.sendOn (h : Keeps s₀ s) {i : Nat} {f : Frame} {tag : PktTag} : Keeps s₀ (s.sendOn i f tag) :=
  h.takeXsn.emitOn.setConn
theorem Keeps.discardTo (h : Keeps s₀ s) {node : Nat} : Keeps s₀ (s.discardTo node) :=
  .ite h.bump h.bump.frame.event
theorem Keeps.drainSends (h : Keeps s₀ s) : Keeps s₀ s.drainSends := by
  unfold State.drainSends
  refine .frame (.foldlFst (p := (_, _)) h.frame ?_)
  rintro ⟨t, keep, blocked⟩ w h1
  have hu {c : Prop} [Decidable c] : Keeps s₀ (if c then t.openTo w.ctx w.node else t) := .ite h1.openTo h1
  dsimp only
  split
  · exact .ite h1.discardTo h1
  · split
    · exact h1
    · split
      · exact hu.sendOn
      · exact hu
theorem Keeps.send (h : Keeps s₀ s) {c node : Nat} {fs : List Frame} {tag : PktTag} :
    Keeps s₀ (s.send c node fs tag) := .ite h.discardTo h.frame.drainSends

/-! #### The mailbox (Machine/Mail.lean) -/

theorem Keeps.svcSettle (h : Keeps s₀ s) : Keeps s₀ s.svcSettle := .ite h.frame h
theorem Keeps.mboxEnd (h : Keeps s₀ s) {st : MboxSt} {result len : Nat} : Keeps s₀ (s.mboxEnd st result len) := by
  unfold State.mboxEnd
  extract_lets s1
  have hs1 : Keeps s₀ s1 := by
    unfold s1
    split
    · exact .ite h h.event
    · exact h
  exact hs1.frame.svcSettle
theorem Keeps.writeRecord (h : Keeps s₀ s) {r : FenceRec} {edit : Bool} : Keeps s₀ (s.writeRecord r edit) :=
  h.frame
theorem Keeps.execFenceRecordWritten (h : Keeps s₀ s) : KeepsOut s₀ (execFenceRecordWritten s) := by
  unfold Machine.execFenceRecordWritten
  refine Keeps.next ?_
  split
  · exact h
  · exact .ite h.frame h.frame
theorem Keeps.retireFrame (h : Keeps s₀ s) {f : Nat} : Keeps s₀ (s.retireFrame f) :=
  .ite h.setFrame.bump.event.writeRecord h.setFrame.bump.event

/-! #### The beat unit (Machine/Beat.lean) -/

theorem Keeps.sendMarkerOn (h : Keeps s₀ s) {p : Nat} {str : Option StretchOut} {fns : List FenceNotice} :
    Keeps s₀ (s.sendMarkerOn p str fns) := by
  unfold State.sendMarkerOn
  split
  · exact h
  · exact .ite (h.foldl (fun _ _ h1 => h1.drawn.emitAs)) (.ite h.drawn.emitAs h)
theorem Keeps.sendMarkers (h : Keeps s₀ s) {str : Option StretchOut} {fns : List FenceNotice} :
    Keeps s₀ (s.sendMarkers str fns) := h.foldl (fun _ _ h1 => h1.foldl (fun _ _ h2 => h2.sendMarkerOn))
theorem Keeps.askStretch (h : Keeps s₀ s) : Keeps s₀ s.askStretch :=
  .ite h.frame (.ite h.contribute.event h.frame)
theorem Keeps.overrunPolicy (h : Keeps s₀ s) : Keeps s₀ s.overrunPolicy := .ite h.contribute h.askStretch
theorem Keeps.recordOverrun (h : Keeps s₀ s) {strand cycles core : Nat} :
    Keeps s₀ (s.recordOverrun strand cycles core) := h.put.event
theorem Keeps.execSegmentOverrun (h : Keeps s₀ s) {a : Site} {cycles : BitVec 16} :
    KeepsOut s₀ (execSegmentOverrun a cycles s) :=
  (Keeps.ite h.editStrand.recordOverrun.noteSlack.overrunPolicy h).next
theorem Keeps.verdictOverrun (h : Keeps s₀ s) : Keeps s₀ s.verdictOverrun :=
  .ite h.drawn.recordOverrun.askStretch h
theorem Keeps.guardStart (h : Keeps s₀ s) : Keeps s₀ s.guardStart := by
  unfold State.guardStart
  refine .ite ?_ ?_
  · exact h
  · split
    · exact h.frame.bump.event
    · exact h.verdictOverrun.frame
theorem Keeps.execGuardStart (h : Keeps s₀ s) : KeepsOut s₀ (execGuardStart s) := h.guardStart.next
theorem Keeps.execHoldoverEntry (h : Keeps s₀ s) : KeepsOut s₀ (execHoldoverEntry s) :=
  (Keeps.ite h.frame h).next
theorem Keeps.detach (h : Keeps s₀ s) : Keeps s₀ s.detach :=
  h.update fun h0 => { h.tables h0 with peers := rfl }
theorem Keeps.abortJoin (h : Keeps s₀ s) {result : Nat} : Keeps s₀ (s.abortJoin result) := by
  unfold State.abortJoin
  extract_lets
  split
  · exact h.editCtx.mboxEnd
  · exact h.editCtx.mboxEnd
  · exact h
theorem Keeps.execAcquireTimeout (h : Keeps s₀ s) : KeepsOut s₀ (execAcquireTimeout s) :=
  (Keeps.ite h.event.detach.abortJoin h).next
theorem Keeps.execMarkerSilence (h : Keeps s₀ s) {p : Fin 17} : KeepsOut s₀ (execMarkerSilence p s) := by
  unfold Machine.execMarkerSilence
  refine Keeps.next ?_
  split
  · exact .ite h (.ite h.put h.put.setPeer.event)
  · exact h
theorem Keeps.execMarkerLoss (h : Keeps s₀ s) : KeepsOut s₀ (execMarkerLoss s) :=
  (Keeps.ite h.selfFence h).next
theorem Keeps.execOffsetLimit (h : Keeps s₀ s) : KeepsOut s₀ (execOffsetLimit s) :=
  (Keeps.ite h.selfFence h).next
theorem Keeps.execWatchSilence (h : Keeps s₀ s) {node : BitVec 15} : KeepsOut s₀ (execWatchSilence node s) := by
  unfold Machine.execWatchSilence
  refine Keeps.next ?_
  split
  · exact h
  · exact .ite h.frame h
theorem Keeps.execHangDetect (h : Keeps s₀ s) {a : Site} : KeepsOut s₀ (execHangDetect a s) :=
  (Keeps.ite h.selfFence h).next
theorem Keeps.execJoinDeadline (h : Keeps s₀ s) : KeepsOut s₀ (execJoinDeadline s) := by
  unfold Machine.execJoinDeadline
  refine Keeps.next ?_
  split
  · split
    · exact .ite h.editCtx.event.selfFence h
    · exact h
  · exact h
theorem Keeps.holdNotice (h : Keeps s₀ s) {sender : Nat} {n : FenceNotice} : Keeps s₀ (s.holdNotice sender n) :=
  h.frame
theorem Keeps.fenceLate (h : Keeps s₀ s) {x : Nat} : Keeps s₀ (s.fenceLate x) := h.put.event.selfFence
theorem Keeps.judgeQuorum (h : Keeps s₀ s) {x c : Nat} : Keeps s₀ (s.judgeQuorum x c) := by
  unfold State.judgeQuorum
  refine .ite ?_ ?_
  · exact h
  · split
    · exact h
    · refine .ite ?_ ?_
      · exact .ite h h.fenceLate
      · exact .ite h.frame h.frame.holdNotice.sendMarkers
theorem Keeps.takeNotice (h : Keeps s₀ s) {sender : Nat} {n : FenceNotice} : Keeps s₀ (s.takeNotice sender n) := by
  unfold State.takeNotice
  extract_lets _ _ _ s1 s2 s3
  have hs1 : Keeps s₀ s1 := h.holdNotice
  have hs2 : Keeps s₀ s2 := .ite hs1.sendMarkers hs1
  have hs3 : Keeps s₀ s3 := .ite hs2 hs2.event
  refine .ite ?_ ?_
  · exact h
  · exact .ite (.ite hs3.selfFence (.ite hs3.fenceLate hs3)) hs3.judgeQuorum
theorem Keeps.takeStretch (h : Keeps s₀ s) {m : Marker} : Keeps s₀ (s.takeStretch m) := by
  unfold State.takeStretch
  extract_lets
  split
  · exact .ite h.frame (.ite h.put.event.selfFence h.frame.sendMarkers)
  · exact h
theorem Keeps.assign (h : Keeps s₀ s) {f : Pairing} {k : Nat} : Keeps s₀ (s.assign f k) := by
  unfold State.assign
  extract_lets _ s1
  have hs1 : Keeps s₀ s1 := h.frame
  refine hs1.foldl fun _ _ h1 => ?_
  split
  · exact h1.addSession.setPeer
  · exact h1.addSession.setPeer
  · exact h1.setPeer
theorem Keeps.reassign (h : Keeps s₀ s) {p bad : Nat} : Keeps s₀ (s.reassign p bad) := by
  unfold State.reassign
  extract_lets
  split
  · exact .ite (.ite h.detach.abortJoin h) h.assign
  · exact .ite h.detach.abortJoin h
theorem Keeps.takeDelay (h : Keeps s₀ s) {p : Nat} {m : Marker} : Keeps s₀ (s.takeDelay p m) := by
  unfold State.takeDelay
  split
  · exact .ite h.setPeer (.ite h.setPeer.put.event.reassign h.setPeer.put)
  · exact h
theorem Keeps.takeOffset (h : Keeps s₀ s) {m : Marker} : Keeps s₀ (s.takeOffset m) :=
  .ite h.frame.put.put.put.event h.frame.put.put
theorem Keeps.takeRef (h : Keeps s₀ s) {m : Marker} : Keeps s₀ (s.takeRef m) := by
  unfold State.takeRef
  extract_lets _ s1 _ s2
  have hs1 : Keeps s₀ s1 := h.frame
  have hs2 : Keeps s₀ s2 := by
    unfold s2
    split
    · exact .ite hs1.frame hs1
    · exact .ite hs1.frame hs1
    · exact hs1
  exact .ite hs2.frame.takeOffset hs2
theorem Keeps.execMarkerReceive (h : Keeps s₀ s) {peer : Fin 17} {auth : Bool} {m : Marker} :
    KeepsOut s₀ (execMarkerReceive peer auth m s) := by
  unfold Machine.execMarkerReceive
  extract_lets _ s1
  have hs1 : Keeps s₀ s1 := .ite h.bump h
  refine Keeps.next ?_
  split
  · exact h
  · refine .ite ?_ ?_
    · exact h
    · refine .ite ?_ ?_
      · exact hs1.bump
      · refine .ite ?_ ?_
        · exact hs1
        · refine .ite ?_ ?_
          · exact hs1.event.detach.abortJoin
          · extract_lets _ s2 s3 _ s4 s5
            have hs2 : Keeps s₀ s2 := hs1.setPeer
            have hs3 : Keeps s₀ s3 := hs2.takeDelay
            have hs4 : Keeps s₀ s4 := .ite hs3.takeRef hs3
            have hs5 : Keeps s₀ s5 := hs4.takeStretch
            exact .ite hs3 (hs5.foldl (fun _ _ h1 => h1.takeNotice))

/-! #### Page tables (Machine/PageTab.lean) -/

theorem Keeps.setRec (h : Keeps s₀ s) {tier n ref st stream block beat : Nat} :
    Keeps s₀ (s.setRec tier n ref st stream block beat) := by
  unfold State.setRec
  split
  · exact h.store
  · exact h
theorem Keeps.takePage (h : Keeps s₀ s) {tier n stream block : Nat} : Keeps s₀ (s.takePage tier n stream block) := by
  unfold State.takePage
  split
  · exact h.setRec.store
  · exact h
theorem Keeps.quarantine (h : Keeps s₀ s) {tier n beat : Nat} : Keeps s₀ (s.quarantine tier n beat) := h.setRec
theorem Keeps.dropRef (h : Keeps s₀ s) {tier n beat : Nat} {from_ : Nat × Nat} :
    Keeps s₀ (s.dropRef tier n beat from_) := .ite h.setRec h.setRec
theorem Keeps.noteEntry (h : Keeps s₀ s) {stream b : Nat} : Keeps s₀ (s.noteEntry stream b) := by
  unfold State.noteEntry
  split
  · exact h.event.put
  · exact h
theorem Keeps.setEntryWord (h : Keeps s₀ s) {stream b w : Nat} : Keeps s₀ (s.setEntryWord stream b w) := by
  unfold State.setEntryWord
  split
  · exact h.store
  · exact h
theorem Keeps.setEntry (h : Keeps s₀ s) {stream b tier n fill : Nat} : Keeps s₀ (s.setEntry stream b tier n fill) :=
  h.setEntryWord
theorem Keeps.touchPage (h : Keeps s₀ s) {tier n : Nat} : Keeps s₀ (s.touchPage tier n) := by
  unfold State.touchPage
  extract_lets s1
  have hs1 : Keeps s₀ s1 := by
    unfold s1
    split
    · exact h.touch
    · exact h
  exact .ite hs1.setRec hs1
theorem Keeps.viewNote (h : Keeps s₀ s) {p : ViewPage} : Keeps s₀ (s.viewNote p) := by
  unfold State.viewNote
  split
  · exact h.noteEntry.bump
  · exact h.touchPage
  · exact h.bump.touchPage
  · exact h.bump.event.put
  · exact h
theorem Keeps.fetchPage (h : Keeps s₀ s) {node slot layer head block : Nat} {tag : PktTag} :
    Keeps s₀ (s.fetchPage node slot layer head block tag) := by
  unfold State.fetchPage
  split
  · exact h
  · exact h.send.frame.bump
theorem Keeps.evictCached (h : Keeps s₀ s) {p : CachedPage} : Keeps s₀ (s.evictCached p) := h.quarantine
theorem Keeps.cachePage (h : Keeps s₀ s) {node stream block : Nat} {bs : List Byte} :
    Keeps s₀ (s.cachePage node stream block bs) := by
  unfold State.cachePage
  split
  · exact h
  · refine .ite ?_ ?_
    · exact h
    · extract_lets _ s1
      have hs1 : Keeps s₀ s1 := by
        refine .ite ?_ ?_
        · split
          · exact h.frame.evictCached
          · exact h
        · exact h
      split
      · exact hs1
      · exact hs1.setRec.store.frame

/-! #### Prefetches (Machine/Prefetch.lean) -/

theorem Keeps.newPrefetch (h : Keeps s₀ s) {p : Prefetch} : Keeps s₀ (s.newPrefetch p) := h.frame
theorem Keeps.setPrefetch (h : Keeps s₀ s) {p : Prefetch} : Keeps s₀ (s.setPrefetch p) := h.frame
theorem Keeps.execPfh (h : Keeps s₀ s) {a : Site} {p : Pred} {mop : Mop} {dl : BitVec 16} {part : BitVec 3}
    {so : BitVec 13} {soen : Bool} {slot : BitVec 6} {fallback : BitVec 2} :
    KeepsOut s₀ (execPfh a p mop dl part so soen slot fallback s) := by
  unfold Machine.execPfh
  refine Keeps.loaded ?_
  refine .issue h (fun _ h1 => ?_)
  extract_lets
  refine .ite ?_ ?_
  · exact h1
  · exact h1.guarded (fun _ h2 => .ite h2 h2.touch.newPrefetch.advance)
theorem Keeps.pfDeliver (h : Keeps s₀ s) {c : Nat} {p : Prefetch} {hi : Nat} : Keeps s₀ (s.pfDeliver c p hi).1 :=
  .iteFst h h.touch.store
theorem Keeps.pfSignal (h : Keeps s₀ s) {p : Prefetch} : Keeps s₀ (s.pfSignal p) := by
  unfold State.pfSignal
  split
  · exact h.soAdd
  · exact h
theorem Keeps.execPrefetchComplete (h : Keeps s₀ s) {a : Site} {slot : BitVec 6} {runAhead : Nat} :
    KeepsOut s₀ (execPrefetchComplete a slot runAhead s) := by
  unfold Machine.execPrefetchComplete
  extract_lets
  refine Keeps.next ?_
  split
  · refine .ite ?_ ?_
    · exact h
    · extract_lets r _ q _ t
      have hr : Keeps s₀ r.1 := h.pfDeliver
      have hq : Keeps s₀ q.1 := hr.pfDeliver
      have ht : Keeps s₀ t := hq.setPrefetch
      split
      · exact ht.pfSignal.bump
      · exact ht.pfSignal
      · exact ht
  · exact h
theorem Keeps.execPrefetchDrop (h : Keeps s₀ s) {a : Site} {slot : BitVec 6} :
    KeepsOut s₀ (execPrefetchDrop a slot s) := by
  unfold Machine.execPrefetchDrop
  extract_lets
  refine Keeps.next ?_
  split
  · extract_lets _ _ r _ _ t s1 _ _ s2
    have hr : Keeps s₀ r.1 := h.pfDeliver
    have ht : Keeps s₀ t := .ite hr.setPrefetch.pfSignal hr.setPrefetch
    have hs1 : Keeps s₀ s1 := ht.bump
    have hs2 : Keeps s₀ s2 := hs1.editCore
    exact .ite h (.ite hs1 hs2.event.put)
  · exact h
theorem Keeps.takeFallback (h : Keeps s₀ s) {p : Prefetch} {delivered : Nat} :
    Keeps s₀ (s.takeFallback p delivered) := by
  unfold State.takeFallback
  extract_lets _ _ r _ _ _ s1 s2 s3 _ _ s4
  have hr : Keeps s₀ r.1 := h.pfDeliver
  have hs1 : Keeps s₀ s1 := hr.setPrefetch
  have hs2 : Keeps s₀ s2 := hs1.contribute.bump
  have hs3 : Keeps s₀ s3 := .ite hs2 hs2.pfSignal
  have hs4 : Keeps s₀ s4 := hs3.editCore
  exact .ite hs3 hs4.event.put
theorem Keeps.takeDeadlines (h : Keeps s₀ s) : Keeps s₀ s.takeDeadlines :=
  h.foldl (fun _ _ h1 => h1.drawn.takeFallback)
theorem Keeps.refetch (h : Keeps s₀ s) {c : Nat} {p : Prefetch} {g : Nat} : Keeps s₀ (s.refetch c p g) :=
  h.store.bump.frame
theorem Keeps.refetchAll (h : Keeps s₀ s) {c va n : Nat} : Keeps s₀ (s.refetchAll c va n) :=
  h.foldl (fun _ _ h1 => h1.refetch)
theorem Keeps.staleError (h : Keeps s₀ s) {a : Site} {c : Nat} {p : Prefetch} : Keeps s₀ (s.staleError a c p) :=
  h.event.put.strandError

/-! #### Data movement (Machine/Moves.lean) -/

theorem Keeps.resolve (h : Keeps s₀ s) {a : Site} {pages : List Nat} : Keeps s₀ (s.resolve a pages).1 := by
  refine .foldlFst h ?_
  rintro ⟨t, got, tags, frames⟩ pg h1
  dsimp only
  split
  · exact h1.fetchPage
  · exact h1.viewNote
theorem Keeps.holdFrames (h : Keeps s₀ s) {fs : List (Nat × Nat)} : Keeps s₀ (s.holdFrames fs) := h.frame
theorem Keeps.dropFrames (h : Keeps s₀ s) {fs : List (Nat × Nat)} : Keeps s₀ (s.dropFrames fs) := h.frame
theorem Keeps.readBytes (h : Keeps s₀ s) {c : Nat} {rs : List (Nat × Nat)} {got : List (Nat × List Byte)}
    {pool : List (Nat × Nat)} : Keeps s₀ (s.readBytes c rs got pool).1 :=
  h.foldl (fun _ _ h1 => .ite h1 h1.refetchAll.touch)
theorem Keeps.countRead (h : Keeps s₀ s) {a : Site} {c : Nat} {narrow : Bool} {rs : List (Nat × Nat)} :
    Keeps s₀ (s.countRead a c narrow rs) := .ite (h.portTraffic.foldl (fun _ _ h1 => h1.bump)) h.portTraffic
theorem Keeps.finishRead (h : Keeps s₀ s) {a : Site} {i : Instr} {hw : HwReport} {got : List (Nat × List Byte)}
    {frames pool : List (Nat × Nat)} {narrow : Bool} : Keeps s₀ (s.finishRead a i hw got frames pool narrow) :=
  h.readBytes.twrite.dropFrames.countRead.report.advance
theorem Keeps.demandRead (h : Keeps s₀ s) {a : Site} {i : Instr} {hw : HwReport} {narrow : Bool} :
    Keeps s₀ (s.demandRead a i hw narrow) := by
  unfold State.demandRead
  extract_lets
  split
  · exact h.staleError
  · refine .ite ?_ ?_
    · exact h
    · refine .ite ?_ ?_
      · exact h.resolve.finishRead
      · extract_lets s1
        have hs1 : Keeps s₀ s1 := h.resolve.holdFrames
        exact .ite hs1.editStrand.switchFrom hs1.editStrand
theorem Keeps.execLdt (h : Keeps s₀ s) {a : Site} {p : Pred} {tsop : Tsop} {mop : Mop} {len : BitVec 13}
    {part : BitVec 3} {hw : HwReport} : KeepsOut s₀ (execLdt a p tsop mop len part hw s) :=
  Keeps.loaded (h.onTile (fun _ h1 => h1.demandRead))
theorem Keeps.execGth (h : Keeps s₀ s) {a : Site} {p : Pred} {tsop : Tsop} {mop : Mop} {len : BitVec 13}
    {part : BitVec 3} {tsop2 : Tsop} {hw : HwReport} : KeepsOut s₀ (execGth a p tsop mop len part tsop2 hw s) :=
  Keeps.loaded (h.onTile (fun _ h1 => h1.demandRead))
theorem Keeps.execStt (h : Keeps s₀ s) {a : Site} {p : Pred} {tsop : Tsop} {mop : Mop} {len : BitVec 13}
    {part : BitVec 3} {hw : HwReport} : KeepsOut s₀ (execStt a p tsop mop len part hw s) :=
  Keeps.loaded (h.onTile (fun _ h1 => .ite h1 h1.store.portTraffic.report.advance))
theorem Keeps.scatter (h : Keeps s₀ s) {c : Nat} {bs : List Byte} {k : Nat} {gs : List Nat} :
    Keeps s₀ (s.scatter c bs k gs) := by
  induction gs generalizing s k with
  | nil => exact h
  | cons g gs ih => exact ih h.store
theorem Keeps.finishScatter (h : Keeps s₀ s) {a : Site} {tsop : Tsop} {mop : Mop} {len : Nat} {op2 : Tsop}
    {hw : HwReport} : Keeps s₀ (s.finishScatter a tsop mop len op2 hw) :=
  (h.scatter.portTraffic.foldl (fun _ _ h1 => h1.bump)).report.advance
theorem Keeps.execSct (h : Keeps s₀ s) {a : Site} {p : Pred} {tsop : Tsop} {mop : Mop} {len : BitVec 13}
    {part : BitVec 3} {tsop2 : Tsop} {hw : HwReport} : KeepsOut s₀ (execSct a p tsop mop len part tsop2 hw s) :=
  Keeps.loaded (h.onTile (fun _ h1 => .ite h1 (.ite h1.editStrand.switchFrom h1.finishScatter)))
theorem Keeps.finishHeld (h : Keeps s₀ s) {a : Site} {h' : HeldRead} : Keeps s₀ (s.finishHeld a h') := by
  unfold State.finishHeld
  extract_lets _ s1
  have hs1 : Keeps s₀ s1 := h.editStrand
  split
  · exact hs1.finishRead
  · exact hs1.finishRead.woken
  · exact hs1.finishScatter.woken
  · exact hs1
theorem Keeps.execNarrowMissReturn (h : Keeps s₀ s) {a : Site} : KeepsOut s₀ (execNarrowMissReturn a s) := by
  unfold Machine.execNarrowMissReturn
  extract_lets
  refine Keeps.next ?_
  split
  · exact .ite h.finishHeld h
  · exact h
theorem Keeps.execXfer (h : Keeps s₀ s) {a : Site} {p : Pred} {tsop : Tsop} {mop : Mop} {node : NodeOp}
    {len : BitVec 13} {part : BitVec 3} {hw : HwReport} :
    KeepsOut s₀ (execXfer a p tsop mop node len part hw s) := by
  unfold Machine.execXfer
  extract_lets
  refine Keeps.loaded ?_
  refine .onTile h (fun _ h1 => ?_)
  extract_lets
  refine .ite ?_ ?_
  · exact .ite h1 h1.store.portTraffic.report.advance
  · exact h1.send.portTraffic.report.advance

/-! #### The page pool (Machine/Pages.lean) -/

theorem Keeps.kvWriteRows (h : Keeps s₀ s) {c va : Nat} {r : Roots} {v : Bool} {row : Nat}
    {rows : List (List Byte × List Byte)} : Keeps s₀ (s.kvWriteRows c va r v row rows) := by
  induction rows generalizing s row with
  | nil => exact h
  | cons x rows ih => exact ih (.ite h.store h.store.store)
theorem Keeps.kvWrite (h : Keeps s₀ s) {a : Site} {k : KvArgs} {hw : HwReport} {tier n : Nat} :
    Keeps s₀ (s.kvWrite a k hw tier n) := by
  unfold State.kvWrite
  split
  · exact h
  · extract_lets _ _ _ _ s1 _ _ s2 s3 s4 s5 s6 s7
    have hs1 : Keeps s₀ s1 := h.kvWriteRows
    have hs2 : Keeps s₀ s2 := hs1.setEntry
    have hs3 : Keeps s₀ s3 := hs2.store
    have hs4 : Keeps s₀ s4 := hs3.touchPage
    have hs5 : Keeps s₀ s5 := .ite hs4 hs4.store
    have hs6 : Keeps s₀ s6 := hs5.bump
    have hs7 : Keeps s₀ s7 := .ite hs6.bump.setRecWord.nonfin hs6
    exact hs7.report.advance
theorem Keeps.kvHold (h : Keeps s₀ s) {a : Site} {i : Instr} {k : KvArgs} {moving : Bool} :
    Keeps s₀ (s.kvHold a i k moving) := (Keeps.ite h h.event.put).editStrand
theorem Keeps.copyOnWrite (h : Keeps s₀ s) {c : Nat} {r : Roots} {stream b tier n fill tier' n' : Nat} :
    Keeps s₀ (s.copyOnWrite c r stream b tier n fill tier' n') := h.setRec.store.setEntry.dropRef.bump
theorem Keeps.kvAppend (h : Keeps s₀ s) {a : Site} {i : Instr} {k : KvArgs} {hw : HwReport} :
    Keeps s₀ (s.kvAppend a i k hw) := by
  unfold State.kvAppend
  split
  · exact h
  · extract_lets
    split
    · refine .ite ?_ ?_
      · split
        · exact h.copyOnWrite.editStrand.kvWrite
        · exact h.kvHold
      · exact .ite h.kvHold h.editStrand.kvWrite
    · split
      · exact h.noteEntry.takePage.setEntry.editStrand.kvWrite
      · exact h.kvHold
theorem Keeps.kvRefuse (h : Keeps s₀ s) {a : Site} {k : KvArgs} : Keeps s₀ (s.kvRefuse a k) :=
  h.bump.put.event.advance
theorem Keeps.execKvapp (h : Keeps s₀ s) {a : Site} {p : Pred} {tsacc tsx : Tsop} {slot : BitVec 8}
    {layer : BitVec 10} {head : BitVec 6} {kv : Bool} {pos : BitVec 24} {plc : BitVec 2} {plce : Bool}
    {rows1 : BitVec 7} {fmt : BitVec 4} {hw : HwReport} :
    KeepsOut s₀ (execKvapp a p tsacc tsx slot layer head kv pos plc plce rows1 fmt hw s) := by
  unfold Machine.execKvapp
  extract_lets
  refine Keeps.loaded ?_
  refine .onTile h (fun _ h1 => ?_)
  split
  · exact .ite h1.kvRefuse h1.kvAppend
  · exact h1
theorem Keeps.execKvappResume (h : Keeps s₀ s) {a : Site} : KeepsOut s₀ (execKvappResume a s) := by
  unfold Machine.execKvappResume
  refine Keeps.next ?_
  split
  · exact h
  · split
    · exact h.kvAppend
    · exact h
theorem Keeps.execKvPoolTimeout (h : Keeps s₀ s) {a : Site} : KeepsOut s₀ (execKvPoolTimeout a s) := by
  unfold Machine.execKvPoolTimeout
  refine Keeps.next ?_
  split
  · exact h
  · exact .ite h.editStrand.strandError h
theorem Keeps.shareBlock (h : Keeps s₀ s) {src dst b : Nat} : Keeps s₀ (s.shareBlock src dst b).1 := by
  unfold State.shareBlock
  extract_lets s1 copy release s2
  have hs1 : Keeps s₀ s1 := h.noteEntry.noteEntry
  have hs2 : Keeps s₀ s2 := by
    refine .setEntryWord ?_
    unfold release
    split
    · exact hs1.dropRef
    · exact hs1
  split
  · exact .iteFst hs1 (.iteFst hs1.event.put hs2.setRec)
  · exact hs2
theorem Keeps.beginMove (h : Keeps s₀ s) {tier n n' : Nat} : Keeps s₀ (s.beginMove tier n n') :=
  h.setRec.setRec.frame
theorem Keeps.promoteBlock (h : Keeps s₀ s) {stream b : Nat} : Keeps s₀ (s.promoteBlock stream b).1 := by
  unfold State.promoteBlock
  extract_lets s1
  have hs1 : Keeps s₀ s1 := h.noteEntry
  split
  · split
    · exact hs1
    · split
      · exact hs1
      · split
        · exact hs1.beginMove
        · exact hs1
  · exact hs1
theorem Keeps.ringBlocks (h : Keeps s₀ s) {x : RingRec} : Keeps s₀ (s.ringBlocks x).1 := by
  unfold State.ringBlocks
  refine .foldlFst h fun _ _ h1 => ?_
  extract_lets _ src _ r
  have hsrc : Keeps s₀ src := h1
  have hr : Keeps s₀ r.1 := by
    unfold r
    split
    · exact h1.shareBlock
    · exact h1.promoteBlock
    · exact hsrc.frame
  exact hr
theorem Keeps.ringCommand (h : Keeps s₀ s) {op : Nat} : Keeps s₀ (s.ringCommand op) := by
  unfold State.ringCommand
  split
  · exact h
  · refine .ite h (.ite h ?_)
    split
    case _ e =>
    have h1 := Keeps.ofPair e (.iteFst h.event.put h.ringBlocks)
    exact h1.store.put.soAdd
theorem Keeps.execShare (h : Keeps s₀ s) : KeepsOut s₀ (execShare s) := h.ringCommand.next
theorem Keeps.execFree (h : Keeps s₀ s) : KeepsOut s₀ (execFree s) := h.ringCommand.next
theorem Keeps.execPromote (h : Keeps s₀ s) : KeepsOut s₀ (execPromote s) := h.ringCommand.next
theorem Keeps.freeBlock (h : Keeps s₀ s) {stream b : Nat} : Keeps s₀ (s.freeBlock stream b) := by
  unfold State.freeBlock
  extract_lets s1 s2
  have hs1 : Keeps s₀ s1 := h.noteEntry
  have hs2 : Keeps s₀ s2 := by
    unfold s2
    split
    · exact hs1.dropRef
    · exact hs1
  exact hs2.setEntryWord
theorem Keeps.applyFrees (h : Keeps s₀ s) : Keeps s₀ s.applyFrees :=
  (h.foldl (fun _ _ h1 => .ite h1.frame h1.freeBlock)).frame
theorem Keeps.execKvMoveDone (h : Keeps s₀ s) {frame : Nat} : KeepsOut s₀ (execKvMoveDone frame s) := by
  unfold Machine.execKvMoveDone
  extract_lets
  refine Keeps.next ?_
  split
  · extract_lets _ s1 s2 s3 s4 s5 _ _ s6
    have hs1 : Keeps s₀ s1 := h.store
    have hs2 : Keeps s₀ s2 := hs1.setRec
    have hs3 : Keeps s₀ s3 := hs2.setEntry
    have hs4 : Keeps s₀ s4 := hs3.setRec
    have hs5 : Keeps s₀ s5 := .ite hs4.bump hs4
    have hs6 : Keeps s₀ s6 := hs5.frame
    exact .ite hs6.freeBlock hs6
  · exact h
theorem Keeps.execKvQuarantineRelease (h : Keeps s₀ s) {frame : Nat} :
    KeepsOut s₀ (execKvQuarantineRelease frame s) := by
  unfold Machine.execKvQuarantineRelease
  extract_lets
  refine Keeps.next ?_
  split
  · exact h
  · exact .ite h (.ite h.event.put h.setRec)
theorem Keeps.releasePages (h : Keeps s₀ s) : Keeps s₀ s.releasePages := by
  unfold State.releasePages
  split
  · exact h
  · exact (Keeps.ite h.event.put h).foldl (fun _ _ h1 => .ite h1 h1.setRec)
theorem Keeps.resetRing (h : Keeps s₀ s) : Keeps s₀ s.resetRing := by
  unfold State.resetRing
  split
  · exact h
  · exact h.put
theorem Keeps.agePages (h : Keeps s₀ s) : Keeps s₀ s.agePages := by
  unfold State.agePages
  split
  · exact h
  · refine .ite ?_ ?_
    · refine h.foldl fun _ _ h1 => ?_
      split
      · exact h1.beginMove
      · exact h1
    · exact h

/-! #### Weight updates (Machine/Update.lean) -/

theorem Keeps.storeWork (h : Keeps s₀ s) {c va wfmt n b : Nat} {el sc : List Byte} :
    Keeps s₀ (s.storeWork c va wfmt n b el sc) := .ite (.ite h h.store) (Keeps.ite h h.store).store
theorem Keeps.execUpd (h : Keeps s₀ s) {a : Site} {p : Pred} {mop : Mop} {gate : BitVec 13}
    {target : BitVec 16} {done : BitVec 13} : KeepsOut s₀ (execUpd a p mop gate target done s) :=
  Keeps.loaded (h.onTile (fun _ h1 => .ite h1 h1.editGroup.frame.advance))
theorem Keeps.teeRange (h : Keeps s₀ s) {c g job : Nat} {nodes : List Nat} {at_ : Nat} {bs : List Byte} :
    Keeps s₀ (s.teeRange c g job nodes at_ bs) := .ite h (h.foldl (fun _ _ h1 => h1.send.bump))
theorem Keeps.setJob (h : Keeps s₀ s) {g : Nat} {j : UpdJob} : Keeps s₀ (s.setJob g j) := h.editGroup
theorem Keeps.dropJob (h : Keeps s₀ s) {g id : Nat} : Keeps s₀ (s.dropJob g id) := h.editGroup
theorem Keeps.jobError (h : Keeps s₀ s) {g kind layer off done : Nat} :
    Keeps s₀ (s.jobError g kind layer off done) := h.put.event.soAdd.programError
theorem Keeps.stepSkew (h : Keeps s₀ s) {g load layer stamp : Nat} : Keeps s₀ (s.stepSkew g load layer stamp) :=
  h.put.event.contribute
theorem Keeps.watchLayer (h : Keeps s₀ s) {layer : Nat} {zero : Bool} : Keeps s₀ (s.watchLayer layer zero) :=
  h.frame
theorem Keeps.saturates (h : Keeps s₀ s) {g layer n : Nat} : Keeps s₀ (s.saturates g layer n) :=
  .ite h (.ite h.bump.put h.bump.put.editGroup.event)
theorem Keeps.streamBlock (h : Keeps s₀ s) {c : Nat} {d : UpdDesc} {u : UpdK} {pl : List (Nat × Nat)} {b : Nat} :
    Keeps s₀ (s.streamBlock c d u pl b).1 := (h.foldl (fun _ _ h1 => h1.store)).storeWork
theorem Keeps.streamFactor (h : Keeps s₀ s) {c : Nat} {d : UpdDesc} {u : UpdK} {adopt : Bool × Bool} {i : Nat}
    {e : Nat × Nat} : Keeps s₀ (s.streamFactor c d u adopt i e).1 := by
  refine .foldlFst (p := (_, _)) h fun _ _ h1 => ?_
  dsimp only
  exact h1.store
theorem Keeps.streamShard (h : Keeps s₀ s) {c : Nat} {d : UpdDesc} {pl : List (Nat × Nat)} :
    Keeps s₀ (s.streamShard c d pl).1 := by
  unfold State.streamShard
  extract_lets u adopt z a f
  have ha : Keeps s₀ a.1 := .foldlFst h fun _ _ h1 => h1.streamBlock
  exact .foldlFst ha fun _ _ h1 => h1.streamFactor
theorem Keeps.streamJob (h : Keeps s₀ s) {g c : Nat} {j : UpdJob} {d : UpdDesc} {h' : ShardHead} :
    Keeps s₀ (s.streamJob g c j d h') := by
  unfold State.streamJob
  extract_lets _ _ _ s1 _ r _ _ _ _ src s2 s3 _ s4 s5 s6 _ s7 s8 s9 s10 _ _ s11
  have hs1 : Keeps s₀ s1 := h.foldl (fun _ _ h1 => h1.refetchAll.touch)
  have hr : Keeps s₀ r.1 := hs1.streamShard
  have hsrc : Keeps s₀ src := hr
  have hs2 : Keeps s₀ s2 := hsrc.frame
  have hs3 : Keeps s₀ s3 := hs2.store
  have hs4 : Keeps s₀ s4 := hs3.foldl (fun _ _ h1 => h1.teeRange)
  have hs5 : Keeps s₀ s5 := hs4.bump
  have hs6 : Keeps s₀ s6 := .ite hs5.teeRange hs3
  have hs7 : Keeps s₀ s7 := hs6.portTraffic
  have hs8 : Keeps s₀ s8 := hs7.portTraffic
  have hs9 : Keeps s₀ s9 := hs8.bump.saturates
  have hs10 : Keeps s₀ s10 := .ite hs9 hs9.watchLayer
  have hs11 : Keeps s₀ s11 := hs10.frame
  exact hs11.setJob
theorem Keeps.startJob (h : Keeps s₀ s) {g c : Nat} {j : UpdJob} : Keeps s₀ (s.startJob g c j) := by
  unfold State.startJob
  extract_lets _ _ _ _ _ _ s1
  have hs1 : Keeps s₀ s1 := h.setJob
  split
  · exact h.dropJob.jobError
  · refine .ite ?_ ?_
    · exact h.dropJob.stepSkew.soAdd
    · exact .ite (.ite hs1 hs1.put.event) h.streamJob
theorem Keeps.execUpdJobStart (h : Keeps s₀ s) {g : Fin 12} {job : Nat} {hw : HwReport} :
    KeepsOut s₀ (execUpdJobStart g job hw s) := by
  unfold Machine.execUpdJobStart
  extract_lets
  refine Keeps.next ?_
  split
  · exact h
  · refine .ite ?_ ?_
    · exact h.dropJob
    · refine .ite ?_ ?_
      · exact h
      · split
        · exact h
        · exact .ite (h.startJob.foldl (fun _ _ h1 => h1.eccError)) h
theorem Keeps.execUpdJobComplete (h : Keeps s₀ s) {g : Fin 12} {job : Nat} :
    KeepsOut s₀ (execUpdJobComplete g job s) := by
  unfold Machine.execUpdJobComplete
  extract_lets
  refine Keeps.next ?_
  split
  · exact h
  · exact .ite h.dropJob.soAdd.bump.bump h
theorem Keeps.deriveWork (h : Keeps s₀ s) {c desc : Nat} : Keeps s₀ (s.deriveWork c desc) :=
  h.foldl (fun _ _ h1 => h1.storeWork)

/-! #### Services (Machine/Services.lean) -/

theorem Keeps.learn (h : Keeps s₀ s) {src : BitVec 128} {mac : BitVec 48} : Keeps s₀ (s.learn src mac) :=
  h.frame
theorem Keeps.solicit (h : Keeps s₀ s) {port : Nat} {hop : BitVec 128} : Keeps s₀ (s.solicit port hop) :=
  h.emitOn
theorem Keeps.setNvme (h : Keeps s₀ s) {o : NvmeOp} : Keeps s₀ (s.setNvme o) := h.frame
theorem Keeps.dropNvme (h : Keeps s₀ s) {id : Nat} : Keeps s₀ (s.dropNvme id) := h.frame
theorem Keeps.setTcp (h : Keeps s₀ s) {k : Nat} {c : Option TcpConn} : Keeps s₀ (s.setTcp k c) :=
  h.update fun h0 => { h.tables h0 with tcp := Tab.wf_set _ _ (h.tables h0).tcp }
theorem Keeps.sendPdu (h : Keeps s₀ s) {k : Nat} {c : TcpConn} {pdu cmd cid : Nat} {nsid : BitVec 32}
    {at_ bytes : Nat} {payload : List Byte} : Keeps s₀ (s.sendPdu k c pdu cmd cid nsid at_ bytes payload) :=
  h.emitOn
theorem Keeps.sendCmd (h : Keeps s₀ s) {k : Nat} {c : TcpConn} {o : NvmeOp} : Keeps s₀ (s.sendCmd k c o) :=
  h.sendPdu
theorem Keeps.nvmeDrive (h : Keeps s₀ s) {o : NvmeOp} : Keeps s₀ (s.nvmeDrive o) := by
  unfold State.nvmeDrive
  refine .ite ?_ ?_
  · exact h
  · split
    · exact h
    · refine .ite ?_ ?_
      · exact h.solicit
      · split
        · exact .ite h.setNvme.sendCmd h
        · split
          · exact h
          · exact h.setTcp.sendPdu
theorem Keeps.nvmeDriveAll (h : Keeps s₀ s) : Keeps s₀ s.nvmeDriveAll := by
  unfold State.nvmeDriveAll
  refine h.foldl fun _ _ h1 => ?_
  split
  · exact h1.nvmeDrive
  · exact h1
theorem Keeps.nvmeBegin (h : Keeps s₀ s) {use : NvmeUse} {target : NvmeTarget} {lba bytes : Nat}
    {payload : List Byte} : Keeps s₀ (s.nvmeBegin use target lba bytes payload) := h.frame.nvmeDrive
theorem Keeps.nvmeError (h : Keeps s₀ s) {k : Nat} {status : W16} : Keeps s₀ (s.nvmeError k status) :=
  h.put.event
theorem Keeps.svcArg (h : Keeps s₀ s) {a : Site} {idx : Nat} : Keeps s₀ (s.svcArg a idx) := h.strandErrorAt
theorem Keeps.ingestFail (h : Keeps s₀ s) {detail : Nat} : Keeps s₀ (s.ingestFail detail) := h.put.event
theorem Keeps.execIngest (h : Keeps s₀ s) {a : Site} {p : Pred} {mop : Mop} {done : BitVec 13} :
    KeepsOut s₀ (execIngest a p mop done s) := by
  unfold Machine.execIngest
  extract_lets
  refine Keeps.loaded ?_
  refine .issue h (fun _ h1 => ?_)
  extract_lets
  refine .guarded h1 (fun _ h2 => ?_)
  extract_lets _ s1 _ _ s2
  have hs1 : Keeps s₀ s1 := h2.advance
  have hs2 : Keeps s₀ s2 := hs1.frame
  exact .ite hs1.ingestFail.svcArg (hs2.foldl (fun _ _ h3 => h3.nvmeBegin))
theorem Keeps.ingestRecord (h : Keeps s₀ s) {job : Nat} : Keeps s₀ (s.ingestRecord job) := by
  unfold State.ingestRecord
  split
  · exact h
  · exact .ite h.frame.soAdd h.frame
theorem Keeps.ingestGone (h : Keeps s₀ s) {job slot : Nat} : Keeps s₀ (s.ingestGone job slot) := by
  unfold State.ingestGone
  extract_lets s1
  have hs1 : Keeps s₀ s1 := h.ingestFail.contribute
  split
  · exact hs1
  · exact hs1.frame.soAdd
theorem Keeps.execCkptFlash (h : Keeps s₀ s) {a : Site} {p : Pred} {mop : Mop} {done : BitVec 13}
    {shards : List GenArea} : KeepsOut s₀ (execCkptFlash a p mop done shards s) := by
  refine Keeps.loaded (h.issue fun _ h1 => .guarded h1 fun _ h2 => .ite h2.advance.svcArg ?_)
  split
  · exact h2.advance.event
  · exact h2.advance.event.drawn
  · exact h2.advance.frame
theorem Keeps.sealBlob (h : Keeps s₀ s) {c : Nat} : Keeps s₀ (s.sealBlob c) := by
  unfold State.sealBlob
  extract_lets
  split
  · exact h.frame
  · exact h
theorem Keeps.execCkptFlashDone (h : Keeps s₀ s) : KeepsOut s₀ (execCkptFlashDone s) := by
  unfold Machine.execCkptFlashDone
  refine Keeps.next ?_
  split
  · exact .ite h h.frame.bump.bump.sealBlob.soAdd
  · exact h
theorem Keeps.storeBegin (h : Keeps s₀ s) {j : CkptJob} : Keeps s₀ (s.storeBegin j) :=
  .foldlFst h (fun _ _ h1 => h1.drawn.nvmeBegin)
theorem Keeps.ckptFail (h : Keeps s₀ s) {status : Nat} {small : Bool} : Keeps s₀ (s.ckptFail status small) :=
  h.event
theorem Keeps.execCkptStore (h : Keeps s₀ s) {a : Site} {p : Pred} {mop : Mop} {done : BitVec 13}
    {shards : List GenArea} : KeepsOut s₀ (execCkptStore a p mop done shards s) := by
  unfold Machine.execCkptStore
  extract_lets
  refine Keeps.loaded ?_
  refine .issue h (fun _ h1 => ?_)
  extract_lets
  refine .guarded h1 (fun _ h2 => ?_)
  extract_lets _ _ _ s1 _ _ _ s2
  have hs1 : Keeps s₀ s1 := h2.advance
  have hs2 : Keeps s₀ s2 := hs1.frame
  exact .ite hs1.svcArg (.ite hs1.ckptFail (.ite hs2.storeBegin hs2))
theorem Keeps.resumeStores (h : Keeps s₀ s) : Keeps s₀ s.resumeStores :=
  h.frame.foldl (fun _ _ h1 => h1.storeBegin)
theorem Keeps.setStoreGen (h : Keeps s₀ s) {stamp : W32} {result : Nat} : Keeps s₀ (s.setStoreGen stamp result) :=
  h.frame
theorem Keeps.execCkptStoreDone (h : Keeps s₀ s) {fail : Option W16} : KeepsOut s₀ (execCkptStoreDone fail s) := by
  unfold Machine.execCkptStoreDone
  refine Keeps.next ?_
  split
  · exact h
  · split
    · exact h.frame.ckptFail.setStoreGen
    · refine .ite ?_ ?_
      · exact h
      · extract_lets _ s1 s2
        have hs1 : Keeps s₀ s1 := h.frame.drawn
        have hs2 : Keeps s₀ s2 := by
          unfold s2
          split
          · exact hs1.sendPdu.sendPdu
          · exact hs1
        exact hs2.setStoreGen.soAdd
theorem Keeps.nvmeRetry (h : Keeps s₀ s) {o : NvmeOp} : Keeps s₀ (s.nvmeRetry o) := by
  unfold State.nvmeRetry
  refine .ite ?_ ?_
  · extract_lets _ s1
    have hs1 : Keeps s₀ s1 := by
      unfold s1
      split
      · exact h.event
      · exact h
    exact hs1.setNvme.nvmeDrive
  · extract_lets s1
    have hs1 : Keeps s₀ s1 := h.dropNvme
    split
    · exact hs1.ingestGone
    · exact hs1
theorem Keeps.tcpEnd (h : Keeps s₀ s) {k : Nat} : Keeps s₀ (s.tcpEnd k) := by
  unfold State.tcpEnd
  split
  · exact h
  · exact h.setTcp.foldl (fun _ _ h1 => h1.nvmeRetry)
theorem Keeps.nvmeData (h : Keeps s₀ s) {o : NvmeOp} {bs : List Byte} : Keeps s₀ (s.nvmeData o bs) := by
  unfold State.nvmeData
  extract_lets _ s1
  have hs1 : Keeps s₀ s1 := h.dropNvme
  refine .ite ?_ ?_
  · exact h.setNvme
  · split
    · exact hs1.store.bump.ingestRecord
    · exact hs1
theorem Keeps.nvmeWritten (h : Keeps s₀ s) {o : NvmeOp} : Keeps s₀ (s.nvmeWritten o) := by
  unfold State.nvmeWritten
  extract_lets s1
  have hs1 : Keeps s₀ s1 := h.dropNvme
  split
  · exact hs1.frame
  · exact hs1
theorem Keeps.sendData (h : Keeps s₀ s) {k : Nat} {c : TcpConn} {o : NvmeOp} {offset length : Nat} :
    Keeps s₀ (s.sendData k c o offset length) := h.foldl (fun _ _ h1 => h1.sendPdu)
theorem Keeps.tcpStep (h : Keeps s₀ s) {k : Nat} {c : TcpConn} : Keeps s₀ (s.tcpStep k c) := by
  unfold State.tcpStep
  extract_lets
  split
  · exact h.setTcp.sendPdu
  · exact h.setTcp.sendPdu
  · exact h.setTcp.sendPdu
  · exact h.setTcp.nvmeDriveAll
  · exact h
theorem Keeps.execNvmePduReceive (h : Keeps s₀ s) {x : TcpPlace} {pdu : NvmePdu} :
    KeepsOut s₀ (execNvmePduReceive x pdu s) := by
  unfold Machine.execNvmePduReceive
  extract_lets _ s1
  have hs1 : Keeps s₀ s1 := h.rxRaw
  refine Keeps.next ?_
  split
  · exact hs1
  · extract_lets
    split
    · split
      · exact hs1.tcpStep
      · exact hs1
    · refine .ite ?_ ?_
      · exact hs1.nvmeError.tcpEnd
      · split
        · exact hs1
        · exact hs1.tcpStep
    · split
      · exact hs1
      · exact .ite hs1.nvmeError.nvmeRetry (.ite hs1 hs1.nvmeWritten.nvmeDriveAll)
    · split
      · exact hs1
      · exact .ite hs1.nvmeData.nvmeDriveAll hs1
    · split
      · exact hs1
      · exact hs1.sendData
    · exact hs1.tcpEnd
    · exact hs1.sendPdu.tcpEnd
theorem Keeps.execPostEvent (h : Keeps s₀ s) {a : Site} {p : Pred} {mop : Mop} {svc : SvcCall} :
    KeepsOut s₀ (execPostEvent a p mop svc s) := by
  unfold Machine.execPostEvent
  extract_lets
  refine Keeps.loaded ?_
  refine .issue h (fun _ h1 => ?_)
  extract_lets
  refine .guarded h1 (fun _ h2 => ?_)
  extract_lets s1 _ _ _ s2
  have hs1 : Keeps s₀ s1 := h2.advance
  have hs2 : Keeps s₀ s2 := hs1.editCore
  refine .ite ?_ ?_
  · exact hs1.soAdd.strandErrorAt
  · exact .ite hs1.soAdd.svcArg (.ite hs1.bump.soAdd hs2.event.soAdd)

/-! #### Collectives (Machine/Collective.lean) -/

theorem Keeps.setColl (h : Keeps s₀ s) {o : CollOp} : Keeps s₀ (s.setColl o) := h.frame
theorem Keeps.sendItem (h : Keeps s₀ s) {c plan step item offset : Nat} {mark : CollMark} {own : Bool}
    {bs : List Byte} {to_ : List Nat} : Keeps s₀ (s.sendItem c plan step item offset mark own bs to_) :=
  h.foldl (fun _ _ h1 => h1.send.bump)
theorem Keeps.sendOnward (h : Keeps s₀ s) {c : Nat} {r : PlanRec} {o : CollOp} {item offset stamp : Nat}
    {bs : List Byte} {own : Bool} : Keeps s₀ (s.sendOnward c r o item offset stamp bs own).1 := h.sendItem
theorem Keeps.setPool (h : Keeps s₀ s) {c : Nat} {p : PoolRec} {e st : Nat} {keep vvalid : Bool} {version age : Nat} :
    Keeps s₀ (s.setPool c p e st keep vvalid version age) := h.store
theorem Keeps.reservePool (h : Keeps s₀ s) {c : Nat} {img : List Byte} : Keeps s₀ (s.reservePool c img) := by
  unfold State.reservePool
  split
  · exact h
  · refine h.foldl fun _ _ h1 => ?_
    split
    · exact h1.setFrame
    · exact h1
theorem Keeps.dropPool (h : Keeps s₀ s) {c : Nat} : Keeps s₀ (s.dropPool c) :=
  h.withFrames fun h0 => Tab.wf_filter _ (h.tables h0).frames
theorem Keeps.setMaps (h : Keeps s₀ s) {c : Nat} {f : Tab (Option Mapping) → Tab (Option Mapping)}
    (hf : ∀ m, Tab.wf none m = true → Tab.wf none (f m) = true) : Keeps s₀ (s.setMaps c f) :=
  h.setCtx fun h0 => (Ctx.canon_iff _).2 ⟨hf _ (h.maps c h0), h.savedSo c h0⟩
theorem Keeps.mapWindow (h : Keeps s₀ s) {c vf : Nat} {fs : List Nat} : Keeps s₀ (s.mapWindow c vf fs) :=
  h.setMaps fun _ hm => wf_foldl hm fun _ _ hm => Tab.wf_set _ _ hm
theorem Keeps.unmapWindow (h : Keeps s₀ s) {c : Nat} {p : PoolRec} {e : Nat} : Keeps s₀ (s.unmapWindow c p e) :=
  h.setMaps fun _ hm => wf_foldl hm fun _ _ hm => Tab.wf_set _ _ hm
theorem Keeps.evict (h : Keeps s₀ s) {c : Nat} {p : PoolRec} {e : Nat} : Keeps s₀ (s.evict c p e) :=
  h.setPool.unmapWindow.bump
theorem Keeps.makeRoom (h : Keeps s₀ s) {c : Nat} {p : PoolRec} {n fuel : Nat} :
    Keeps s₀ (State.makeRoom c p n fuel s) := by
  induction fuel generalizing s with
  | zero => exact h
  | succ fuel ih =>
    refine .ite h ?_
    split
    · exact h
    · exact ih h.evict
theorem Keeps.checkVersion (h : Keeps s₀ s) {c : Nat} {p : PoolRec} {e stamp node : Nat} :
    Keeps s₀ (s.checkVersion c p e stamp node) := .ite h.setPool (.ite h h.contribute.bump.put.event)
theorem Keeps.landPhase1 (h : Keeps s₀ s) {c : Nat} {r : PlanRec} {o : CollOp} {bs : List Byte} :
    Keeps s₀ (s.landPhase1 c r o bs) := by
  unfold State.landPhase1
  extract_lets _ _ s1
  have hs1 : Keeps s₀ s1 := h.foldl (fun _ _ h1 => h1.store)
  exact .ite hs1.frame hs1
theorem Keeps.markSat (h : Keeps s₀ s) {c plan region : Nat} : Keeps s₀ (s.markSat c plan region) := by
  unfold State.markSat
  extract_lets s1
  have hs1 : Keeps s₀ s1 := by
    unfold s1
    split
    · exact h
    · exact h.foldl (fun _ _ h1 => h1.store)
  exact hs1.contribute
theorem Keeps.deliver (h : Keeps s₀ s) {c : Nat} {r : Roots} {x : Circ} {k step item : Nat} {bs : List Byte} :
    Keeps s₀ (s.deliver c r x k step item bs) := by
  unfold State.deliver
  extract_lets _ _ s1 _ _ s2
  have hs1 : Keeps s₀ s1 := h.store
  have hs2 : Keeps s₀ s2 := .ite h.store (.ite (hs1.foldl (fun _ _ h1 => h1.twrite)) hs1)
  exact hs2.bump.soAdd
theorem Keeps.circDrain (h : Keeps s₀ s) {c plan : Nat} {r : PlanRec} {rt : Roots} {fuel : Nat} :
    Keeps s₀ (State.circDrain c plan r rt fuel s) := by
  induction fuel generalizing s with
  | zero => exact h
  | succ fuel ih =>
    unfold State.circDrain
    dsimp only
    split
    · exact h
    · split
      · exact h
      · exact .ite h (ih (.withCircNext h.deliver fun h0 => Tab.wf_set _ _ (h.deliver.tables h0).circNext))
theorem Keeps.circDrainAll (h : Keeps s₀ s) : Keeps s₀ s.circDrainAll := by
  unfold State.circDrainAll
  split
  · exact h
  · exact h.foldl (fun _ _ h1 => .ite h1.circDrain h1)
theorem Keeps.collNonfin (h : Keeps s₀ s) {r : PlanRec} {step : Nat} {calls : List CollCall} {bs : List Byte} :
    Keeps s₀ (s.collNonfin r step calls bs) := .ite (h.foldl (fun _ _ h1 => h1.nonfin)) h
theorem Keeps.landResult (h : Keeps s₀ s) {c : Nat} {r : PlanRec} {o : CollOp} {item offset stamp : Nat}
    {bs : List Byte} : Keeps s₀ (s.landResult c r o item offset stamp bs).1 := by
  unfold State.landResult
  split
  · exact h
  · extract_lets _ _ s1 _ _ s2
    have hs1 : Keeps s₀ s1 := h.collNonfin
    have hs2 : Keeps s₀ s2 := hs1.foldl (fun _ _ h1 => h1.store)
    split
    · exact hs1.foldl (fun _ _ h1 => h1.store)
    · split
      · split
        · split
          · exact hs1.landPhase1
          · exact hs1
        · exact .ite hs2.markSat hs2
      · split
        · split
          · exact hs1
          · exact (Keeps.ite hs1.checkVersion hs1).store
        · exact hs1
theorem Keeps.spread (h : Keeps s₀ s) {c : Nat} {r : PlanRec} {o : CollOp} {item stamp : Nat} {local_ own : Bool}
    {off : Nat} {bs : List Byte} : Keeps s₀ (s.spread c r o item stamp local_ own off bs).1 :=
  .iteFst h.sendOnward.landResult h.sendOnward
theorem Keeps.spreadItem (h : Keeps s₀ s) {c : Nat} {r : PlanRec} {o : CollOp} {item stamp : Nat} {local_ : Bool}
    {bs : List Byte} : Keeps s₀ (s.spreadItem c r o item stamp local_ bs).1 :=
  .foldlFst h (fun _ _ h1 => h1.spread)
theorem Keeps.treeNode (h : Keeps s₀ s) {c : Nat} {r : PlanRec} {o : CollOp} {n level q : Nat} :
    Keeps s₀ (s.treeNode c r o n level q).1 := by
  unfold State.treeNode
  split
  · exact h
  · split
    · exact .iteFst h (h.foldl (fun _ _ h1 => h1.sendItem))
    · extract_lets
      split
      · exact h
      · split
        · exact h
        · split
          · exact h
          · exact h
theorem Keeps.treeRun (h : Keeps s₀ s) {c : Nat} {r : PlanRec} {o : CollOp} {n : Nat} :
    Keeps s₀ (s.treeRun c r o n).1 := by
  unfold State.treeRun
  extract_lets _ a
  have ha : Keeps s₀ a.1 := .foldlFst h (fun _ _ h1 => .foldlFst h1 (fun _ _ h2 => h2.treeNode))
  split
  · exact ha
  · exact .iteFst ha ha.spreadItem
theorem Keeps.regionRun (h : Keeps s₀ s) {c : Nat} {r : PlanRec} {o : CollOp} {region : Nat} :
    Keeps s₀ (s.regionRun c r o region).1 := by
  unfold State.regionRun
  refine .iteFst h (.spreadItem ?_)
  split
  · exact h.event
  · exact h
theorem Keeps.takeItem (h : Keeps s₀ s) {c : Nat} {r : PlanRec} {o : CollOp} {x : CollItem} {onward : Bool} :
    Keeps s₀ (s.takeItem c r o x onward) := by
  unfold State.takeItem
  extract_lets _ _ _ a
  have ha : Keeps s₀ a.1 := .iteFst (.iteFst h.spread h.landResult) (.iteFst h.regionRun (.iteFst h h.treeRun))
  exact ha.setColl.circDrainAll
theorem Keeps.holdItem (h : Keeps s₀ s) {c : Nat} {r : PlanRec} {node : Nat} {x : CollItem} :
    Keeps s₀ (s.holdItem c r node x) := .ite h (.ite h.frame.sendItem h.frame)
theorem Keeps.collItem (h : Keeps s₀ s) {node : Nat} {x : CollItem} : Keeps s₀ (s.collItem node x) := by
  unfold State.collItem
  split
  · split
    · exact .ite h.holdItem (.ite h h.takeItem)
    · exact h.holdItem
  · exact h
theorem Keeps.releaseHeld (h : Keeps s₀ s) {plan step : Nat} : Keeps s₀ (s.releaseHeld plan step) := by
  unfold State.releaseHeld
  extract_lets _ s1
  have hs1 : Keeps s₀ s1 := h.frame
  refine hs1.foldl fun _ _ h1 => ?_
  split
  · exact h1.takeItem
  · exact h1
theorem Keeps.cut (h : Keeps s₀ s) : Keeps s₀ s.cut := by
  unfold State.cut
  split
  · exact h
  · extract_lets s1 s2 s3 _ s4
    have hs1 : Keeps s₀ s1 := .ite h.contribute h
    have hs2 : Keeps s₀ s2 := .ite hs1.contribute hs1
    have hs3 : Keeps s₀ s3 := .ite hs2.contribute hs2
    have hs4 : Keeps s₀ s4 := hs3.frame
    split
    · exact hs4.put.event.programError
    · exact hs4
theorem Keeps.circItem (h : Keeps s₀ s) {c : Nat} {rt : Roots} {x : Circ} {step item : Nat} :
    Keeps s₀ (s.circItem c rt x step item).1 := by
  unfold State.circItem
  extract_lets
  split
  · exact h
  · split
    · exact h.touchPage
    · exact h.noteEntry
theorem Keeps.beginTree (h : Keeps s₀ s) {c : Nat} {r : PlanRec} {o : CollOp} {buf : Nat} :
    Keeps s₀ (s.beginTree c r o buf).1 := h.treeRun
theorem Keeps.beginPhase1 (h : Keeps s₀ s) {c : Nat} {r : PlanRec} {o : CollOp} {q : CollCall} :
    Keeps s₀ (s.beginPhase1 c r o q).1 := (Keeps.ite h.cut h).treeRun
theorem Keeps.beginPhase2 (h : Keeps s₀ s) {c : Nat} {r : PlanRec} {o : CollOp} {q : CollCall} :
    Keeps s₀ (s.beginPhase2 c r o q).1 :=
  .foldlFst (p := (_, _)) h fun _ _ h1 => .iteFst h1.regionRun (h1.foldl fun _ _ h2 => h2.sendItem)
theorem Keeps.takenShard (h : Keeps s₀ s) {c plan pos n : Nat} : Keeps s₀ (s.takenShard c plan pos n).1 :=
  .iteFst h.drawn h
theorem Keeps.fillEntry (h : Keeps s₀ s) {c : Nat} {r : PlanRec} {o : CollOp} {own taken : Bool} :
    Keeps s₀ (s.fillEntry c r o own taken).1 := by
  refine .foldlFst (p := (_, _)) h fun _ _ h1 => .spreadItem ?_
  dsimp only
  split
  · exact h1
  · exact h1.takenShard
theorem Keeps.placeGather (h : Keeps s₀ s) {c : Nat} {r : PlanRec} {o : CollOp} : Keeps s₀ (s.placeGather c r o) := by
  unfold State.placeGather
  split
  · exact h
  · extract_lets _ _ s1 _ _ s2 s3 a
    have hs1 : Keeps s₀ s1 := h.makeRoom
    have hs2 : Keeps s₀ s2 := hs1.mapWindow.setPool
    have hs3 : Keeps s₀ s3 := hs2.frame
    have ha : Keeps s₀ a.1 := hs3.fillEntry
    exact .ite hs1 ha.setColl.releaseHeld
theorem Keeps.retryGathers (h : Keeps s₀ s) : Keeps s₀ s.retryGathers := by
  unfold State.retryGathers
  refine h.foldl fun _ _ h1 => ?_
  split
  · split
    · exact h1.placeGather
    · exact h1
  · exact h1
theorem Keeps.beginCirc (h : Keeps s₀ s) {c : Nat} {r : PlanRec} {o : CollOp} : Keeps s₀ (s.beginCirc c r o).1 := by
  unfold State.beginCirc
  extract_lets
  split
  · exact h
  · exact .iteFst h (.foldlFst h (fun _ _ h1 => h1.circItem.spreadItem))
theorem Keeps.newColl (h : Keeps s₀ s) {plan step expect : Nat} {calls : List CollCall} {waiting : Bool} :
    Keeps s₀ (s.newColl plan step expect calls waiting).1 := h.frame
theorem Keeps.issueGather (h : Keeps s₀ s) {c : Nat} {r : PlanRec} {plan : Nat} {q : CollCall} :
    Keeps s₀ (s.issueGather c r plan q) := by
  unfold State.issueGather
  split
  · exact h
  · dsimp only
    split
    · exact h.setColl
    · refine .ite ?_ h.newColl.frame.placeGather
      split
      · exact h.setPool.bump.soAdd
      · exact h.setPool.bump
theorem Keeps.issueColl (h : Keeps s₀ s) {c : Nat} {r : PlanRec} {plan step : Nat} {q : CollCall} :
    Keeps s₀ (s.issueColl c r plan step q) := by
  unfold State.issueColl
  refine .ite ?_ ?_
  · exact h.issueGather
  · extract_lets a s1 b
    have ha : Keeps s₀ a.1 := by
      unfold a
      split
      · exact h
      · exact h.newColl
    have hs1 : Keeps s₀ s1 := ha.setColl
    have hb : Keeps s₀ b.1 := by
      unfold b
      split
      · exact hs1.beginTree
      · exact .iteFst (.iteFst hs1.beginPhase1 hs1.beginPhase2) hs1.beginCirc
    exact hb.setColl.releaseHeld
theorem Keeps.execColl (h : Keeps s₀ s) {a : Site} {p : Pred} {mop : Mop} {plan : BitVec 16}
    {step so : BitVec 13} {soen : Bool} : KeepsOut s₀ (execColl a p mop plan step so soen s) := by
  refine Keeps.loaded (h.issue fun _ h1 => .guarded h1 fun _ h2 => ?_)
  dsimp only
  split
  · exact h2.advance
  · refine .ite h2.advance.strandErrorAt (.issueColl (.ite ?_ h2.advance))
    exact .withCollNext h2.advance fun h0 => Tab.wf_set _ _ (h2.advance.tables h0).collNext
theorem Keeps.execCollStepComplete (h : Keeps s₀ s) {op : Nat} : KeepsOut s₀ (execCollStepComplete op s) := by
  unfold Machine.execCollStepComplete
  extract_lets s1
  have hs1 : Keeps s₀ s1 := h.circDrainAll
  refine Keeps.next ?_
  split
  · split
    · exact hs1
    · refine .ite ?_ ?_
      · extract_lets s2 s3
        have hs2 : Keeps s₀ s2 := hs1.setColl
        have hs3 : Keeps s₀ s3 := by
          refine .ite ?_ ?_
          · split
            · exact hs2.setPool.bump
            · exact hs2
          · exact hs2
        refine hs3.foldl fun _ _ h1 => ?_
        split
        · exact h1.soAdd
        · exact h1
      · exact hs1
  · exact hs1
theorem Keeps.execGatherTimeout (h : Keeps s₀ s) {op : Nat} : KeepsOut s₀ (execGatherTimeout op s) := by
  unfold Machine.execGatherTimeout
  refine Keeps.next ?_
  split
  · refine .ite ?_ ?_
    · extract_lets _ s1 s2 s3
      have hs1 : Keeps s₀ s1 := h.setPool
      have hs2 : Keeps s₀ s2 := hs1.frame
      have hs3 : Keeps s₀ s3 := by
        unfold s3
        split
        · refine .setColl ?_
          refine hs2.foldl fun _ _ h1 => ?_
          split
          · exact h1.soAdd
          · exact h1
        · exact hs2
      exact hs3.put.event.programError
    · exact h
  · exact h
theorem Keeps.emptyPool (h : Keeps s₀ s) {c : Nat} : Keeps s₀ (s.emptyPool c) := by
  unfold State.emptyPool
  split
  · exact h
  · exact h.foldl (fun _ _ h1 => h1.setPool.unmapWindow)

/-! #### Faults and fences (Machine/Faults.lean) -/

theorem Keeps.execShadowCheck (h : Keeps s₀ s) {x : Segment} {mismatch : Bool} :
    KeepsOut s₀ (execShadowCheck x mismatch s) := by
  unfold Machine.execShadowCheck
  refine Keeps.next ?_
  extract_lets _ _ _ _ _ _ s1
  have hs1 : Keeps s₀ s1 := h.contribute.bump.event
  refine .ite ?_ ?_
  · exact h
  · refine .ite ?_ ?_
    · exact .ite hs1.editGroup.decideFence (.ite hs1 hs1.editGroup)
    · exact h.editGroup
theorem Keeps.abortTees (h : Keeps s₀ s) {f : Nat} : Keeps s₀ (s.abortTees f) :=
  h.foldl (fun _ _ h1 => h1.foldl (fun _ _ h2 => .ite h2.put.event h2))
theorem Keeps.closeTo (h : Keeps s₀ s) {f : Nat} : Keeps s₀ (s.closeTo f) :=
  (h.foldl (fun _ _ h1 => .ite h1.closeConn h1)).dropSessions.drainSends
theorem Keeps.dropCached (h : Keeps s₀ s) {f : Nat} : Keeps s₀ (s.dropCached f) :=
  h.frame.foldl (fun _ _ h1 => h1.evictCached)
theorem Keeps.nameReference (h : Keeps s₀ s) {n : Nat} : Keeps s₀ (s.nameReference n) :=
  h.frame (hbt := by split_ifs <;> rfl)
theorem Keeps.newReference (h : Keeps s₀ s) {f : Nat} : Keeps s₀ (s.newReference f) := by
  unfold State.newReference
  refine .ite ?_ ?_
  · split
    · exact h.nameReference
    · exact h
  · exact h
theorem Keeps.lowerReference (h : Keeps s₀ s) {n : Nat} : Keeps s₀ (s.lowerReference n) := .ite h.nameReference h
theorem Keeps.commitSaved (h : Keeps s₀ s) {f kind b : Nat} : Keeps s₀ (s.commitSaved f kind b) := by
  refine h.foldl fun _ c h1 => .ite h1 (.foldl (h1.setCtx fun h0 => ?_) fun _ _ h2 => h2.event)
  exact (Ctx.canon_iff _).2 ⟨h1.maps c h0, wf_releaseObjects (h1.savedSo c h0)⟩
theorem Keeps.commitDevice (h : Keeps s₀ s) {f kind : Nat} : Keeps s₀ (s.commitDevice f kind) := by
  unfold State.commitDevice
  extract_lets s0 s1 _ _ _ _ _ s2 s3 s4 s5 _ s6
  have hs0 : Keeps s₀ s0 := h.put.event
  have hs1 : Keeps s₀ s1 := hs0.abortTees
  have hs2 : Keeps s₀ s2 := hs1.frame
  have hs3 : Keeps s₀ s3 := .ite hs2.put hs2
  have hs4 : Keeps s₀ s4 := .ite (hs3.foldl fun _ _ h1 => h1.event) hs1
  have hs5 : Keeps s₀ s5 := hs4.commitSaved
  clear_value s5
  have hs6 : Keeps s₀ s6 := hs5.update fun h0 => { hs5.tables h0 with so := wf_releaseObjects (hs5.tables h0).so }
  exact hs6.closeTo.dropCached.newReference
theorem Keeps.wholeGroups (h : Keeps s₀ s) : Keeps s₀ s.wholeGroups :=
  h.foldl (fun _ _ h1 => .ite h1.editGroup.frame h1)
theorem Keeps.commitCore (h : Keeps s₀ s) {core cause : Nat} : Keeps s₀ (s.commitCore core cause) := by
  unfold State.commitCore
  extract_lets _ _ _ s1 _ _ s2
  have hs1 : Keeps s₀ s1 := h.update fun h0 => { h.tables h0 with so := wf_releaseObjects (h.tables h0).so }
  have hs2 : Keeps s₀ s2 := hs1.update fun h0 => { hs1.tables h0 with
    ctxs := Tab.wf_mapv _ (hs1.tables h0).ctxs
    eachCtx := all_mapv _ _ (fun x hx => by
      obtain ⟨hm, hs⟩ := x.canon_iff.1 hx
      exact (Ctx.canon_iff _).2 ⟨hm, wf_releaseObjects hs⟩) (hs1.tables h0).eachCtx }
  exact hs2.editCore.put.event.frame.writeRecord
theorem Keeps.commitCores (h : Keeps s₀ s) : Keeps s₀ s.commitCores := by
  unfold State.commitCores
  extract_lets _ _ s1 s2
  have hs1 : Keeps s₀ s1 := h.foldl (fun _ _ h1 => h1.commitCore)
  have hs2 : Keeps s₀ s2 := hs1.wholeGroups
  exact .ite hs2 hs2.writeRecord.selfFence
theorem Keeps.dropHeld (h : Keeps s₀ s) : Keeps s₀ s.dropHeld := h.frame
theorem Keeps.dropRoots (h : Keeps s₀ s) {c : Option Nat} : Keeps s₀ (s.dropRoots c) :=
  h.update fun h0 => { h.tables h0 with
    groups := Tab.wf_mapv _ (h.tables h0).groups
    eachGroup := all_mapv _ _ (fun _ hg => by exact hg) (h.tables h0).eachGroup }
theorem Keeps.stopEngines (h : Keeps s₀ s) : Keeps s₀ s.stopEngines :=
  h.update fun h0 => { h.tables h0 with
    strands := Tab.wf_mapv _ (h.tables h0).strands
    eachStrand := all_mapv _ _ (fun x hx => by split <;> exact hx) (h.tables h0).eachStrand
    groups := Tab.wf_mapv _ (h.tables h0).groups
    eachGroup := all_mapv _ _ (fun _ hg => by exact hg) (h.tables h0).eachGroup
    cores := Tab.wf_mapv _ (h.tables h0).cores
    eachCore := all_mapv _ _ (fun _ hc => by exact hc) (h.tables h0).eachCore }
theorem Keeps.closeAll (h : Keeps s₀ s) : Keeps s₀ s.closeAll := h.frame.foldl (fun _ _ h1 => h1.closeConn)
theorem Keeps.doSelfFence (h : Keeps s₀ s) {cause named : Nat} : Keeps s₀ (s.doSelfFence cause named) := by
  unfold State.doSelfFence
  extract_lets s1 s2 s3 s4 _ _ _ s5
  have hs1 : Keeps s₀ s1 := h.put.event
  have hs2 : Keeps s₀ s2 := .ite hs1.drawn hs1
  have hs3 : Keeps s₀ s3 := .ite hs2 hs2.sendMarkers
  have hs4 : Keeps s₀ s4 := hs3.stopEngines.dropRoots.closeAll.detach
  have hs5 : Keeps s₀ s5 := hs4.frame
  exact hs5.abortJoin

/-! #### The tiers (Machine/Tiers.lean) -/

theorem Keeps.execHbmTempReport (h : Keeps s₀ s) {stack : Fin 8} {temp thresh : Byte} :
    KeepsOut s₀ (execHbmTempReport stack temp thresh s) := by
  refine Keeps.next ?_
  extract_lets old new s1 hot s2
  have hs1 : Keeps s₀ s1 := h.put.put.put
  have hs2 : Keeps s₀ s2 := hs1.withHotBeats fun h0 => Tab.wf_set _ _ (hs1.tables h0).hotBeats
  exact .ite hs2 hs2.put.put.event
theorem Keeps.execStackOvertemp (h : Keeps s₀ s) {stack : Fin 8} : KeepsOut s₀ (execStackOvertemp stack s) := by
  have h1 := h.withHotBeats fun h0 => Tab.wf_set stack.val 0 (h.tables h0).hotBeats
  exact Keeps.next (.ite h1.event.selfFence h)
theorem Keeps.latchThrottle (h : Keeps s₀ s) : Keeps s₀ s.latchThrottle :=
  h.update fun h0 => { h.tables h0 with
    throttle := wf_foldl (h.tables h0).throttle fun _ _ ht => Tab.wf_set _ _ ht }
theorem Keeps.setMap (h : Keeps s₀ s) {c vf : Nat} {m : Option Mapping} : Keeps s₀ (s.setMap c vf m) :=
  h.setCtx fun h0 => (Ctx.canon_iff _).2 ⟨Tab.wf_set _ _ (h.maps c h0), h.savedSo c h0⟩
theorem Keeps.releaseMapping (h : Keeps s₀ s) {m : Mapping} : Keeps s₀ (s.releaseMapping m) := by
  unfold State.releaseMapping
  extract_lets s1
  have hs1 : Keeps s₀ s1 := by
    unfold s1
    split
    · exact h.withFlash fun h0 => wf_zeroFrame _ _ (h.tables h0).flash
    · exact h.setFrame
    · exact h
  exact .ite (hs1.withFlash fun h0 => wf_zeroFrame _ _ (hs1.tables h0).flash) (.ite hs1 hs1.setFrame)
theorem Keeps.applyMap (h : Keeps s₀ s) {ch : MapChange} : Keeps s₀ (s.applyMap ch) := by
  unfold State.applyMap
  split
  · extract_lets s1
    have hs1 : Keeps s₀ s1 := by
      refine h.foldl fun _ _ h1 => ?_
      split
      · exact h1.setFrame.setMap
      · exact h1
    exact .ite hs1.editCtx hs1
  case _ c vf n =>
    refine .foldl (h.setCtx fun h0 => ?_) fun _ _ h1 => h1.releaseMapping
    exact (Ctx.canon_iff _).2 ⟨Tab.wf_filter _ (h.maps c h0), h.savedSo c h0⟩
theorem Keeps.applyMapChanges (h : Keeps s₀ s) : Keeps s₀ s.applyMapChanges := by
  unfold State.applyMapChanges
  refine h.foldl fun _ _ h1 => ?_
  refine .ite ?_ ?_
  · extract_lets s1 s2
    have hs1 : Keeps s₀ s1 := h1.applyMap
    have hs2 : Keeps s₀ s2 := hs1.frame
    split
    · exact .ite hs2.mboxEnd hs2
    · exact hs2
  · exact h1
theorem Keeps.execFramePoolReturn (h : Keeps s₀ s) {frame : Nat} : KeepsOut s₀ (execFramePoolReturn frame s) := by
  unfold Machine.execFramePoolReturn
  refine Keeps.next ?_
  split
  · exact .ite h.setFrame h
  · exact h
theorem Keeps.execFrameScrub (h : Keeps s₀ s) {frame : Nat} : KeepsOut s₀ (execFrameScrub frame s) := by
  refine Keeps.next ?_
  split
  · exact (h.withMem fun h0 => wf_zeroFrame _ frame (h.tables h0).mem).setFrame.bump
  · exact h
theorem Keeps.retireMapped (h : Keeps s₀ s) {f : Nat} : Keeps s₀ (s.retireMapped f) := by
  refine .retireFrame (.foldl (h.withMem fun h0 => wf_zeroFrame _ f (h.tables h0).mem) fun _ _ h1 => ?_)
  split
  split
  · exact h1.setFrame.setMap
  · exact h1.setMap
theorem Keeps.retireAll (h : Keeps s₀ s) : Keeps s₀ s.retireAll :=
  h.frame.foldl (fun _ _ h1 => h1.retireMapped)
theorem Keeps.startMove (h : Keeps s₀ s) {e : Nat × Nat × Mapping} {t : Tier} {u : State}
    (hu : s.startMove e t = some u) : Keeps s₀ u := by
  obtain ⟨f, _, rfl⟩ := Option.map_eq_some_iff.1 hu
  exact .setMap (.ite h h.setFrame)
theorem Keeps.startMoves (h : Keeps s₀ s) {t : Tier} {l : List (Nat × Nat × Mapping)} {n : Nat} :
    Keeps s₀ (s.startMoves t l n).1 := by
  refine .foldlFst (p := (_, _)) h fun _ _ h1 => ?_
  split
  case _ e => exact h1.startMove e
  case _ => exact h1
theorem Keeps.poolLow (h : Keeps s₀ s) {t' : Tier} : Keeps s₀ (s.poolLow t') := .ite h h.frame.put.event
theorem Keeps.returnTarget (h : Keeps s₀ s) : Keeps s₀ s.returnTarget := by
  unfold State.returnTarget
  split
  · refine h.foldl fun _ _ h1 => ?_
    split
    case _ e => exact h1.startMove e
    case _ => exact h1.poolLow
  · exact h
theorem Keeps.agePool (h : Keeps s₀ s) : Keeps s₀ s.agePool := by
  unfold State.agePool
  extract_lets _ _ r s1 _ r1 s2 _ r2 s3
  have hr : Keeps s₀ r.1 := h.startMoves
  have hs1 : Keeps s₀ s1 := .ite (.ite hr.poolLow hr) h
  have hr1 : Keeps s₀ r1.1 := hs1.startMoves
  have hs2 : Keeps s₀ s2 := .ite (.ite hr1.poolLow hr1) hs1
  have hr2 : Keeps s₀ r2.1 := hs2.startMoves
  have hs3 : Keeps s₀ s3 := .ite (.ite hr2.poolLow hr2) hs2
  exact hs3.returnTarget
theorem Keeps.cancelFlash (h : Keeps s₀ s) {c : Nat} : Keeps s₀ (s.cancelFlash c) :=
  h.setCtx fun h0 => (Ctx.canon_iff _).2 ⟨wf_mapSome (h.maps c h0), h.savedSo c h0⟩
theorem Keeps.execPoolMoveDone (h : Keeps s₀ s) {frame : Nat} : KeepsOut s₀ (execPoolMoveDone frame s) := by
  refine Keeps.next ?_
  split
  · split
    · exact h
    · refine .ite h.setMap ?_
      extract_lets cells s1 s2 s3 s4
      have hs1 : Keeps s₀ s1 := .ite (h.withFlash fun h0 => wf_putFrame _ _ _ (h.tables h0).flash)
        (h.withMem fun h0 => wf_putFrame _ _ _ (h.tables h0).mem)
      have hs2 : Keeps s₀ s2 := hs1.setMap
      have hs3 : Keeps s₀ s3 := .ite (hs2.withFlash fun h0 => wf_zeroFrame _ _ (hs2.tables h0).flash) hs2.setFrame
      have hs4 : Keeps s₀ s4 := .ite hs3.bump hs3
      exact .ite hs4.bump (.ite hs4 hs4.bump)
  · exact h
theorem Keeps.execFtlBackgroundWork (h : Keeps s₀ s) {hub3 : Bool} {reclaimed retired refreshed written : Nat} :
    KeepsOut s₀ (execFtlBackgroundWork hub3 reclaimed retired refreshed written s) := by
  unfold Machine.execFtlBackgroundWork
  refine Keeps.next ?_
  extract_lets _ _ _ _ s1 s2 s3
  have hs1 : Keeps s₀ s1 := h.put.bump.bump.bump
  have hs2 : Keeps s₀ s2 := .ite hs1 hs1.drawn.put
  have hs3 : Keeps s₀ s3 := .ite hs2.put.event hs2
  exact .ite hs3.put.put.event hs3

/-! #### Step entry (Machine/Entry.lean) -/

theorem Keeps.saveShown (h : Keeps s₀ s) : Keeps s₀ s.saveShown := by
  unfold State.saveShown
  split
  · exact h
  · exact h.setCtx fun h0 => (Ctx.canon_iff _).2 ⟨h.maps _ h0, (h.tables h0).so⟩
theorem Keeps.showCtx (h : Keeps s₀ s) {c : Nat} : Keeps s₀ (s.showCtx c) := by
  have h1 := h.saveShown
  refine .ite h (h1.update fun h0 => { h1.tables h0 with so := h1.savedSo c h0, regs := ?_ })
  exact wf_foldl (Tab.wf_filter _ (h1.tables h0).regs) fun _ _ ht => Tab.wf_set _ _ ht
theorem Keeps.putCtx (h : Keeps s₀ s) {c : Nat} {f : Fld} {v : Nat} : Keeps s₀ (s.putCtx c f v) :=
  .ite h.put h.editCtx
theorem Keeps.setFlt (h : Keeps s₀ s) {c : Nat} {m : FaultMap} : Keeps s₀ (s.setFlt c m) :=
  .ite h.frame h.editCtx
theorem Keeps.fixPlacement (h : Keeps s₀ s) {c : Nat} : Keeps s₀ (s.fixPlacement c) := h.editCtx
theorem Keeps.showOverlays (h : Keeps s₀ s) : Keeps s₀ s.showOverlays := by
  unfold State.showOverlays
  extract_lets s1
  have hs1 : Keeps s₀ s1 := h.foldl (fun _ _ h1 => h1.editGroup)
  exact hs1.foldl (fun _ _ h1 => .ite h1.selfFence h1.editGroup)
theorem Keeps.enterGroup (h : Keeps s₀ s) {gl g : Nat} : Keeps s₀ (s.enterGroup gl g) :=
  h.foldl fun _ q h1 => h1.update fun h0 => { h1.tables h0 with
    strands := Tab.wf_set _ _ (h1.tables h0).strands
    eachStrand := all_set Strand.canon _ _ _ _ (h1.tables h0).eachStrand (s.canon_enterStrand q.2.2) }
theorem Keeps.stopProduct (h : Keeps s₀ s) {core : Nat} {p : Product} : Keeps s₀ (s.stopProduct core p) :=
  h.foldl (fun _ _ h1 => h1.drawn.twrite.setMarks)
theorem Keeps.enterCore (h : Keeps s₀ s) {core : Nat} : Keeps s₀ (s.enterCore core) := by
  unfold State.enterCore
  extract_lets s1 _ s2
  have hs1 : Keeps s₀ s1 := h.foldl (fun _ _ h1 => h1.stopProduct)
  have hs2 : Keeps s₀ s2 := hs1.editCore
  exact .ite hs2 hs2.put
theorem Keeps.enterGroupUnits (h : Keeps s₀ s) {g : Nat} : Keeps s₀ (s.enterGroupUnits g) := h.editGroup
theorem Keeps.dropStep (h : Keeps s₀ s) {c : Nat} : Keeps s₀ (s.dropStep c) := by
  unfold State.dropStep
  extract_lets _ _ _ s1 s2 _ s3 s4 s5
  have hs2 : Keeps s₀ s2 := .foldl h.dropHeld.frame fun _ _ h1 => h1.evictCached
  have hs3 : Keeps s₀ s3 := hs2.update fun h0 => { hs2.tables h0 with
    conns := Tab.wf_mapv _ (hs2.tables h0).conns
    collNext := rfl, circNext := rfl, strands := rfl, eachStrand := rfl }
  have hs5 : Keeps s₀ s5 := .foldl (.foldl hs3 fun _ _ h1 => h1.enterGroupUnits) fun _ _ h1 => h1.enterCore
  exact hs5.emptyPool
theorem Keeps.writeSyncTable (h : Keeps s₀ s) {c : Nat} : Keeps s₀ (s.writeSyncTable c) :=
  h.foldl (fun _ _ h1 => h1.setObj)
theorem Keeps.takeMode (h : Keeps s₀ s) : Keeps s₀ s.takeMode := .ite h.frame (.ite h.frame h.frame.event)
theorem Keeps.initGs (h : Keeps s₀ s) {c : Nat} : Keeps s₀ (s.initGs c) := h.putCtx
theorem Keeps.admitSpares (h : Keeps s₀ s) : Keeps s₀ s.admitSpares := by
  unfold State.admitSpares
  extract_lets _ _ _ s1 s2
  have hs1 : Keeps s₀ s1 := h.frame
  have hs2 : Keeps s₀ s2 := by
    unfold s2
    split
    · exact hs1.assign
    · exact hs1
  exact .ite h (hs2.foldl (fun _ _ h1 => h1.lowerReference))
theorem Keeps.stepEntry (h : Keeps s₀ s) : Keeps s₀ s.stepEntry := by
  unfold State.stepEntry
  split
  · exact h
  · split
    · exact h
    · extract_lets _ _ s1 s2 _ _ s3 s4 _ _ _ s5 s6
      have hs1 : Keeps s₀ s1 := h.editCtx
      have hs2 : Keeps s₀ s2 := .ite hs1.initGs hs1
      have hs3 : Keeps s₀ s3 := hs2.dropStep
      have hs4 : Keeps s₀ s4 := hs3.admitSpares
      have hs5 : Keeps s₀ s5 := hs4.frame
      have hs6 : Keeps s₀ s6 := hs5.writeSyncTable.resetRing
      exact .ite hs5 (hs6.foldl (fun _ _ h1 => h1.enterGroup))

/-! #### The action of a step's end (Machine/Action.lean) -/

theorem Keeps.putGs (h : Keeps s₀ s) {v : Int} : Keeps s₀ (s.putGs v) := h.put
theorem Keeps.clampGs (h : Keeps s₀ s) : Keeps s₀ s.clampGs := .ite h h.putGs.put
theorem Keeps.writeGs (h : Keeps s₀ s) {c : Nat} : Keeps s₀ (s.writeGs c) := .ite h.store h
theorem Keeps.growGs (h : Keeps s₀ s) : Keeps s₀ s.growGs := .ite h.putGs.put h.put
theorem Keeps.lowerGs (h : Keeps s₀ s) : Keeps s₀ s.lowerGs := (Keeps.ite h.put.event h.putGs).put
theorem Keeps.setSilent (h : Keeps s₀ s) {layer n : Nat} : Keeps s₀ (s.setSilent layer n) := h.setWord
theorem Keeps.commitSilent (h : Keeps s₀ s) : Keeps s₀ s.commitSilent := by
  unfold State.commitSilent
  refine h.foldl fun _ _ h1 => ?_
  exact .ite (.ite h1.setSilent.put.event h1.setSilent) h1.setSilent
theorem Keeps.commitRefills (h : Keeps s₀ s) : Keeps s₀ s.commitRefills :=
  h.frame.foldl (fun _ _ h1 => h1.event)
theorem Keeps.ckptLate (h : Keeps s₀ s) : Keeps s₀ s.ckptLate := by
  unfold State.ckptLate
  extract_lets _ _ _ s1 s2
  have hs1 : Keeps s₀ s1 := h.frame
  have hs2 : Keeps s₀ s2 := hs1.foldl (fun _ _ h1 => h1.event.soAdd)
  exact hs2.foldl (fun _ _ h1 => h1.event.soAdd)
theorem Keeps.actionRegs (h : Keeps s₀ s) {a : StepAction} : Keeps s₀ (s.actionRegs a) := by
  unfold State.actionRegs
  extract_lets s1 s2
  have hs1 : Keeps s₀ s1 := h.clampGs
  have hs2 : Keeps s₀ s2 := hs1.applyFrees
  split
  · exact hs2.bump.bump.growGs.put
  · exact hs1.bump.bump.lowerGs.put
  · exact hs1.bump.bump
  · exact hs1.put
theorem Keeps.limitReplay (h : Keeps s₀ s) {a : StepAction} : Keeps s₀ (s.limitReplay a).1 := by
  unfold State.limitReplay
  extract_lets
  split
  · exact .iteFst h.put.event h
  · exact h
theorem Keeps.advanceSample (h : Keeps s₀ s) {a : StepAction} : Keeps s₀ (s.advanceSample a) := by
  have h1 : Keeps s₀ { s with groups := s.groups.mapv GroupSt.reset (fun g => { g with shadow := [] }) } :=
    h.update fun h0 => { h.tables h0 with
      groups := Tab.wf_mapv _ (h.tables h0).groups
      eachGroup := all_mapv _ _ (fun _ hg => by exact hg) (h.tables h0).eachGroup }
  unfold State.advanceSample
  split
  · exact h1.bump
  · exact h1.bump
  · exact h
theorem Keeps.applyAction (h : Keeps s₀ s) {c : Nat} {a : StepAction} {v : Nat} : Keeps s₀ (s.applyAction c a v).1 := by
  unfold State.applyAction
  extract_lets _ a1 _ _ _ s1 s2 _ s4 s5 _
  have hs1 : Keeps s₀ s1 := h.limitReplay.actionRegs.frame
  have hs2 : Keeps s₀ s2 := by
    unfold s2 a1
    split
    · exact hs1.commitSilent.commitRefills
    · exact hs1
  have hs4 : Keeps s₀ s4 := hs2.advanceSample.put.put.put
  have hs5 : Keeps s₀ s5 := by
    unfold s5 a1
    split
    · exact hs4
    · exact hs4.event
  exact hs5.ckptLate.emptyPool.writeGs

/-! #### Routing (Machine/Routing.lean) -/

theorem Keeps.nanLogit (h : Keeps s₀ s) {a : Site} {token : Nat} : Keeps s₀ (s.nanLogit a token) :=
  .ite h.put h.put.editGroup.event
theorem Keeps.execRtopk (h : Keeps s₀ s) {a : Site} {p : Pred} {tsl tsd : Tsop} {e1 : BitVec 12} {k1 : BitVec 3}
    {ntok : BitVec 13} {norm : BitVec 2} {hw : HwReport} :
    KeepsOut s₀ (execRtopk a p tsl tsd e1 k1 ntok norm hw s) := by
  refine Keeps.loaded (h.issue fun _ h1 => .ite h1 (h1.guarded fun _ h2 => ?_))
  extract_lets core b rows ranked ws bs nan bad s1 s2
  have hs1 : Keeps s₀ s1 := h2.drawn.twrite.bump
  have hs2 : Keeps s₀ s2 := by
    unfold s2 nan
    split
    · exact hs1.nanLogit
    · exact hs1
  exact (Keeps.ite hs2.nonfin hs2).report.advance
theorem Keeps.soincAt (h : Keeps s₀ s) {c node index amount : Nat} : Keeps s₀ (s.soincAt c node index amount) :=
  .ite h.soAdd h.send
theorem Keeps.setHolder (h : Keeps s₀ s) {h' : HolderDisp} : Keeps s₀ (s.setHolder h') := h.editGroup
theorem Keeps.setReplay (h : Keeps s₀ s) {x : ReplayHold} : Keeps s₀ (s.setReplay x) := h.editGroup
theorem Keeps.setDisp (h : Keeps s₀ s) {g : Nat} {d : Dispatch} : Keeps s₀ (s.setDisp g d) := h.editGroup
theorem Keeps.dropDisp (h : Keeps s₀ s) {g : Nat} {d : Dispatch} : Keeps s₀ (s.dropDisp g d) := h.editGroup
theorem Keeps.takeInc (h : Keeps s₀ s) {c node index amount : Nat} : Keeps s₀ (s.takeInc c node index amount) := by
  unfold State.takeInc
  split
  · exact h.setDisp
  · exact h.soAdd
theorem Keeps.finishRows (h : Keeps s₀ s) {c fills expbuf cap rowB so : Nat} {fill : List (Nat × Nat)}
    {nodes : List Nat} : Keeps s₀ (s.finishRows c fills expbuf cap rowB so fill nodes) := by
  unfold State.finishRows
  extract_lets s1 s2
  have hs1 : Keeps s₀ s1 := h.foldl (fun _ _ h1 => h1.store.store)
  have hs2 : Keeps s₀ s2 := hs1.foldl (fun _ _ h1 => .ite h1.takeInc h1.soincAt)
  exact hs2.soAdd
theorem Keeps.finishHolder (h : Keeps s₀ s) {c : Nat} {h' : HolderDisp} : Keeps s₀ (s.finishHolder c h') :=
  h.finishRows.setHolder
theorem Keeps.checkHolder (h : Keeps s₀ s) {c : Nat} {h' : HolderDisp} : Keeps s₀ (s.checkHolder c h') :=
  .ite h.finishHolder h
theorem Keeps.checkReplay (h : Keeps s₀ s) {c : Nat} {x : ReplayHold} : Keeps s₀ (s.checkReplay c x) := by
  unfold State.checkReplay
  extract_lets s1
  have hs1 : Keeps s₀ s1 := h.setReplay
  split
  · exact hs1
  · exact .ite hs1 hs1.finishRows.setReplay
theorem Keeps.replayOwn (h : Keeps s₀ s) {c : Nat} {d : Dispatch} : Keeps s₀ (s.replayOwn c d) := by
  unfold State.replayOwn
  extract_lets
  split
  · exact .ite h.checkReplay h.checkReplay
  · exact h.checkReplay
theorem Keeps.rowLanded (h : Keeps s₀ s) {c node : Nat} {r : RowInfo} {n : Nat} {last : Bool} :
    Keeps s₀ (s.rowLanded c node r n last) := by
  unfold State.rowLanded
  refine .ite ?_ ?_
  · exact .ite h.bump h
  · extract_lets _ s1 s2
    have hs1 : Keeps s₀ s1 := h.store
    have hs2 : Keeps s₀ s2 := .ite hs1.bump hs1
    refine .ite ?_ ?_
    · exact hs2.checkReplay
    · split
      · exact hs2
      · exact hs2.setHolder.checkHolder
theorem Keeps.sendRow (h : Keeps s₀ s) {c node addr : Nat} {tag : PktTag} {r : RowInfo} {bs : List Byte} :
    Keeps s₀ (s.sendRow c node addr tag r bs) := .ite h.bump.store.rowLanded h.bump.send
theorem Keeps.beginRound (h : Keeps s₀ s) {c g : Nat} {d : Dispatch} : Keeps s₀ (s.beginRound c g d).1 :=
  h.bump.setDisp.foldl (fun _ _ h1 => h1.send)
theorem Keeps.rtMismatch (h : Keeps s₀ s) {did node : Nat} : Keeps s₀ (s.rtMismatch did node) :=
  h.event.put.programErrorAs
theorem Keeps.takeCount (h : Keeps s₀ s) {c node : Nat} {f : CountFrame} : Keeps s₀ (s.takeCount c node f).1 := by
  unfold State.takeCount
  extract_lets _ _ s1 _ _ s2 s3
  have hs1 : Keeps s₀ s1 := h.setHolder
  have hs2 : Keeps s₀ s2 := hs1.setHolder.foldl (fun _ _ h3 => h3.send)
  have hs3 : Keeps s₀ s3 := hs2.checkHolder
  exact .iteFst h.rtMismatch (.iteFst hs1 hs3)
theorem Keeps.noteDrops (h : Keeps s₀ s) {g : Nat} {d : Dispatch} : Keeps s₀ (s.noteDrops g d) := by
  unfold State.noteDrops
  split
  · exact h
  · exact .ite h.bump.put h.bump.put.editGroup.event
theorem Keeps.sendRows (h : Keeps s₀ s) {c : Nat} {d : Dispatch} {rows : List (Nat × Nat × Nat × Nat × Nat)} :
    Keeps s₀ (s.sendRows c d rows) := .ite h.strandErrorAt (h.foldl (fun _ _ h1 => h1.touch.sendRow))
theorem Keeps.endDisp (h : Keeps s₀ s) {g : Nat} {d : Dispatch} : Keeps s₀ (s.endDisp g d) := by
  unfold State.endDisp
  split
  · exact h
  · exact .ite h h.dropDisp.soAdd
theorem Keeps.endDisps (h : Keeps s₀ s) : Keeps s₀ s.endDisps := h.foldl (fun _ _ h1 => h1.endDisp)
theorem Keeps.endRounds (h : Keeps s₀ s) {c g : Nat} {d : Dispatch} : Keeps s₀ (s.endRounds c g d) :=
  (h.drawn.noteDrops.foldl (fun _ _ h1 => h1.twrite)).store.setDisp.sendRows.endDisp
theorem Keeps.takeGrant (h : Keeps s₀ s) {c : Nat} {f : GrantFrame} : Keeps s₀ (s.takeGrant c f).1 := by
  unfold State.takeGrant
  split
  · exact h
  · exact .iteFst h.setDisp (.iteFst h.bump.bump.setDisp.beginRound h.bump.bump.endRounds)
theorem Keeps.dispLoop (h : Keeps s₀ s) {c n : Nat} {ms : List DispMsg} : Keeps s₀ (State.dispLoop c n ms s) := by
  induction n generalizing s ms with
  | zero => exact h
  | succ n ih =>
    cases ms with
    | nil => exact h
    | cons m ms =>
      unfold State.dispLoop
      cases m with
      | count node f => exact ih h.takeCount
      | grant f => exact ih h.takeGrant
theorem Keeps.returnRows (h : Keeps s₀ s) {c : Nat} {d : Dispatch} : Keeps s₀ (s.returnRows c d) := by
  unfold State.returnRows
  extract_lets
  refine .ite ?_ ?_
  · exact h.strandErrorAt
  · refine h.foldl fun _ _ h2 => ?_
    exact h2.touch.bump.foldl (fun _ _ h3 => .ite h3.store.rowLanded h3.send)
theorem Keeps.beginDisp (h : Keeps s₀ s) {c g : Nat} {d : Dispatch} : Keeps s₀ (s.beginDisp c g d) := by
  unfold State.beginDisp
  extract_lets _ s1
  have hs1 : Keeps s₀ s1 := h.editGroup
  split
  · exact Keeps.dispLoop hs1.beginRound
  · exact hs1.returnRows.endDisp
  · exact hs1.replayOwn.sendRows.endDisp
theorem Keeps.execDisp (h : Keeps s₀ s) {a : Site} {p : Pred} {tssel : Tsop} {mop list : Mop} {cap : BitVec 16}
    {policy : Bool} {ntok so : BitVec 13} : KeepsOut s₀ (execDisp a p tssel mop list cap policy ntok so s) := by
  unfold Machine.execDisp
  extract_lets
  refine Keeps.loaded ?_
  refine .issue h (fun _ h1 => ?_)
  extract_lets
  refine .ite ?_ ?_
  · exact h1
  · exact h1.guarded (fun _ h2 => .ite h2.put h2.touch.advance.beginDisp)
theorem Keeps.execCmb (h : Keeps s₀ s) {a : Site} {p : Pred} {tsd tssel : Tsop} {mop : Mop} {ntok : BitVec 13}
    {k1 : BitVec 3} {ofmt : BitVec 4} {hw : HwReport} :
    KeepsOut s₀ (execCmb a p tsd tssel mop ntok k1 ofmt hw s) := by
  unfold Machine.execCmb
  extract_lets
  refine Keeps.loaded ?_
  refine .onTile h (fun _ h1 => ?_)
  extract_lets _ _ _ _ s1 s2 _ _ _ _ _ s3 s4 s5
  have hs1 : Keeps s₀ s1 := h1.foldl (fun _ _ h2 => h2.refetchAll.touch)
  have hs2 : Keeps s₀ s2 := hs1.portTraffic
  have hs3 : Keeps s₀ s3 := hs2.twrite
  have hs4 : Keeps s₀ s4 := hs3.bump
  have hs5 : Keeps s₀ s5 := .ite hs4 hs4.bump.nonfin
  split
  · exact h1.staleError
  · exact .ite h1 hs5.report.advance

/-! #### The fabric (Machine/Fabric.lean) -/

theorem Keeps.rxBytes (h : Keeps s₀ s) {port n : Nat} : Keeps s₀ (s.rxBytes port n) := h.rxRaw
theorem Keeps.sendPfc (h : Keeps s₀ s) {port : Nat} {xoff : Bool} : Keeps s₀ (s.sendPfc port xoff) := h.emitOn
theorem Keeps.bufferIn (h : Keeps s₀ s) {port n : Nat} : Keeps s₀ (s.bufferIn port n) :=
  .ite h (.ite h.setPort.put.setPort.bump.sendPfc h.setPort.put)
theorem Keeps.execRxbufXon (h : Keeps s₀ s) {port : Fin 16} {bytes : Nat} :
    KeepsOut s₀ (execRxbufXon port bytes s) := (Keeps.ite h.setPort.sendPfc h.setPort).next
theorem Keeps.execPfcReceive (h : Keeps s₀ s) {port : Fin 16} {xoff : Bool} :
    KeepsOut s₀ (execPfcReceive port xoff s) := (Keeps.ite h.rxRaw.setPort h.rxRaw.setPort.drainSends).next
theorem Keeps.resend (h : Keeps s₀ s) {i : Nat} {p : Packet} {tries : Nat} : Keeps s₀ (s.resend i p tries) := by
  unfold State.resend
  split
  · exact h
  · exact h.takeXsn.emitOn.bump.setConn
theorem Keeps.resprayPort (h : Keeps s₀ s) {port : Nat} : Keeps s₀ (s.resprayPort port) :=
  h.foldl (fun _ _ h1 => h1.foldl (fun _ _ h2 => .ite h2.resend h2))
theorem Keeps.leaveSpray (h : Keeps s₀ s) {port : Nat} {cause : PortCause} : Keeps s₀ (s.leaveSpray port cause) :=
  .ite h.setPort.put.event.resprayPort h.setPort
theorem Keeps.breakPort (h : Keeps s₀ s) {port : Nat} {cause : PortCause} : Keeps s₀ (s.breakPort port cause) :=
  .ite h.setPort.leaveSpray h.setPort
theorem Keeps.execLinkStateChange (h : Keeps s₀ s) {port : Fin 16} {up : Bool} {lock : BitVec 4}
    {cause : PortCause} : KeepsOut s₀ (execLinkStateChange port up lock cause s) :=
  (Keeps.ite (.ite h.setPort.setPort h.setPort) h.setPort.breakPort).next
theorem Keeps.execPortRejoin (h : Keeps s₀ s) {port : Fin 16} : KeepsOut s₀ (execPortRejoin port s) :=
  (Keeps.ite h.setPort.event h).next
theorem Keeps.portsAtBoundary (h : Keeps s₀ s) : Keeps s₀ s.portsAtBoundary := by
  unfold State.portsAtBoundary
  refine h.foldl fun _ _ h1 => ?_
  extract_lets _ _ _ s1
  have hs1 : Keeps s₀ s1 := by
    unfold s1
    split
    · exact h1.leaveSpray
    · exact .ite h1.leaveSpray h1
  exact hs1.setPort
theorem Keeps.sendAck (h : Keeps s₀ s) {i : Nat} {notrun : Bool} : Keeps s₀ (s.sendAck i notrun) :=
  h.setConn.emitIn
theorem Keeps.execAckTimer (h : Keeps s₀ s) {conn : BitVec 13} : KeepsOut s₀ (execAckTimer conn s) :=
  (Keeps.ite h.sendAck h).next
theorem Keeps.ctxMismatch (h : Keeps s₀ s) {peer ctx : Nat} : Keeps s₀ (s.ctxMismatch peer ctx) :=
  h.event.put.programErrorAs
theorem Keeps.execRetransmitTimeout (h : Keeps s₀ s) {conn : BitVec 13} {psn : BitVec 32} :
    KeepsOut s₀ (execRetransmitTimeout conn psn s) := by
  refine Keeps.next ?_
  split
  · exact h
  · extract_lets limit report spent
    have hr {t : State} (ht : Keeps s₀ t) : Keeps s₀ (report t) := by
      unfold report
      split
      · exact ht.setPeer
      · exact ht
    exact .ite (hr h.resend) (.ite h.resend (hr h.put.event.setConn))
theorem Keeps.execSessionRekey (h : Keeps s₀ s) {conn : BitVec 13} : KeepsOut s₀ (execSessionRekey conn s) := by
  unfold Machine.execSessionRekey
  extract_lets
  refine Keeps.next ?_
  split
  · exact h.rekey
  · exact h
theorem Keeps.authFail (h : Keeps s₀ s) {h' : Hdr} : Keeps s₀ (s.authFail h') :=
  .ite (.ite h.bump.closeConn.put.event h.bump.setConn) h.bump
theorem Keeps.pageAnswer (h : Keeps s₀ s) {node tag offset : Nat} {pad fail full last : Bool} {bs : List Byte} :
    Keeps s₀ (s.pageAnswer node tag offset pad fail full last bs) := by
  unfold State.pageAnswer
  split
  · split
    · exact h
    · extract_lets _ _ _ _ _ _ s1 s2 _ s3
      have hs1 : Keeps s₀ s1 := h.editStrand
      have hs2 : Keeps s₀ s2 := .ite hs1.bump.event.put hs1
      have hs3 : Keeps s₀ s3 := by
        unfold s3
        split
        · exact hs2.cachePage
        · exact hs2
      refine .ite ?_ ?_
      · exact h.editStrand
      · refine .ite ?_ ?_
        · split
          · exact hs3.finishHeld
          · exact hs3
        · exact hs3
  · exact h
theorem Keeps.answerPage (h : Keeps s₀ s) {c node slot layer head block tag : Nat} :
    Keeps s₀ (s.answerPage c node slot layer head block tag) := by
  unfold State.answerPage
  split
  · exact h
  · dsimp only
    split
    · exact h.touchPage.send
    · exact h.bump.event.put.send
    · exact .send (.ite h.noteEntry h)
theorem Keeps.rxApply (h : Keeps s₀ s) {c node : Nat} {e : RxEffect} : Keeps s₀ (s.rxApply c node e) := by
  unfold State.rxApply
  split
  · exact h.takeInc
  · exact h.rowLanded
  · exact h.takeCount.dispLoop
  · exact h.takeGrant.dispLoop
  · exact h.answerPage
  · exact h.pageAnswer
theorem Keeps.rxDrain (h : Keeps s₀ s) {i fuel : Nat} : Keeps s₀ (State.rxDrain i fuel s) := by
  induction fuel generalizing s with
  | zero => exact h
  | succ fuel ih =>
    unfold State.rxDrain
    dsimp only
    split
    · exact h
    · exact ih h.setConn.rxApply
theorem Keeps.rxData (h : Keeps s₀ s) {h' : Hdr} {len : Nat} {land : State → State} {eff : List RxEffect}
    (hland : ∀ t, Keeps s₀ t → Keeps s₀ (land t)) : Keeps s₀ (s.rxData h' len land eff) := by
  unfold State.rxData
  extract_lets s1
  have hs1 : Keeps s₀ s1 := h.rxBytes.bufferIn
  refine .ite ?_ ?_
  · exact hs1
  · refine .ite ?_ ?_
    · exact hs1.authFail
    · split
      · exact hs1.bump
      · extract_lets _ _ s2 _ _ _ _ s3 s4
        have hs2 : Keeps s₀ s2 := hs1.setConn
        have hs3 : Keeps s₀ s3 := hland _ hs2.setConn
        have hs4 : Keeps s₀ s4 := .ite hs2.setConn.bump hs3.rxDrain
        exact .ite hs2.sendAck (.ite hs2.bump (.ite hs4.sendAck hs4))
theorem Keeps.execDataReceive (h : Keeps s₀ s) {h' : Hdr} {addr : W64} {bytes : List Byte}
    {row : Option RowInfo} : KeepsOut s₀ (execDataReceive h' addr bytes row s) := by
  unfold Machine.execDataReceive
  refine Keeps.next ?_
  refine .rxData h (fun _ h1 => ?_)
  split
  · exact h1.store
  · exact h1
theorem Keeps.execSoincFrameReceive (h : Keeps s₀ s) {h' : Hdr} {index : BitVec 13} {amount : BitVec 16} :
    KeepsOut s₀ (execSoincFrameReceive h' index amount s) := Keeps.next (h.rxData (fun _ h1 => h1))
theorem Keeps.execCollFrameReceive (h : Keeps s₀ s) {h' : Hdr} {c : CollItem} :
    KeepsOut s₀ (execCollFrameReceive h' c s) := Keeps.next (h.rxData (fun _ h1 => h1.collItem))
theorem Keeps.execNreqReceive (h : Keeps s₀ s) {h' : Hdr} {slot : BitVec 8} {layer : BitVec 10}
    {head : BitVec 6} {block : BitVec 17} {tag : BitVec 32} :
    KeepsOut s₀ (execNreqReceive h' slot layer head block tag s) := Keeps.next (h.rxData (fun _ h1 => h1))
theorem Keeps.execNrespReceive (h : Keeps s₀ s) {h' : Hdr} {tag : BitVec 32} {offset : BitVec 16}
    {pad fail full : Bool} {bytes : List Byte} :
    KeepsOut s₀ (execNrespReceive h' tag offset pad fail full bytes s) :=
  Keeps.next (h.rxData (fun _ h1 => h1))
theorem Keeps.execDcountReceive (h : Keeps s₀ s) {h' : Hdr} {c : CountFrame} :
    KeepsOut s₀ (execDcountReceive h' c s) := Keeps.next (h.rxData (fun _ h1 => h1))
theorem Keeps.execDgrantReceive (h : Keeps s₀ s) {h' : Hdr} {g : GrantFrame} :
    KeepsOut s₀ (execDgrantReceive h' g s) := Keeps.next (h.rxData (fun _ h1 => h1))
theorem Keeps.rxControl (h : Keeps s₀ s) {h' : Hdr} {len : Nat} : Keeps s₀ (s.rxControl h' len).1 := by
  unfold State.rxControl
  extract_lets s1
  have hs1 : Keeps s₀ s1 := h.rxBytes
  split
  · exact hs1
  · split
    · exact hs1.authFail
    · split
      · exact hs1.bump
      · exact hs1.setConn
theorem Keeps.execAckReceive (h : Keeps s₀ s) {h' : Hdr} {next : BitVec 32} {bitmap : BitVec 256}
    {notrun : Bool} : KeepsOut s₀ (execAckReceive h' next bitmap notrun s) := by
  unfold Machine.execAckReceive
  refine Keeps.next ?_
  extract_lets r s1
  have hr : Keeps s₀ r.1 := h.rxControl
  have hs1 : Keeps s₀ s1 := hr
  split
  · exact hr
  · exact .ite hs1.ctxMismatch hs1.setConn.drainSends.endDisps
theorem Keeps.sessionFail (h : Keeps s₀ s) {peer ctx : Nat} : Keeps s₀ (s.sessionFail peer ctx) := h.put.event
theorem Keeps.opens (h : Keeps s₀ s) {i : Nat} {c : Conn} {theirs : BitVec 16} : Keeps s₀ (s.opens i c theirs) :=
  h.setConn.addSession.addSession.put
theorem Keeps.execConnectReceive (h : Keeps s₀ s) {x : Hdr} {ctx : BitVec 4} {theirs : BitVec 16} {certOk : Bool} :
    KeepsOut s₀ (execConnectReceive x ctx theirs certOk s) := by
  refine Keeps.next (.ite h.rxBytes (.ite h.rxBytes.sessionFail ?_))
  dsimp only
  split
  · exact h.rxBytes
  · exact .drainSends (.emitIn (.opens (.ite h.rxBytes.recycle h.rxBytes)))
theorem Keeps.execAcceptReceive (h : Keeps s₀ s) {h' : Hdr} {theirs : BitVec 16} {certOk : Bool} :
    KeepsOut s₀ (execAcceptReceive h' theirs certOk s) := by
  unfold Machine.execAcceptReceive
  extract_lets _ s1
  have hs1 : Keeps s₀ s1 := h.rxBytes
  exact (Keeps.ite hs1 (.ite hs1.sessionFail hs1.opens.drainSends)).next
theorem Keeps.execCloseReceive (h : Keeps s₀ s) {h' : Hdr} : KeepsOut s₀ (execCloseReceive h' s) := by
  unfold Machine.execCloseReceive
  refine Keeps.next ?_
  extract_lets r
  have hr : Keeps s₀ r.1 := h.rxControl
  split
  · exact hr
  · exact hr.closeConn.drainSends
theorem Keeps.execBadFrameReceive (h : Keeps s₀ s) {port : Fin 16} {bad : BadFrame} :
    KeepsOut s₀ (execBadFrameReceive port bad s) := by
  unfold Machine.execBadFrameReceive
  extract_lets s1
  have hs1 : Keeps s₀ s1 := h.rxRaw
  refine Keeps.next ?_
  split
  · exact hs1.bump
  · exact hs1
  · exact hs1.bump
  · exact hs1.bump
  · exact hs1.bump
theorem Keeps.execIcmpEchoRequest (h : Keeps s₀ s) {port : Fin 16} {src : BitVec 128} {bytes : List Byte} :
    KeepsOut s₀ (execIcmpEchoRequest port src bytes s) := (Keeps.ite h.rxRaw.emitOn h.rxRaw).next
theorem Keeps.execNeighbourDiscoveryReceive (h : Keeps s₀ s) {port : Fin 16} {kind : Byte} {src : BitVec 128}
    {mac : BitVec 48} : KeepsOut s₀ (execNeighbourDiscoveryReceive port kind src mac s) := by
  unfold Machine.execNeighbourDiscoveryReceive
  extract_lets s1 s2 s3 s4
  have hs1 : Keeps s₀ s1 := h.rxRaw
  have hs2 : Keeps s₀ s2 := .ite hs1.learn hs1
  have hs3 : Keeps s₀ s3 := .ite hs2.frame hs2
  have hs4 : Keeps s₀ s4 := .ite hs3.emitOn hs3
  exact (Keeps.ite hs4.nvmeDriveAll hs1).next
theorem Keeps.execArpReceive (h : Keeps s₀ s) {port : Fin 16} {request : Bool} {src target : BitVec 32}
    {mac : BitVec 48} : KeepsOut s₀ (execArpReceive port request src target mac s) := by
  unfold Machine.execArpReceive
  extract_lets _ s1 s2 s3
  have hs1 : Keeps s₀ s1 := h.rxRaw
  have hs2 : Keeps s₀ s2 := hs1.learn
  have hs3 : Keeps s₀ s3 := .ite hs2.emitOn hs2
  exact (Keeps.ite hs3.nvmeDriveAll hs1).next

/-! #### Register reads (Machine/RegRead.lean) -/

theorem Keeps.keepTimed (h : Keeps s₀ s) {off : Nat} : Keeps s₀ (s.keepTimed off) :=
  h.foldl (fun _ _ h1 => h1.put)
theorem Keeps.takeSummary (h : Keeps s₀ s) : Keeps s₀ s.takeSummary := by
  refine .mboxEnd (h.frameRing ?_)
  rw [List.length_append, List.length_map, ← List.length_append, List.take_append_drop]

/-! #### The boundary of a beat (Machine/Boundary.lean) -/

theorem Keeps.execPrefetchDeadline (h : Keeps s₀ s) {a : Site} {slot : BitVec 6} {delivered : Nat} :
    KeepsOut s₀ (execPrefetchDeadline a slot delivered s) := by
  unfold Machine.execPrefetchDeadline
  refine Keeps.next ?_
  split
  · exact .ite h.takeFallback h
  · exact h
theorem Keeps.lateStrands (h : Keeps s₀ s) : Keeps s₀ s.lateStrands := .ite h.overrunPolicy h
theorem Keeps.endPeers (h : Keeps s₀ s) : Keeps s₀ s.endPeers := by
  unfold State.endPeers
  extract_lets
  refine h.foldl fun _ _ h1 => ?_
  extract_lets _ s1
  have hs1 : Keeps s₀ s1 := h1.setPeer
  split
  · exact hs1.put
  · exact hs1
theorem Keeps.openBeat (h : Keeps s₀ s) : Keeps s₀ s.openBeat := by
  unfold State.openBeat
  extract_lets s1 _ s2 s3 _ _ s4 _ s5 _ _ _ _ _ s6
  have hs1 : Keeps s₀ s1 := h.lateStrands
  have hs2 : Keeps s₀ s2 := hs1.update fun h0 => { hs1.tables h0 with
    strands := Tab.wf_mapv _ (hs1.tables h0).strands
    eachStrand := all_mapv _ _ (fun _ hx => by exact hx) (hs1.tables h0).eachStrand }
  have hs3 : Keeps s₀ s3 := by
    unfold s3
    split
    · exact hs2.put.put
    · exact hs2
  have hs5 : Keeps s₀ s5 := hs3.put.put.endPeers
  have hs6 : Keeps s₀ s6 := hs5.frame
  exact hs6.frame
theorem Keeps.commitDue (h : Keeps s₀ s) : Keeps s₀ s.commitDue := by
  unfold State.commitDue
  extract_lets _ _ s1
  have hs1 : Keeps s₀ s1 := h.frame.foldl (fun _ _ h1 => h1.commitDevice)
  exact .ite hs1 (.ite hs1.frame hs1)
theorem Keeps.leavePlanned (h : Keeps s₀ s) : Keeps s₀ s.leavePlanned := by
  have h1 := (h.stopEngines.dropRoots (c := none)).closeAll.detach
  exact .svcSettle (h1.update fun h0 => { h1.tables h0 with
    ctxs := Tab.wf_mapv _ (h1.tables h0).ctxs
    eachCtx := all_mapv _ _ (fun _ hx => by exact hx) (h1.tables h0).eachCtx })
theorem Keeps.endJob (h : Keeps s₀ s) {c : Nat} : Keeps s₀ (s.endJob c) :=
  (Keeps.ite h.stopEngines.dropStep.frame h).editCtx.dropRoots.frame.svcSettle
theorem Keeps.closeCtx (h : Keeps s₀ s) {c : Nat} : Keeps s₀ (s.closeCtx c) :=
  h.frame.foldl (fun _ _ h1 => .ite h1.closeConn h1)
theorem Keeps.leaveJob (h : Keeps s₀ s) {c : Nat} : Keeps s₀ (s.leaveJob c) :=
  .ite h.endJob.closeCtx h.endJob.closeCtx.detach
theorem Keeps.beginSwitch (h : Keeps s₀ s) {t : Fin 16} : Keeps s₀ (s.beginSwitch t) := by
  unfold State.beginSwitch
  extract_lets out s1 s2 _ _ _ _ _ s3
  have hs2 : Keeps s₀ s2 := by
    unfold s2 out
    split
    · exact h.stopEngines.dropStep.editCtx
    · exact h
  have hs3 : Keeps s₀ s3 := hs2.update fun h0 => { hs2.tables h0 with
    cores := Tab.wf_mapv _ (hs2.tables h0).cores
    eachCore := all_mapv _ _ (fun _ _ => rfl) (hs2.tables h0).eachCore
    groups := Tab.wf_mapv _ (hs2.tables h0).groups
    eachGroup := all_mapv _ _ (fun _ _ => rfl) (hs2.tables h0).eachGroup }
  exact hs3.showCtx.event
theorem Keeps.trySwitch (h : Keeps s₀ s) {run : Bool} : Keeps s₀ (s.trySwitch run) := by
  unfold State.trySwitch
  split
  · exact h
  · refine .ite ?_ ?_
    · exact h
    · split
      · exact h.beginSwitch
      · exact .ite h h.frame.put.event
theorem Keeps.resume (h : Keeps s₀ s) {c : Nat} : Keeps s₀ (s.resume c) :=
  h.showCtx.cancelFlash.editCtx.frame.put
theorem Keeps.endSwitch (h : Keeps s₀ s) : Keeps s₀ s.endSwitch := by
  unfold State.endSwitch
  split
  · exact h
  · exact .ite h.frame.resume.endJob h.frame.resume
theorem Keeps.endStep (h : Keeps s₀ s) {dev last : Bool} : Keeps s₀ (s.endStep dev last).1 := by
  unfold State.endStep
  split
  · exact h
  · split
    · exact .iteFst h.leaveJob h
    · extract_lets _ s1 _ _ _ r s2
      have hs1 : Keeps s₀ s1 := .ite h.commitCores h
      have hr : Keeps s₀ r.1 := hs1.applyAction
      have hs2 : Keeps s₀ s2 := .ite hr.selfFence hr
      split
      · exact hs2.endJob
      · exact .iteFst (Keeps.ite hs2.frame hs2).leaveJob (.ite hs2.frame hs2)
theorem Keeps.admitSelf (h : Keeps s₀ s) : Keeps s₀ s.admitSelf := by
  unfold State.admitSelf
  split
  · exact h
  · extract_lets _ s1 _ s2 s3
    have hs1 : Keeps s₀ s1 := h.editCtx
    have hs2 : Keeps s₀ s2 := .ite hs1 hs1.setFlt.lowerReference
    have hs3 : Keeps s₀ s3 := hs2.event
    exact .ite hs3 hs3.resume
theorem Keeps.boundaryMarkers (h : Keeps s₀ s) {commits : List Nat} {planned : Bool} :
    Keeps s₀ (s.boundaryMarkers commits planned) := by
  unfold State.boundaryMarkers
  extract_lets _ _ _ s1 _ _ _ s2 _ _ _ s3 s4 s5 s6 s7
  have hs1 : Keeps s₀ s1 := .ite h.frame.bump h
  have hs2 : Keeps s₀ s2 := hs1.frame
  have hs3 : Keeps s₀ s3 := hs2.frame
  have hs4 : Keeps s₀ s4 := hs3.foldl (fun _ _ h1 => h1.holdNotice)
  have hs5 : Keeps s₀ s5 := hs4.sendMarkers
  have hs6 : Keeps s₀ s6 := hs5.foldl (fun _ _ h1 => h1.sendMarkers)
  have hs7 : Keeps s₀ s7 := hs6.foldl (fun _ _ h1 => h1.event)
  exact hs7.foldl (fun _ _ h1 => h1.judgeQuorum)
theorem Keeps.powerLimit (h : Keeps s₀ s) {w : Nat} : Keeps s₀ (s.powerLimit w) := by
  unfold State.powerLimit
  extract_lets s1
  have hs1 : Keeps s₀ s1 := h.put.put
  exact .ite (.ite hs1.frame.bump.put hs1) (.ite hs1.frame hs1)
theorem Keeps.takeHalts (h : Keeps s₀ s) : Keeps s₀ s.takeHalts := .ite h h.frame
theorem Keeps.exposeHeld (h : Keeps s₀ s) : Keeps s₀ s.exposeHeld := by
  unfold State.exposeHeld
  extract_lets _ s'
  have hs' : Keeps s₀ s' := h.frame
  refine hs'.foldl fun _ _ h1 => ?_
  split
  · exact h1
  · exact .ite (h1.frame.foldl (fun _ _ h2 => h2.event)) h1
theorem Keeps.summaryDue (h : Keeps s₀ s) : Keeps s₀ s.summaryDue := by
  unfold State.summaryDue
  split
  · exact h.takeSummary
  · exact h
theorem Keeps.sendWaiting (h : Keeps s₀ s) : Keeps s₀ s.sendWaiting :=
  h.askAgain.drainSends.endDisps.nvmeDriveAll
theorem Keeps.settle (h : Keeps s₀ s) : Keeps s₀ s.settle :=
  h.applyMapChanges.retireAll.exposeHeld.takeHalts.portsAtBoundary.sendWaiting.latchThrottle.summaryDue
theorem Keeps.endGuard (h : Keeps s₀ s) : Keeps s₀ s.endGuard := .ite h.frame.resumeStores h
theorem Keeps.backgroundWork (h : Keeps s₀ s) : Keeps s₀ s.backgroundWork :=
  h.agePool.agePages.retryGathers.circDrainAll
theorem Keeps.wakeStrands (h : Keeps s₀ s) : Keeps s₀ s.wakeStrands := by
  have hx (x : Strand) (hx : x.canon = true) :
      (if x.st = .waitBeat then { x with st := .run } else x : Strand).canon = true := by
    split
    · exact hx
    · exact hx
  refine .foldl (h.update fun h0 => { h.tables h0 with
    strands := Tab.wf_mapv _ (h.tables h0).strands
    eachStrand := all_mapv _ _ hx (h.tables h0).eachStrand }) fun _ _ h1 => h1.woken
theorem Keeps.idleLeaves (h : Keeps s₀ s) : Keeps s₀ s.idleLeaves :=
  h.foldl (fun _ _ h1 => .ite h1.leaveJob h1)
theorem Keeps.takeOverlays (h : Keeps s₀ s) : Keeps s₀ s.takeOverlays := by
  unfold State.takeOverlays
  extract_lets s1
  have hs1 : Keeps s₀ s1 := h.takeMode
  split
  · exact hs1
  · exact .ite hs1 (.ite hs1.event.endJob hs1.fixPlacement.showOverlays)
theorem Keeps.endQuarantine (h : Keeps s₀ s) : Keeps s₀ s.endQuarantine :=
  h.releasePages.withFrames fun h0 => Tab.wf_mapv _ (h.releasePages.tables h0).frames
theorem Keeps.runBoundary (h : Keeps s₀ s) {watts : Nat} : Keeps s₀ (s.runBoundary watts) := by
  unfold State.runBoundary
  extract_lets last switched spare first s1 leave due hit s2 ends planned0 r s3 s4 s5 s6 s7 entry s8 s9 s10 s11 s12
    s13 s14 s15 s16
  have hs1 : Keeps s₀ s1 := h.openBeat
  have hs2 : Keeps s₀ s2 := hs1.commitDue
  have hs3 : Keeps s₀ s3 := .iteFst hs2.endStep hs2
  have hs4 : Keeps s₀ s4 := .ite hs3.endSwitch hs3
  have hs5 : Keeps s₀ s5 := by
    unfold s5 first
    split
    · exact hs4.resume
    · exact hs4
  have hs6 : Keeps s₀ s6 := .ite hs5.admitSelf hs5
  have hs7 : Keeps s₀ s7 := .ite hs6.trySwitch hs6
  have hs8 : Keeps s₀ s8 := .ite hs7.takeOverlays hs7
  have hs9 : Keeps s₀ s9 := hs8.endQuarantine
  have hs10 : Keeps s₀ s10 := .ite hs9 hs9.takeDeadlines
  have hs11 : Keeps s₀ s11 := .ite hs10 hs10.boundaryMarkers
  have hs12 : Keeps s₀ s12 := .ite hs11.stepEntry hs11
  have hs13 : Keeps s₀ s13 := hs12.endGuard.backgroundWork.powerLimit
  have hs14 : Keeps s₀ s14 := hs13.idleLeaves
  have hs15 : Keeps s₀ s15 := .ite hs14.trySwitch hs14
  have hs16 : Keeps s₀ s16 := .ite hs15 hs15.wakeStrands
  exact .ite hs1.commitDue.leavePlanned.settle hs16.settle
theorem Keeps.boundary (h : Keeps s₀ s) {k : BoundaryKind} {watts : Nat} : Keeps s₀ (s.boundary k watts) :=
  .ite h.guardStart (.ite h.guardStart.runBoundary h)
theorem Keeps.execBeatBoundary (h : Keeps s₀ s) {watts : BitVec 16} : KeepsOut s₀ (execBeatBoundary watts s) :=
  h.boundary.next
theorem Keeps.execStepEndBoundary (h : Keeps s₀ s) {watts : BitVec 16} :
    KeepsOut s₀ (execStepEndBoundary watts s) := h.boundary.next
theorem Keeps.execSwitchEnd (h : Keeps s₀ s) {watts : BitVec 16} : KeepsOut s₀ (execSwitchEnd watts s) :=
  h.boundary.next
theorem Keeps.execJobFirstStepEntry (h : Keeps s₀ s) {watts : BitVec 16} :
    KeepsOut s₀ (execJobFirstStepEntry watts s) := h.boundary.next
theorem Keeps.execDeviceFenceCommit (h : Keeps s₀ s) {watts : BitVec 16} :
    KeepsOut s₀ (execDeviceFenceCommit watts s) := h.boundary.next

/-! #### The loader (Machine/Loader.lean) -/

theorem Keeps.installImage (h : Keeps s₀ s) {c : Nat} {img : List Byte} : Keeps s₀ (s.installImage c img) := by
  unfold State.installImage
  extract_lets s1 _ s2 s3
  have hs1 : Keeps s₀ s1 := h.dropPool
  have hs2 : Keeps s₀ s2 := hs1.editCtx
  have hs3 : Keeps s₀ s3 := by
    unfold s3
    split
    · exact hs2.vwrite
    · exact hs2
  exact hs3.reservePool

/-! #### Mailbox commands (Machine/Mailbox.lean) -/

theorem Keeps.mailbox (h : Keeps s₀ s) {p : Path} {code : Nat} {tag : Byte} {run : State → State}
    (hrun : ∀ t, Keeps s₀ t → Keeps s₀ (run t)) : Keeps s₀ (s.mailbox p code tag run) :=
  .ite h (.ite h.event (hrun _ h.frame.put.put))
theorem Keeps.setMboxJob (h : Keeps s₀ s) {j : MboxJob} : Keeps s₀ (s.setMboxJob j) := h.frame
theorem Keeps.notAccepted (h : Keeps s₀ s) : Keeps s₀ s.notAccepted := h.mboxEnd
theorem Keeps.badArgument (h : Keeps s₀ s) : Keeps s₀ s.badArgument := h.mboxEnd
theorem Keeps.execMboxArgWrite (h : Keeps s₀ s) {path : Path} {k : BitVec 5} {v : W64} :
    KeepsOut s₀ (execMboxArgWrite path k v s) := (Keeps.ite h (.ite h.event h.put)).next
theorem Keeps.cmdSummary (h : Keeps s₀ s) : Keeps s₀ s.cmdSummary := .ite h.takeSummary h.setMboxJob
theorem Keeps.execSummary (h : Keeps s₀ s) {path : Path} {tag : Byte} : KeepsOut s₀ (execSummary path tag s) :=
  Keeps.next (h.mailbox (fun _ h1 => h1.cmdSummary))
theorem Keeps.cmdTest (h : Keeps s₀ s) {stress : Bool} : Keeps s₀ (State.cmdTest stress s) :=
  .ite h.setMboxJob h.notAccepted
theorem Keeps.execTestNative (h : Keeps s₀ s) {path : Path} {tag : Byte} :
    KeepsOut s₀ (execTestNative path tag s) := Keeps.next (h.mailbox (fun _ h1 => h1.cmdTest))
theorem Keeps.execTestStress (h : Keeps s₀ s) {path : Path} {tag : Byte} :
    KeepsOut s₀ (execTestStress path tag s) := Keeps.next (h.mailbox (fun _ h1 => h1.cmdTest))
theorem Keeps.fenceNow (h : Keeps s₀ s) {cores : BitVec 96} {cause : Byte} {marginal : BitVec 96} :
    Keeps s₀ (s.fenceNow cores cause marginal) := h.frame.wholeGroups.writeRecord
theorem Keeps.execFieldTestDone (h : Keeps s₀ s) {failing : BitVec 96} {failGroups : BitVec 12} :
    KeepsOut s₀ (execFieldTestDone failing failGroups s) := by
  unfold Machine.execFieldTestDone
  refine Keeps.next ?_
  split
  · exact h.fenceNow.mboxEnd
  · exact h.fenceNow.mboxEnd
  · exact h
theorem Keeps.cmdFenceEdit (h : Keeps s₀ s) : Keeps s₀ s.cmdFenceEdit := by
  unfold State.cmdFenceEdit
  extract_lets _ _ _ _ _ _ groups _ s1 s2 _
  have hw (h0 : s₀.canon = true) : Tab.wf GroupSt.reset groups = true :=
    wf_foldl (h.tables h0).groups fun _ _ ht => Tab.wf_set _ _ ht
  have he (h0 : s₀.canon = true) : groups.all (fun e => e.2.canon) = true :=
    all_foldl (h.tables h0).eachGroup fun _ _ ht => eachGroup_setWhole ht _ _
  clear_value groups
  have hs1 : Keeps s₀ s1 := h.update fun h0 => { h.tables h0 with groups := hw h0, eachGroup := he h0 }
  have hs2 : Keeps s₀ s2 := hs1.wholeGroups
  exact .ite h.notAccepted (.ite h.badArgument hs2.writeRecord.mboxEnd)
theorem Keeps.execFenceEdit (h : Keeps s₀ s) {path : Path} {tag : Byte} :
    KeepsOut s₀ (execFenceEdit path tag s) := Keeps.next (h.mailbox (fun _ h1 => h1.cmdFenceEdit))
theorem Keeps.ctxRefuse (h : Keeps s₀ s) {c cause : Nat} : Keeps s₀ (s.ctxRefuse c cause) := h.event.put.mboxEnd
theorem Keeps.ctxCommand (h : Keeps s₀ s) {ok : Bool} {c : Nat} {causes : List (Bool × Nat)} {run : State → State}
    (hrun : ∀ t, Keeps s₀ t → Keeps s₀ (run t)) : Keeps s₀ (s.ctxCommand ok c causes run) := by
  unfold State.ctxCommand
  refine .ite ?_ ?_
  · exact h.notAccepted
  · split
    · exact h.ctxRefuse
    · exact hrun _ h
theorem Keeps.cmdCtxCreate (h : Keeps s₀ s) : Keeps s₀ s.cmdCtxCreate := by
  unfold State.cmdCtxCreate
  extract_lets
  refine h.ctxCommand fun t h1 => ?_
  exact .mboxEnd (.drawn (.drawn (.setCtx
    (.setFrame (h1.withMem fun h0 => wf_zeroFrame _ _ (h1.tables h0).mem)) fun _ => rfl)))
theorem Keeps.execCtxCreate (h : Keeps s₀ s) {path : Path} {tag : Byte} :
    KeepsOut s₀ (execCtxCreate path tag s) := Keeps.next (h.mailbox (fun _ h1 => h1.cmdCtxCreate))
theorem Keeps.queueMap (h : Keeps s₀ s) {ch : MapChange} : Keeps s₀ (s.queueMap ch) :=
  .ite h.setMboxJob.frame.applyMapChanges h.setMboxJob.frame
theorem Keeps.cmdCtxMap (h : Keeps s₀ s) : Keeps s₀ s.cmdCtxMap := by
  unfold State.cmdCtxMap
  extract_lets
  split
  · exact h.ctxCommand (fun _ h1 => h1.queueMap)
theorem Keeps.execCtxMap (h : Keeps s₀ s) {path : Path} {tag : Byte} : KeepsOut s₀ (execCtxMap path tag s) :=
  Keeps.next (h.mailbox (fun _ h1 => h1.cmdCtxMap))
theorem Keeps.cmdCtxUnmap (h : Keeps s₀ s) : Keeps s₀ s.cmdCtxUnmap := by
  unfold State.cmdCtxUnmap
  extract_lets
  split
  · exact h.ctxCommand (fun _ h1 => h1.queueMap)
theorem Keeps.execCtxUnmap (h : Keeps s₀ s) {path : Path} {tag : Byte} : KeepsOut s₀ (execCtxUnmap path tag s) :=
  Keeps.next (h.mailbox (fun _ h1 => h1.cmdCtxUnmap))
theorem Keeps.cmdCtxSwitch (h : Keeps s₀ s) : Keeps s₀ s.cmdCtxSwitch := by
  unfold State.cmdCtxSwitch
  extract_lets
  split
  · exact h.ctxCommand (fun _ h1 => h1.frame.returnTarget.mboxEnd)
theorem Keeps.execCtxSwitch (h : Keeps s₀ s) {path : Path} {tag : Byte} :
    KeepsOut s₀ (execCtxSwitch path tag s) := Keeps.next (h.mailbox (fun _ h1 => h1.cmdCtxSwitch))
theorem Keeps.destroyCtx (h : Keeps s₀ s) {c : Nat} : Keeps s₀ (s.destroyCtx c) := by
  unfold State.destroyCtx
  extract_lets x s1 s2 _ _ s3 _ _ s4 _ _
  have hs1 : Keeps s₀ s1 := .ite h.leaveJob h.closeCtx
  have hs2 : Keeps s₀ s2 := hs1.foldl fun _ _ h1 => h1.releaseMapping
  have hs3 : Keeps s₀ s3 := .frame (hs2.withFrames fun h0 => Tab.wf_mapv _ (hs2.tables h0).frames)
  have hs4 : Keeps s₀ s4 := .ite (hs3.update fun h0 => { hs3.tables h0 with
    so := rfl, regs := Tab.wf_filter _ (hs3.tables h0).regs }) hs3
  exact hs4.frame.setCtx fun _ => rfl
theorem Keeps.cmdCtxDestroy (h : Keeps s₀ s) : Keeps s₀ s.cmdCtxDestroy := by
  unfold State.cmdCtxDestroy
  extract_lets
  split
  · exact h.ctxCommand (fun _ h1 => h1.destroyCtx.mboxEnd)
theorem Keeps.execCtxDestroy (h : Keeps s₀ s) {path : Path} {tag : Byte} :
    KeepsOut s₀ (execCtxDestroy path tag s) := Keeps.next (h.mailbox (fun _ h1 => h1.cmdCtxDestroy))
theorem Keeps.cmdKeyImport (h : Keeps s₀ s) : Keeps s₀ s.cmdKeyImport := by
  unfold State.cmdKeyImport
  extract_lets
  split
  · refine .ctxCommand h (fun _ h1 => ?_)
    split
    · exact h1.put.event.mboxEnd
    · exact h1.editCtx.mboxEnd
theorem Keeps.execKeyImport (h : Keeps s₀ s) {path : Path} {tag : Byte} :
    KeepsOut s₀ (execKeyImport path tag s) := Keeps.next (h.mailbox (fun _ h1 => h1.cmdKeyImport))
theorem Keeps.execUnsealAttempt (h : Keeps s₀ s) {ctx : Fin 16} : KeepsOut s₀ (execUnsealAttempt ctx s) := by
  unfold Machine.execUnsealAttempt
  extract_lets
  refine Keeps.next ?_
  split
  · split
    · exact .ite h.editCtx h.editCtx.put.event
    · exact h.editCtx.put.event
  · exact h
theorem Keeps.cmdAttest (h : Keeps s₀ s) : Keeps s₀ s.cmdAttest := by
  unfold State.cmdAttest
  extract_lets
  split
  · exact h.ctxCommand (fun _ h1 => h1.editCtx.frame.drawn.mboxEnd)
theorem Keeps.execAttest (h : Keeps s₀ s) {path : Path} {tag : Byte} : KeepsOut s₀ (execAttest path tag s) :=
  Keeps.next (h.mailbox (fun _ h1 => h1.cmdAttest))

/-! #### Jobs (Machine/Jobs.lean) -/

theorem Keeps.poke (h : Keeps s₀ s) {c va : Nat} {b : Byte} : Keeps s₀ (s.poke c va b) := by
  unfold State.poke
  split
  · exact h
  · exact .ite (h.withFlash fun h0 => Tab.wf_set _ _ (h.tables h0).flash)
      (h.withMem fun h0 => Tab.wf_set _ _ (h.tables h0).mem)
theorem Keeps.pokes (h : Keeps s₀ s) {c va : Nat} {bs : List Byte} : Keeps s₀ (s.pokes c va bs) := by
  induction bs generalizing s va with
  | nil => exact h
  | cons b bs ih => exact ih h.poke
theorem Keeps.cmdImageLoad (h : Keeps s₀ s) : Keeps s₀ s.cmdImageLoad := by
  unfold State.cmdImageLoad
  extract_lets
  split
  · refine .ite ?_ ?_
    · exact h.notAccepted
    · exact .ite h.badArgument (.ite h.setMboxJob.nvmeBegin h.setMboxJob)
theorem Keeps.execImageLoad (h : Keeps s₀ s) {path : Path} {tag : Byte} :
    KeepsOut s₀ (execImageLoad path tag s) := Keeps.next (h.mailbox (fun _ h1 => h1.cmdImageLoad))
theorem Keeps.execImageLoadDone (h : Keeps s₀ s) {bytes : Option (List Byte)} :
    KeepsOut s₀ (execImageLoadDone bytes s) := by
  unfold Machine.execImageLoadDone
  refine Keeps.next ?_
  split
  · extract_lets s1
    have hs1 : Keeps s₀ s1 := h.frame
    split
    · exact hs1.mboxEnd
    · extract_lets _ s2 _ s3
      have hs2 : Keeps s₀ s2 := hs1.pokes
      have hs3 : Keeps s₀ s3 := hs2.editCtx
      refine .ite ?_ ?_
      · exact hs2.mboxEnd
      · split
        · exact hs2.installImage.mboxEnd
        · exact hs3.eventFor.mboxEnd
  · exact h
theorem Keeps.setOrder (h : Keeps s₀ s) {o : Nat} : Keeps s₀ (s.setOrder o) := by
  unfold State.setOrder
  split
  · exact h.setMboxJob
  · exact h.setMboxJob
  · exact h
theorem Keeps.beginAcquire (h : Keeps s₀ s) : Keeps s₀ s.beginAcquire := by
  have h1 (bt : BeatUnit) (hp : bt.peers = []) : Keeps s₀ { s with bt := bt } :=
    h.update fun h0 => { h.tables h0 with peers := (congrArg (Tab.wf none) hp).trans rfl }
  unfold State.beginAcquire
  extract_lets
  split
  · exact (h1 _ rfl).assign
  · exact h.abortJoin
theorem Keeps.formPartners (h : Keeps s₀ s) {c : Nat} {spare tell : Bool} :
    Keeps s₀ (s.formPartners c spare tell) := by
  unfold State.formPartners
  extract_lets _ _ s1 _ s2
  have hs1 : Keeps s₀ s1 := h.setFlt
  have hs2 : Keeps s₀ s2 := hs1.foldl (fun _ _ h1 => h1.event)
  exact .ite hs1 (hs2.foldl (fun _ _ h1 => h1.event))
theorem Keeps.openMembers (h : Keeps s₀ s) {c : Nat} : Keeps s₀ (s.openMembers c) :=
  h.foldl (fun _ _ h1 => .ite h1.openTo h1)
theorem Keeps.joinFormed (h : Keeps s₀ s) : Keeps s₀ s.joinFormed := by
  unfold State.joinFormed
  split
  · exact .ite (.ite h.openMembers.setOrder.mboxEnd h.openMembers.setOrder) h
  · exact h
theorem Keeps.advanceJoin (h : Keeps s₀ s) : Keeps s₀ s.advanceJoin := by
  unfold State.advanceJoin
  split
  · exact .ite h.formPartners.setOrder.joinFormed h.joinFormed
  · exact h
theorem Keeps.execBeatLock (h : Keeps s₀ s) : KeepsOut s₀ (execBeatLock s) :=
  (Keeps.ite h.frame.event.advanceJoin h).next
theorem Keeps.beginJoin (h : Keeps s₀ s) {c : Nat} {j : Job} : Keeps s₀ (s.beginJoin c j) := by
  unfold State.beginJoin
  extract_lets _ s1 s2 _ s3 _ s4
  have hs1 : Keeps s₀ s1 := h.editCtx
  have hs2 : Keeps s₀ s2 := .ite hs1.showCtx hs1
  have hs3 : Keeps s₀ s3 := hs2.setFlt
  have hs4 : Keeps s₀ s4 := hs3.frame.svcSettle
  exact .ite hs4.formPartners.setOrder.joinFormed hs4.beginAcquire
theorem Keeps.cmdJobStart (h : Keeps s₀ s) : Keeps s₀ s.cmdJobStart := by
  unfold State.cmdJobStart
  extract_lets
  split
  · extract_lets s1
    have hs1 : Keeps s₀ s1 := h.setMboxJob
    exact .ite hs1.notAccepted (.ite hs1.badArgument hs1.beginJoin)
theorem Keeps.execJobStart (h : Keeps s₀ s) {path : Path} {tag : Byte} : KeepsOut s₀ (execJobStart path tag s) :=
  Keeps.next (h.mailbox (fun _ h1 => h1.cmdJobStart))
theorem Keeps.cmdSpareJoin (h : Keeps s₀ s) : Keeps s₀ s.cmdSpareJoin := by
  unfold State.cmdSpareJoin
  split
  · exact .ite h.notAccepted (.ite h.badArgument h.setMboxJob.beginJoin)
theorem Keeps.execSpareJoin (h : Keeps s₀ s) {path : Path} {tag : Byte} :
    KeepsOut s₀ (execSpareJoin path tag s) := Keeps.next (h.mailbox (fun _ h1 => h1.cmdSpareJoin))
theorem Keeps.failJoin (h : Keeps s₀ s) {result : Nat} : Keeps s₀ (s.failJoin result) := by
  unfold State.failJoin
  extract_lets s1 s2
  have hs1 : Keeps s₀ s1 := by
    unfold s1
    split
    · exact h.closeCtx
    · exact h
  have hs2 : Keeps s₀ s2 := hs1.abortJoin
  exact .ite hs2 hs2.detach
theorem Keeps.execFormationExchange (h : Keeps s₀ s) {peer : BitVec 15} {f : Formation} :
    KeepsOut s₀ (execFormationExchange peer f s) := by
  unfold Machine.execFormationExchange
  extract_lets _ _ s1
  have hs1 : Keeps s₀ s1 := h.frame
  refine Keeps.next ?_
  split
  · split
    · exact h
    · refine .ite ?_ ?_
      · exact h
      · split
        · exact h.event.drawn.failJoin
        · exact (Keeps.ite hs1.editCtx hs1).joinFormed
  · split
    · exact .ite h.frame h
    · exact h
theorem Keeps.loadedState (h : Keeps s₀ s) {c : Nat} {j : Job} : Keeps s₀ (s.loadedState c j) :=
  h.putCtx.initGs.setFlt.mboxEnd
theorem Keeps.loadShards (h : Keeps s₀ s) {c : Nat} {j : Job} {l : List (Nat × List Byte)} {write : Bool} :
    Keeps s₀ (s.loadShards c j l write) := by
  unfold State.loadShards
  split
  · exact h.put.event.failJoin
  · exact (Keeps.ite (h.foldl (fun _ _ h1 => h1.pokes)) h).loadedState
theorem Keeps.execStateLoadDone (h : Keeps s₀ s) {found ioError : Bool} {stored : List (GenArea × List Byte)} :
    KeepsOut s₀ (execStateLoadDone found ioError stored s) := by
  unfold Machine.execStateLoadDone
  refine Keeps.next ?_
  split
  · split
    · exact h
    · refine .ite ?_ ?_
      · exact h
      · extract_lets
        refine .ite ?_ ?_
        · refine .failJoin ?_
          split
          · exact h.frame
          · exact h
        · split
          · exact h.loadShards
          · exact .ite h.loadShards h.failJoin
          · exact .ite h.loadShards h.failJoin
  · exact h
theorem Keeps.cmdJobLeave (h : Keeps s₀ s) : Keeps s₀ s.cmdJobLeave := by
  unfold State.cmdJobLeave
  extract_lets
  split
  · split
    · exact .ite h.notAccepted (.ite h.badArgument h.editCtx.mboxEnd)
    · exact h.notAccepted
theorem Keeps.execJobLeave (h : Keeps s₀ s) {path : Path} {tag : Byte} : KeepsOut s₀ (execJobLeave path tag s) :=
  Keeps.next (h.mailbox (fun _ h1 => h1.cmdJobLeave))
theorem Keeps.execWorkingCopyDerivationDone (h : Keeps s₀ s) {copies : List WorkCopy} :
    KeepsOut s₀ (execWorkingCopyDerivationDone copies s) := by
  unfold Machine.execWorkingCopyDerivationDone
  refine Keeps.next ?_
  split
  · exact h
  · refine .ite ?_ ?_
    · exact h
    · extract_lets s1 _ _ s2
      have hs1 : Keeps s₀ s1 := h.foldl (fun _ _ h1 => h1.deriveWork)
      have hs2 : Keeps s₀ s2 := hs1.frame
      refine hs2.foldl fun _ _ h1 => ?_
      split
      · exact .ite h1.fillEntry.setColl h1
      · exact h1

/-! #### Power and start-up (Machine/Power.lean) -/

theorem Keeps.dropCommand (h : Keeps s₀ s) : Keeps s₀ s.dropCommand := by
  unfold State.dropCommand
  split
  · exact h.mboxEnd
  · exact h
theorem Keeps.mainDown (h : Keeps s₀ s) : Keeps s₀ s.mainDown := by
  have h1 := h.dropCommand
  exact ⟨fun h0 => (State.canonical_iff _).1 { (State.canonical_iff _).2 (rfl : State.reset.canon = true) with
    regs := Tab.wf_filter _ (h1.tables h0).regs, flash := (h1.tables h0).flash }, h1.ring⟩
theorem Keeps.setInput (h : Keeps s₀ s) {v : Nat} : Keeps s₀ (s.setInput v) := h.put
theorem Keeps.supplyLog (h : Keeps s₀ s) {kind lowest us : Nat} : Keeps s₀ (s.supplyLog kind lowest us) :=
  h.frame
theorem Keeps.execStandbyPowerUp (h : Keeps s₀ s) {feed : BitVec 4} {hubpos : List (BitVec 2)} {closed seated : Bool} :
    KeepsOut s₀ (execStandbyPowerUp feed hubpos closed seated s) := by
  refine Keeps.next (.ite h (.put (.drawn ⟨fun h0 => ?_, fun _ => Nat.zero_le _⟩)))
  exact (State.canonical_iff _).1 { (State.canonical_iff _).2 (rfl : State.reset.canon = true) with
    regs := Tab.wf_filter _ (h.tables h0).regs, flash := (h.tables h0).flash }
theorem Keeps.execStandbyPowerLoss (h : Keeps s₀ s) : KeepsOut s₀ (execStandbyPowerLoss s) := by
  refine Keeps.next ⟨fun h0 => ?_, fun _ => Nat.zero_le _⟩
  exact (State.canonical_iff _).1 { (State.canonical_iff _).2 (rfl : State.reset.canon = true) with
    regs := Tab.wf_filter _ (h.tables h0).regs, flash := (h.tables h0).flash }
theorem Keeps.execManagementStageDone (h : Keeps s₀ s) {microcodeOk : Bool} :
    KeepsOut s₀ (execManagementStageDone microcodeOk s) :=
  (Keeps.ite h (.ite h.drawn.event (.ite h.frame.event h.frame))).next
theorem Keeps.execSeatInsert (h : Keeps s₀ s) : KeepsOut s₀ (execSeatInsert s) := h.frame.next
theorem Keeps.execMainPathOn (h : Keeps s₀ s) : KeepsOut s₀ (execMainPathOn s) := (Keeps.ite h.frame h).next
theorem Keeps.execMainGood (h : Keeps s₀ s) {input : BitVec 16} : KeepsOut s₀ (execMainGood input s) :=
  (Keeps.ite (Keeps.ite h.setInput h).frame (.ite h.setInput h)).next
theorem Keeps.execRailsUp (h : Keeps s₀ s) {ok : Bool} : KeepsOut s₀ (execRailsUp ok s) :=
  (Keeps.ite (h.frame.foldl (fun _ _ h1 => .ite h1.put h1)) h).next
theorem Keeps.trainPcie (h : Keeps s₀ s) : Keeps s₀ s.trainPcie := .ite h.frame h
theorem Keeps.sliceFails (h : Keeps s₀ s) {k : Nat} {slow : Bool} : Keeps s₀ (s.sliceFails k slow) :=
  .ite h (.ite h.frame.event h.frame)
theorem Keeps.execBistSliceDone (h : Keeps s₀ s) {slice : Fin 113} {pass : Bool} :
    KeepsOut s₀ (execBistSliceDone slice pass s) := (Keeps.ite h (.ite h.frame.trainPcie h.sliceFails)).next
theorem Keeps.execBistSliceTimeout (h : Keeps s₀ s) {slice : Fin 113} :
    KeepsOut s₀ (execBistSliceTimeout slice s) := (Keeps.ite h h.sliceFails).next
theorem Keeps.execBistComplete (h : Keeps s₀ s) {ms : BitVec 16} : KeepsOut s₀ (execBistComplete ms s) := by
  unfold Machine.execBistComplete
  refine Keeps.next ?_
  extract_lets _ r _ _ s1 s2 s3 _ s4 s5
  have hg (t : Tab GroupSt) (g : Nat) (ht : Tab.wf GroupSt.reset t = true) :
      Tab.wf GroupSt.reset (if r.groups.getLsbD g then
        Tab.set GroupSt.reset t g { Tab.get GroupSt.reset t g with whole := true } else t) = true := by
    split
    · exact Tab.wf_set _ _ ht
    · exact ht
  have he (t : Tab GroupSt) (g : Nat) (ht : t.all (fun e => e.2.canon) = true) :
      List.all (if r.groups.getLsbD g then
        Tab.set GroupSt.reset t g { Tab.get GroupSt.reset t g with whole := true } else t)
        (fun e => e.2.canon) = true := by
    split
    · exact eachGroup_setWhole ht _ _
    · exact ht
  have hs1 : Keeps s₀ s1 := h.update fun h0 => { h.tables h0 with
    groups := wf_foldl (h.tables h0).groups hg
    eachGroup := all_foldl (h.tables h0).eachGroup he }
  have hs2 : Keeps s₀ s2 := hs1.wholeGroups
  have hs3 : Keeps s₀ s3 := hs2.foldl fun _ _ h1 => h1.setFrame
  have hs4 : Keeps s₀ s4 := .ite hs3 hs3.writeRecord
  have hs5 : Keeps s₀ s5 := hs4.put.event
  exact .ite (.ite hs5.frame.mainDown.frame hs5.frame) h
theorem Keeps.execPerstDeassert (h : Keeps s₀ s) : KeepsOut s₀ (execPerstDeassert s) := h.frame.trainPcie.next
theorem Keeps.execSupplyWarning (h : Keeps s₀ s) {input : BitVec 16} : KeepsOut s₀ (execSupplyWarning input s) := by
  unfold Machine.execSupplyWarning
  extract_lets _ s1 s2 _ s3
  have hs1 : Keeps s₀ s1 := h.setInput.event.supplyLog
  have hs2 : Keeps s₀ s2 := .ite hs1 hs1.bump
  have hs3 : Keeps s₀ s3 := hs2.frame
  exact (Keeps.ite (.ite hs3.contribute hs3) h).next
theorem Keeps.execSupplyRecovery (h : Keeps s₀ s) {input : BitVec 16} {us : Nat} :
    KeepsOut s₀ (execSupplyRecovery input us s) := by
  unfold Machine.execSupplyRecovery
  extract_lets _ s1 _ s2
  have hs1 : Keeps s₀ s1 := h.setInput.event.supplyLog
  have hs2 : Keeps s₀ s2 := hs1.frame
  exact (Keeps.ite (.ite hs2.endGuard hs2) h).next
theorem Keeps.execSupplyReset (h : Keeps s₀ s) {input : BitVec 16} : KeepsOut s₀ (execSupplyReset input s) :=
  (Keeps.ite h.setInput.supplyLog.mainDown h).next
theorem Keeps.execGuardTimeout (h : Keeps s₀ s) {input : BitVec 16} {us : Nat} :
    KeepsOut s₀ (execGuardTimeout input us s) := (Keeps.ite h.setInput.event.supplyLog.selfFence h).next
theorem Keeps.pathOff (h : Keeps s₀ s) : Keeps s₀ s.pathOff := (Keeps.ite h.mainDown h).frame
theorem Keeps.execSupplyOverTimeout (h : Keeps s₀ s) {input : BitVec 16} :
    KeepsOut s₀ (execSupplyOverTimeout input s) := (Keeps.ite h.setInput.put.event.pathOff h).next
theorem Keeps.execMainOvervoltage (h : Keeps s₀ s) {input : BitVec 16} :
    KeepsOut s₀ (execMainOvervoltage input s) := (Keeps.ite h.setInput.pathOff h).next
theorem Keeps.execSeatRelease (h : Keeps s₀ s) : KeepsOut s₀ (execSeatRelease s) := h.frame.pathOff.next
theorem Keeps.execJunctionLimit (h : Keeps s₀ s) {tj : Byte} : KeepsOut s₀ (execJunctionLimit tj s) :=
  (Keeps.ite h.put.put.put.event.selfFence h.put.put).next
theorem Keeps.requestRemoval (h : Keeps s₀ s) {detail : Nat} : Keeps s₀ (s.requestRemoval detail) := by
  unfold State.requestRemoval
  refine .ite ?_ ?_
  · exact h
  · split
    · exact h.event
    · exact h.event.frame
theorem Keeps.cancelRemoval (h : Keeps s₀ s) : Keeps s₀ s.cancelRemoval := .ite h h.frame.event
theorem Keeps.execAttnRelease (h : Keeps s₀ s) {ms : Nat} : KeepsOut s₀ (execAttnRelease ms s) :=
  (Keeps.ite h.frame.requestRemoval h.frame).next
theorem Keeps.execAttnHold (h : Keeps s₀ s) : KeepsOut s₀ (execAttnHold s) := h.frame.cancelRemoval.next
theorem Keeps.execMainRailsDown (h : Keeps s₀ s) : KeepsOut s₀ (execMainRailsDown s) :=
  (Keeps.ite h.event.mainDown.frame h).next
theorem Keeps.execLatchOpening (h : Keeps s₀ s) : KeepsOut s₀ (execLatchOpening s) := by
  unfold Machine.execLatchOpening
  extract_lets _ s1 s2
  have hs1 : Keeps s₀ s1 := h.frame
  have hs2 : Keeps s₀ s2 := hs1.put.event
  exact (Keeps.ite hs1 (.ite hs2.frame.selfFence hs2.event.mainDown)).next
theorem Keeps.execLatchPowerDown (h : Keeps s₀ s) : KeepsOut s₀ (execLatchPowerDown s) :=
  (Keeps.ite h.event.mainDown h).next
theorem Keeps.execSelfFencing (h : Keeps s₀ s) : KeepsOut s₀ (execSelfFencing s) := by
  unfold Machine.execSelfFencing
  refine Keeps.next ?_
  split
  · exact h
  · extract_lets _ s1 _ s2
    have hs1 : Keeps s₀ s1 := .ite h h.openBeat
    have hs2 : Keeps s₀ s2 := hs1.doSelfFence.settle
    exact .ite hs2.mainDown hs2

/-! #### The preconditioner (Machine/Precon.lean) -/

theorem Keeps.beginRoot (h : Keeps s₀ s) {a : Site} {c g done kind : Nat} {d : PreconDesc} {h' : ShardHead} :
    Keeps s₀ (s.beginRoot a c g done kind d h') := h.store.store.editGroup.frame
theorem Keeps.setRoot (h : Keeps s₀ s) {g : Nat} {r : RootJob} : Keeps s₀ (s.setRoot g r) := h.editGroup
theorem Keeps.execPrecon (h : Keeps s₀ s) {a : Site} {p : Pred} {mop : Mop} {done : BitVec 13}
    {kind : BitVec 3} : KeepsOut s₀ (execPrecon a p mop done kind s) := by
  unfold Machine.execPrecon
  extract_lets
  refine Keeps.loaded ?_
  refine .onTile h (fun _ h1 => ?_)
  extract_lets
  split
  · exact h1.advance.jobError
  · split
    · exact .ite h1.setRoot.advance h1.soAdd.advance
    · exact .ite h1.stepSkew.soAdd.advance h1.beginRoot.advance
theorem Keeps.preconUnits (h : Keeps s₀ s) {g : Nat} {r : RootJob} : Keeps s₀ (s.preconUnits g r) :=
  h.foldl (fun _ _ h1 => h1.twrite.drawn)
theorem Keeps.wakeJobs (h : Keeps s₀ s) {c : Nat} : Keeps s₀ (s.wakeJobs c) :=
  h.foldl (fun _ _ h1 => h1.foldl (fun _ _ h2 => h2.startJob))
theorem Keeps.endRoot (h : Keeps s₀ s) {g c : Nat} {r : RootJob} {stale : Bool} {iters : Nat} {result : List Byte} :
    Keeps s₀ (s.endRoot g c r stale iters result) := by
  unfold State.endRoot
  extract_lets _ s1 s2 s3 s4 s5
  have hs1 : Keeps s₀ s1 := h.store
  have hs2 : Keeps s₀ s2 := hs1.store
  have hs3 : Keeps s₀ s3 := hs2.setRoot
  have hs4 : Keeps s₀ s4 := hs3.bump
  have hs5 : Keeps s₀ s5 := .ite hs4.bump.put.event hs4
  exact (hs5.foldl (fun _ _ h1 => h1.soAdd)).wakeJobs
theorem Keeps.execPreconAttemptEnd (h : Keeps s₀ s) {g : Fin 12} {job : Nat} :
    KeepsOut s₀ (execPreconAttemptEnd g job s) := by
  unfold Machine.execPreconAttemptEnd
  extract_lets
  refine Keeps.next ?_
  split
  · extract_lets _ _ s1 _ _ s2 s3
    have hs1 : Keeps s₀ s1 := h.drawn.preconUnits
    have hs2 : Keeps s₀ s2 := hs1.setRoot
    have hs3 : Keeps s₀ s3 := hs2.store
    refine .ite ?_ ?_
    · exact h
    · split
      · exact hs1.endRoot
      · exact .ite hs3.bump.put.event hs1.endRoot
  · exact h

/-! #### Sync objects (Machine/Sync.lean) -/

theorem Keeps.execSowait (h : Keeps s₀ s) {a : Site} {p : Pred} {index : BitVec 13} {remote : Bool} {tnode : NodeOp}
    {dstp : BitVec 3} {thresh : BitVec 32} :
    KeepsOut s₀ (execSowait a p index remote tnode dstp thresh s) := by
  refine Keeps.loaded (h.issue fun t h1 => h1.guarded fun u h2 => ?_)
  refine .ite (.advance (h2.setStrand fun h0 => Strand.canon_setPred (h1.strand a h0))) (.switchFrom ?_)
  exact h2.setStrandOf h1
theorem Keeps.execSoinc (h : Keeps s₀ s) {a : Site} {p : Pred} {index : BitVec 13} {remote : Bool}
    {tnode : NodeOp} {amount : BitVec 16} : KeepsOut s₀ (execSoinc a p index remote tnode amount s) :=
  Keeps.loaded (h.issue (fun _ h1 => h1.guarded (fun _ h2 => (Keeps.ite h2.send h2.soAdd).advance)))
theorem Keeps.execSoset (h : Keeps s₀ s) {a : Site} {p : Pred} {index : BitVec 13} {remote : Bool}
    {tnode : NodeOp} {hold hexpl : Bool} {hnode : NodeOp} {hcore : BitVec 7} {count : BitVec 24}
    {thresh : BitVec 32} : KeepsOut s₀ (execSoset a p index remote tnode hold hexpl hnode hcore count thresh s) :=
  Keeps.loaded (h.issue (fun _ h1 => h1.guarded (fun _ h2 => h2.setObj.advance)))
theorem Keeps.execFence (h : Keeps s₀ s) {a : Site} {p : Pred} {scope : Scope} :
    KeepsOut s₀ (execFence a p scope s) :=
  Keeps.loaded (h.issue (fun _ h1 => .ite h1.advance h1.editStrand.switchFrom))
theorem Keeps.execSowaitResume (h : Keeps s₀ s) {a : Site} : KeepsOut s₀ (execSowaitResume a s) := by
  unfold Machine.execSowaitResume
  extract_lets t
  refine Keeps.next ?_
  split
  · have hs (w : SoWait) (b : Bool) (h0 : s₀.canon = true) :
        (({ t with st := .run, soWait := none } : Strand).setPred w.dstp b).canon = true :=
      Strand.canon_setPred (by exact h.strand a h0)
    exact .ite (.woken (.advance (h.setStrand (hs _ _)))) h
  · exact h
theorem Keeps.execFenceComplete (h : Keeps s₀ s) {a : Site} : KeepsOut s₀ (execFenceComplete a s) := by
  unfold Machine.execFenceComplete
  extract_lets
  refine Keeps.next ?_
  split
  · exact .ite h.editStrand.advance.woken h
  · exact h

/-! #### The register window (Machine/Window.lean) -/

theorem Keeps.writePeriod (h : Keeps s₀ s) {v : W64} : Keeps s₀ (s.writePeriod v) := .ite h.frame h.event
theorem Keeps.writeNode (h : Keeps s₀ s) {v : W64} : Keeps s₀ (s.writeNode v) := .ite h.put.put h.event
theorem Keeps.writeMode (h : Keeps s₀ s) {v : W64} : Keeps s₀ (s.writeMode v) :=
  .ite h.put.frame h.put.frame.event
theorem Keeps.writeCap (h : Keeps s₀ s) {v : W64} : Keeps s₀ (s.writeCap v) := h.put
theorem Keeps.writeRemove (h : Keeps s₀ s) {v : W64} : Keeps s₀ (s.writeRemove v) := by
  unfold State.writeRemove
  extract_lets s1
  have hs1 : Keeps s₀ s1 := .ite h.requestRemoval h
  exact .ite hs1.cancelRemoval hs1
theorem Keeps.writeSo (h : Keeps s₀ s) {i : Nat} {v : W64} : Keeps s₀ (s.writeSo i v) := h.setObj
theorem Keeps.dbgNote (h : Keeps s₀ s) {c bit : Nat} : Keeps s₀ (s.dbgNote c bit) :=
  .ite h.editCtx h.editCtx.frame.put.event
theorem Keeps.dbgHalt (h : Keeps s₀ s) {halt : Bool} : Keeps s₀ (s.dbgHalt halt) := .ite h h.frame.dbgNote
theorem Keeps.writeDbgCtrl (h : Keeps s₀ s) {v : W64} : Keeps s₀ (s.writeDbgCtrl v) := by
  unfold State.writeDbgCtrl
  extract_lets _ s1 s2
  have hs1 : Keeps s₀ s1 := h.put.put.put
  have hs2 : Keeps s₀ s2 := .ite hs1.dbgHalt hs1
  exact .ite hs2.dbgHalt hs2
theorem Keeps.dbgAdvance (h : Keeps s₀ s) {busy : Bool} : Keeps s₀ (s.dbgAdvance busy) := h.put.frame
theorem Keeps.dbgTouch (h : Keeps s₀ s) {write : Bool} : Keeps s₀ (s.dbgTouch write) := by
  unfold State.dbgTouch
  extract_lets
  refine .ite ?_ ?_
  · exact h.dbgNote
  · split
    · exact h.dbgNote
    · exact h
theorem Keeps.dbgRead (h : Keeps s₀ s) : Keeps s₀ s.dbgRead :=
  .ite h.put.put.dbgAdvance h.put.dbgTouch.dbgAdvance
theorem Keeps.dbgWrite (h : Keeps s₀ s) {v : W64} : Keeps s₀ (s.dbgWrite v) := by
  unfold State.dbgWrite
  extract_lets addr unit bs c t1 _ t
  have ht : Keeps s₀ t := by
    unfold t
    split
    · exact .ite h.pokes.markStale h.pokes
    · exact h.twrite
    · exact h.setGroup fun h0 => Tab.wf_setRange _ _ (h.group unit h0)
  exact .ite h.put.dbgAdvance ht.dbgTouch.dbgAdvance
theorem Keeps.execDbgHalt (h : Keeps s₀ s) : KeepsOut s₀ (execDbgHalt s) := h.dbgHalt.next
theorem Keeps.execDbgResume (h : Keeps s₀ s) : KeepsOut s₀ (execDbgResume s) := h.dbgHalt.next
theorem Keeps.execDbgDataRead (h : Keeps s₀ s) : KeepsOut s₀ (execDbgDataRead s) := h.dbgRead.next
theorem Keeps.execDbgDataWrite (h : Keeps s₀ s) {v : W64} : KeepsOut s₀ (execDbgDataWrite v s) :=
  h.dbgWrite.next
theorem Keeps.execDbgDataAccessEnd (h : Keeps s₀ s) : KeepsOut s₀ (execDbgDataAccessEnd s) := h.frame.next
theorem Keeps.runCommand (h : Keeps s₀ s) {code : Nat} : Keeps s₀ (State.runCommand code s) := by
  unfold State.runCommand
  split
  · exact h.cmdSummary
  · exact h.cmdTest
  · exact h.cmdTest
  · exact h.cmdFenceEdit
  · exact h.cmdCtxCreate
  · exact h.cmdCtxMap
  · exact h.cmdCtxUnmap
  · exact h.cmdCtxSwitch
  · exact h.cmdCtxDestroy
  · exact h.cmdKeyImport
  · exact h.cmdAttest
  · exact h.cmdImageLoad
  · exact h.cmdJobStart
  · exact h.cmdJobLeave
  · exact h.cmdSpareJoin
  · exact h.notAccepted
theorem Keeps.writeMboxCmd (h : Keeps s₀ s) {p : Path} {v : W64} : Keeps s₀ (s.writeMboxCmd p v) :=
  .ite (h.mailbox (fun _ h1 => h1.runCommand)) h.put.put
theorem Keeps.writePlain (h : Keeps s₀ s) {off : Nat} {v : W64} : Keeps s₀ (s.writePlain off v) := h.setWord
theorem Keeps.writePortCtrl (h : Keeps s₀ s) {off : Nat} {v : W64} : Keeps s₀ (s.writePortCtrl off v) :=
  .ite h.writePlain h.writePlain.breakPort
theorem Keeps.writeReg (h : Keeps s₀ s) {p : Path} {off : Nat} {v : W64} : Keeps s₀ (s.writeReg p off v) := by
  unfold State.writeReg
  refine .ite ?_ ?_
  · exact h.writeMboxCmd
  · refine .ite ?_ ?_
    · exact .ite h.event h.put
    · refine .ite ?_ ?_
      · exact h.writePeriod
      · refine .ite ?_ ?_
        · exact h.writeMode
        · refine .ite ?_ ?_
          · exact h.writeCap
          · refine .ite ?_ ?_
            · exact h.writeRemove
            · refine .ite ?_ ?_
              · exact h.writePortCtrl
              · refine .ite ?_ ?_
                · exact h.writeNode
                · refine .ite ?_ ?_
                  · exact h.writeSo
                  · exact .ite h.writeDbgCtrl (.ite h.dbgWrite (.ite h h.writePlain))
theorem Keeps.busWrite (h : Keeps s₀ s) {p : Path} {off width : Nat} {v : W64} :
    Keeps s₀ (s.busWrite p off width v) := .ite h (.ite h.writeReg h.drawn.event)
theorem Keeps.execRegisterWrite (h : Keeps s₀ s) {path : Path} {offset : BitVec 24} {v : W64} :
    KeepsOut s₀ (execRegisterWrite path offset v s) := h.busWrite.next
theorem Keeps.execNarrowRegisterWrite (h : Keeps s₀ s) {path : Path} {offset : BitVec 24} {width : Nat} {v : W64} :
    KeepsOut s₀ (execNarrowRegisterWrite path offset width v s) := h.busWrite.next
theorem Keeps.execBtPeriodWrite (h : Keeps s₀ s) {v : W64} : KeepsOut s₀ (execBtPeriodWrite v s) :=
  h.writePeriod.next
theorem Keeps.execFabNodeWrite (h : Keeps s₀ s) {v : W64} : KeepsOut s₀ (execFabNodeWrite v s) :=
  h.writeNode.next
theorem Keeps.execModeRequest (h : Keeps s₀ s) {v : W64} : KeepsOut s₀ (execModeRequest v s) :=
  h.writeMode.next
theorem Keeps.execPowerCapWrite (h : Keeps s₀ s) {v : W64} : KeepsOut s₀ (execPowerCapWrite v s) :=
  h.writeCap.next
theorem Keeps.execRemovalRequest (h : Keeps s₀ s) : KeepsOut s₀ (execRemovalRequest s) := h.requestRemoval.next
theorem Keeps.execRemovalCancel (h : Keeps s₀ s) : KeepsOut s₀ (execRemovalCancel s) := h.cancelRemoval.next
theorem Keeps.restartPeak (h : Keeps s₀ s) {off : Nat} : Keeps s₀ (s.restartPeak off) :=
  h.foldl (fun _ _ h1 => .ite h1.put h1)
theorem Keeps.markRead (h : Keeps s₀ s) {off : Nat} : Keeps s₀ (s.markRead off) := by
  unfold State.markRead
  extract_lets k
  refine .ite ?_ h
  split
  · exact h.frameRing (List.length_set ..)
  · exact h
theorem Keeps.touchReg (h : Keeps s₀ s) {o : Nat} : Keeps s₀ (s.touchReg o) := by
  unfold State.touchReg
  extract_lets t t1
  have ht : Keeps s₀ t := h.restartPeak.markRead
  have ht1 : Keeps s₀ t1 := .ite ht.keepTimed.drawn ht
  exact .ite ht1.dbgRead ht1
theorem Keeps.readTouch (h : Keeps s₀ s) {off width : Nat} : Keeps s₀ (s.readTouch off width) :=
  h.foldl (fun _ _ h1 => h1.touchReg)
theorem Keeps.execPeakRegisterRead (h : Keeps s₀ s) {offset : BitVec 24} {width : Nat} :
    KeepsOut s₀ (execPeakRegisterRead offset width s) := h.readTouch.next
theorem Keeps.execEventRingRead (h : Keeps s₀ s) {offset : BitVec 24} {width : Nat} :
    KeepsOut s₀ (execEventRingRead offset width s) := h.readTouch.next
theorem Keeps.execSmbusWrite (h : Keeps s₀ s) {pecOk : Bool} {offset : BitVec 24} {v : W64} :
    KeepsOut s₀ (execSmbusWrite pecOk offset v s) := (Keeps.ite h.busWrite h).next
theorem Keeps.execSmbusRead (h : Keeps s₀ s) {pecOk : Bool} {offset : BitVec 24} :
    KeepsOut s₀ (execSmbusRead pecOk offset s) := (Keeps.ite h.readTouch h).next
theorem Keeps.answerMgmt (h : Keeps s₀ s) {h' : Hdr} {off : Nat} {write refused : Bool} {bs : List Byte} :
    Keeps s₀ (s.answerMgmt h' off write refused bs) := h.emitIn
theorem Keeps.execMgmtReceive (h : Keeps s₀ s) {h' : Hdr} {write : Bool} {offset : BitVec 24} {data : W64} :
    KeepsOut s₀ (execMgmtReceive h' write offset data s) := by
  unfold Machine.execMgmtReceive
  extract_lets _ s1 s2
  have hs1 : Keeps s₀ s1 := h.rxBytes
  have hs2 : Keeps s₀ s2 := hs1.addSession
  refine Keeps.next ?_
  refine .ite ?_ ?_
  · exact hs1
  · refine .ite ?_ ?_
    · exact hs1.bump
    · refine .ite ?_ ?_
      · exact hs1.drawn.answerMgmt.bump
      · exact .ite hs2.drawn.answerMgmt.busWrite hs2.readTouch.answerMgmt

/-! #### All instructions (Machine/Dispatch.lean) -/

theorem Keeps.exec (h : Keeps s₀ s) {i : Instr} : KeepsOut s₀ (exec i s) := by
  unfold Machine.exec
  split
  · exact h.execNop
  · exact h.execLoop
  · exact h.execPset
  · exact h.execSkip
  · exact h.execBeat
  · exact h.execHalt
  · exact h.execSowait
  · exact h.execSoinc
  · exact h.execSoset
  · exact h.execFence
  · exact h.execLdt
  · exact h.execStt
  · exact h.execGth
  · exact h.execSct
  · exact h.execPfh
  · exact h.execXfer
  · exact h.execColl
  · exact h.execMload
  · exact h.execMmul
  · exact h.execMmuls
  · exact h.execMmulw
  · exact h.execMscale
  · exact h.execVadd
  · exact h.execVmul
  · exact h.execVfma
  · exact h.execVmax
  · exact h.execVred
  · exact h.execVscan
  · exact h.execVexp
  · exact h.execVact
  · exact h.execVder
  · exact h.execVcvt
  · exact h.execAblk
  · exact h.execAsel
  · exact h.execKvapp
  · exact h.execRtopk
  · exact h.execDisp
  · exact h.execCmb
  · exact h.execUpd
  · exact h.execPrecon
  · exact h.execIngest
  · exact h.execCkptFlash
  · exact h.execCkptStore
  · exact h.execPostEvent
  · exact h.execSowaitResume
  · exact h.execFenceComplete
  · exact h.execNarrowMissReturn
  · exact h.execProductComplete
  · exact h.execReliefReplayDone
  · exact h.execShadowCheck
  · exact h.execKvappResume
  · exact h.execKvPoolTimeout
  · exact h.execUpdJobStart
  · exact h.execUpdJobComplete
  · exact h.execPreconAttemptEnd
  · exact h.execPrefetchComplete
  · exact h.execPrefetchDrop
  · exact h.execPrefetchDeadline
  · exact h.execCollStepComplete
  · exact h.execGatherTimeout
  · exact h.execCkptFlashDone
  · exact h.execCkptStoreDone
  · exact h.execKvMoveDone
  · exact h.execPoolMoveDone
  · exact h.execFrameScrub
  · exact h.execFtlBackgroundWork
  · exact h.execBeatBoundary
  · exact h.execGuardStart
  · exact h.execSegmentOverrun
  · exact h.execStepEndBoundary
  · exact h.execSwitchEnd
  · exact h.execJobFirstStepEntry
  · exact h.execJoinDeadline
  · exact h.execKvQuarantineRelease
  · exact h.execFramePoolReturn
  · exact h.execBeatLock
  · exact h.execHoldoverEntry
  · exact h.execAcquireTimeout
  · exact h.execMarkerSilence
  · exact h.execMarkerLoss
  · exact h.execOffsetLimit
  · exact h.execWatchSilence
  · exact h.execHangDetect
  · exact h.execDeviceFenceCommit
  · exact h.execSelfFencing
  · exact h.execHbmTempReport
  · exact h.execStackOvertemp
  · exact h.execPortRejoin
  · exact h.execAckTimer
  · exact h.execRetransmitTimeout
  · exact h.execSessionRekey
  · exact h.execDataReceive
  · exact h.execRxbufXon
  · exact h.execPfcReceive
  · exact h.execSoincFrameReceive
  · exact h.execCollFrameReceive
  · exact h.execNreqReceive
  · exact h.execNrespReceive
  · exact h.execDcountReceive
  · exact h.execDgrantReceive
  · exact h.execAckReceive
  · exact h.execConnectReceive
  · exact h.execAcceptReceive
  · exact h.execCloseReceive
  · exact h.execMarkerReceive
  · exact h.execMgmtReceive
  · exact h.execBadFrameReceive
  · exact h.execNvmePduReceive
  · exact h.execIcmpEchoRequest
  · exact h.execFormationExchange
  · exact h.execShare
  · exact h.execFree
  · exact h.execPromote
  · exact h.execSummary
  · exact h.execTestNative
  · exact h.execTestStress
  · exact h.execFieldTestDone
  · exact h.execFenceEdit
  · exact h.execImageLoad
  · exact h.execJobStart
  · exact h.execStateLoadDone
  · exact h.execJobLeave
  · exact h.execSpareJoin
  · exact h.execCtxCreate
  · exact h.execCtxMap
  · exact h.execCtxUnmap
  · exact h.execCtxSwitch
  · exact h.execCtxDestroy
  · exact h.execKeyImport
  · exact h.execAttest
  · exact h.execUnsealAttempt
  · exact h.execMboxArgWrite
  · exact h.execRegisterWrite
  · exact h.execNarrowRegisterWrite
  · exact h.execPeakRegisterRead
  · exact h.execEventRingRead
  · exact h.execBtPeriodWrite
  · exact h.execFabNodeWrite
  · exact h.execModeRequest
  · exact h.execPowerCapWrite
  · exact h.execRemovalRequest
  · exact h.execRemovalCancel
  · exact h.execDbgHalt
  · exact h.execDbgResume
  · exact h.execDbgDataRead
  · exact h.execDbgDataWrite
  · exact h.execSmbusWrite
  · exact h.execSmbusRead
  · exact h.execStandbyPowerUp
  · exact h.execManagementStageDone
  · exact h.execSeatInsert
  · exact h.execMainPathOn
  · exact h.execMainGood
  · exact h.execRailsUp
  · exact h.execBistSliceDone
  · exact h.execBistSliceTimeout
  · exact h.execBistComplete
  · exact h.execFenceRecordWritten
  · exact h.execPerstDeassert
  · exact h.execLinkStateChange
  · exact h.execSupplyWarning
  · exact h.execSupplyRecovery
  · exact h.execSupplyReset
  · exact h.execGuardTimeout
  · exact h.execSupplyOverTimeout
  · exact h.execMainOvervoltage
  · exact h.execSeatRelease
  · exact h.execJunctionLimit
  · exact h.execAttnRelease
  · exact h.execAttnHold
  · exact h.execLatchOpening
  · exact h.execLatchPowerDown
  · exact h.execMainRailsDown
  · exact h.execImageLoadDone
  · exact h.execWorkingCopyDerivationDone
  · exact h.execDbgDataAccessEnd
  · exact h.execStandbyPowerLoss
  · exact h.execNeighbourDiscoveryReceive
  · exact h.execArpReceive

/-! #### A step (Machine/Step.lean) -/

theorem Keeps.step (h : Keeps s₀ s) : KeepsOut s₀ (step s) := by
  unfold Machine.step
  split
  · exact h.next
  · exact h.frame.exec

end

/-! ### The obligations on the canonical form -/

/-- Settles O3: the state after reset lists no entry but its stated reset values. -/
theorem canonAtReset : Obligations.CanonAtReset := by
  unfold Obligations.CanonAtReset
  rfl

/-- Settles O4, by one lemma per operation of the model: each keeps what `Keeps` says. -/
theorem canonKept : Obligations.CanonKept := by
  unfold Obligations.CanonKept
  intro s t hs hstep
  exact ((Keeps.refl s).step t hstep).canon hs

end Sys2Proof.Machine

end

section
/-!
PROOFS. The register window (00_scope.md): a read and a write of a register go through the fields of the register table,
so reserved bits read 0 and are ignored, and an unassigned offset reads 0 and ignores writes (R14 to R16).
-/

namespace Sys2Proof.Machine

set_option Elab.async false

/-! ### The bits of a field -/

theorem Fld.testBit_ext (f : Fld) (v i : Nat) : (f.ext v).testBit i = (decide (i < f.w) && v.testBit (i + f.lo)) := by
  unfold Fld.ext
  rw [Nat.testBit_mod_two_pow, Nat.testBit_div_two_pow]

/-- A bit outside a field does not move the field's value. -/
theorem Fld.ext_set_clear (f : Fld) (v : W64) {j : Nat} (hj : j < f.lo ∨ f.lo + f.w ≤ j) :
    f.ext (v ||| BitVec.ofNat 64 (2 ^ j)).toNat = f.ext (v &&& ~~~ BitVec.ofNat 64 (2 ^ j)).toNat := by
  refine Nat.eq_of_testBit_eq fun i => ?_
  rw [Fld.testBit_ext, Fld.testBit_ext, BitVec.testBit_toNat, BitVec.testBit_toNat]
  by_cases hi : i < f.w
  · have hne : j ≠ i + f.lo := by omega
    have hb : (BitVec.ofNat 64 (2 ^ j)).getLsbD (i + f.lo) = false := by
      rw [BitVec.getLsbD_ofNat, Nat.testBit_two_pow_of_ne hne, Bool.and_false]
    rw [BitVec.getLsbD_or, BitVec.getLsbD_and, BitVec.getLsbD_not, hb, Bool.or_false, Bool.not_false, Bool.and_true]
    by_cases h64 : i + f.lo < 64
    · rw [decide_eq_true h64, Bool.and_true]
    · rw [v.getLsbD_of_ge _ (Nat.le_of_not_lt h64), Bool.false_and]
  · rw [decide_eq_false hi, Bool.false_and, Bool.false_and]

/-- A word put together from fields is 0 at a bit that none of them has. -/
theorem getLsbD_foldl_fields {j : Nat} (val : Fld → Nat) : ∀ (l : List Fld) (w : W64), w.getLsbD j = false →
    (∀ f ∈ l, j < f.lo ∨ f.lo + f.w ≤ j) →
    (l.foldl (fun w f => w ||| BitVec.ofNat 64 (val f % 2 ^ f.w * 2 ^ f.lo)) w).getLsbD j = false
  | [], _, hw, _ => hw
  | f :: l, w, hw, hl => by
    refine getLsbD_foldl_fields val l _ ?_ fun g hg => hl g (List.mem_cons_of_mem f hg)
    have hf := hl f List.mem_cons_self
    rw [BitVec.getLsbD_or, hw, Bool.false_or, BitVec.getLsbD_ofNat, Nat.testBit_mul_two_pow, Nat.testBit_mod_two_pow]
    rcases hf with hlo | hhi
    · rw [decide_eq_false (Nat.not_le_of_lt hlo), Bool.false_and, Bool.and_false]
    · rw [decide_eq_false (show ¬ j - f.lo < f.w by omega), Bool.false_and, Bool.and_false, Bool.and_false]

/-- A reserved bit reads 0 (R16). -/
theorem State.regRead_reserved (s : State) {off j : Nat} (h : reservedBit off j) :
    (s.regRead off).getLsbD j = false := by
  obtain ⟨hring, hfields⟩ := h
  unfold State.regRead
  rw [if_neg (Bool.eq_false_iff.1 hring)]
  exact getLsbD_foldl_fields _ _ 0 BitVec.getLsbD_zero hfields

/-- An unassigned offset reads 0 (R16). -/
theorem State.regRead_unassigned (s : State) {off : Nat} (hring : inRing off = false)
    (h : fieldsAt (aliasOf off) = []) : s.regRead off = 0 := by
  unfold State.regRead
  rw [if_neg (Bool.eq_false_iff.1 hring)]
  dsimp only
  rw [h, List.foldl_nil]

/-! ### The registers of the families -/

theorem aliasOf_of_lt_or_ge {off : Nat} (h : off < 0x051000 ∨ 0x05C000 ≤ off) : aliasOf off = off := by
  unfold aliasOf
  rw [if_neg (by omega)]

theorem aliasOf_of_not_isAlias {off : Nat} (h : ¬ isAlias off = true) : aliasOf off = off := by
  unfold isAlias at h
  simpa using h

theorem block_fab {off : Nat} (h : 0x090000 ≤ off ∧ off < 0x0A0000) : Reg.block off = Reg.fabBlock := by
  unfold Reg.block
  iterate 9 rw [if_neg (by omega)]
  rw [if_pos (by omega)]

theorem block_so {off : Nat} (h : 0x0A0000 ≤ off ∧ off < 0x0C0000) : Reg.block off = Reg.soBlock := by
  unfold Reg.block
  iterate 10 rw [if_neg (by omega)]
  rw [if_pos (by omega)]

/-- A register with an inner stride alone has its fields at each of its offsets. -/
theorem Fld.isAt_inner {f : Fld} {off : Nat} (h2 : f.n2 = 1) (h1 : 1 < f.n1) (hb : f.base ≤ off)
    (hr : off - f.base = f.s1 * ((off - f.base) / f.s1)) (hn : (off - f.base) / f.s1 < f.n1) : f.isAt off = true := by
  simp [Fld.isAt, Nat.not_lt.2 hb, h2, Nat.not_le.2 h1, hn, ← hr]

/-- The same with an outer stride alone. -/
theorem Fld.isAt_outer {f : Fld} {off : Nat} (h1 : f.n1 = 1) (h2 : 1 < f.n2) (hb : f.base ≤ off)
    (hr : off - f.base = f.s2 * ((off - f.base) / f.s2)) (hn : (off - f.base) / f.s2 < f.n2) : f.isAt off = true := by
  simp [Fld.isAt, Nat.not_lt.2 hb, h1, Nat.not_le.2 h2, hn, ← hr]

/-- The 32 argument registers of the mailbox (R535). -/
theorem arg_mem_fieldsAt {off : Nat} (h : 0x200 ≤ off ∧ off < 0x300) (h8 : off % 8 = 0) :
    Reg.SVC_MBOX_ARG_ARG ∈ fieldsAt (aliasOf off) := by
  rw [aliasOf_of_lt_or_ge (by omega)]
  unfold fieldsAt Reg.block
  rw [if_pos (by omega)]
  refine List.mem_filter.2 ⟨by decide, Fld.isAt_inner rfl (by decide) h.1 ?_ ?_⟩
  · show off - 0x200 = 8 * ((off - 0x200) / 8)
    omega
  · show (off - 0x200) / 8 < 32
    omega

/-- The control registers of the 16 ports (R435). -/
theorem portCtrl_mem_fieldsAt {off : Nat} (h : 0x090000 ≤ off ∧ off < 0x094000 ∧ off % 0x400 = 0) :
    Reg.FAB_PORT_CTRL_EN ∈ fieldsAt (aliasOf off) := by
  rw [aliasOf_of_lt_or_ge (by omega)]
  unfold fieldsAt
  rw [block_fab (by omega)]
  refine List.mem_filter.2 ⟨by decide, Fld.isAt_outer rfl (by decide) h.1 ?_ ?_⟩
  · show off - 0x090000 = 0x400 * ((off - 0x090000) / 0x400)
    omega
  · show (off - 0x090000) / 0x400 < 16
    omega

/-- The count words of the 8,192 sync objects (R99): two fields that fill the word. -/
theorem soCount_mem_fieldsAt {off : Nat} (h : 0x0A0000 ≤ off ∧ off < 0x0B0000) (h8 : off % 8 = 0) :
    Reg.SO_COUNT_COUNT ∈ fieldsAt (aliasOf off) ∧ Reg.SO_COUNT_THRESH ∈ fieldsAt (aliasOf off) := by
  have hr : off - 0x0A0000 = 8 * ((off - 0x0A0000) / 8) := by omega
  have hn : (off - 0x0A0000) / 8 < 8192 := by omega
  rw [aliasOf_of_lt_or_ge (by omega)]
  unfold fieldsAt
  rw [block_so (by omega)]
  exact ⟨List.mem_filter.2 ⟨by decide, Fld.isAt_inner rfl (by decide) h.1 hr hn⟩,
    List.mem_filter.2 ⟨by decide, Fld.isAt_inner rfl (by decide) h.1 hr hn⟩⟩

/-! ### A write depends on the fields of its register alone -/

/-- Two values agree on the fields of a list. -/
def AgreeOn (l : List Fld) (v w : W64) : Prop := ∀ f ∈ l, f.ext v.toNat = f.ext w.toNat

variable {s : State} {v w : W64}

theorem agreeOn_set_clear {l : List Fld} {j : Nat} (h : ∀ f ∈ l, j < f.lo ∨ f.lo + f.w ≤ j) :
    AgreeOn l (v ||| BitVec.ofNat 64 (2 ^ j)) (v &&& ~~~ BitVec.ofNat 64 (2 ^ j)) :=
  fun f hf => f.ext_set_clear v (h f hf)

theorem State.put_congr (f : Fld) {a b : Nat} (i j : Nat) (h : a % 2 ^ f.w = b % 2 ^ f.w) :
    s.put f a i j = s.put f b i j := by
  unfold State.put Fld.ins
  rw [h]

theorem getLsbD_congr {k : Nat} (h : v.toNat / 2 ^ k % 2 = w.toNat / 2 ^ k % 2) : v.getLsbD k = w.getLsbD k := by
  rw [← BitVec.testBit_toNat, ← BitVec.testBit_toNat, Nat.testBit_eq_decide_div_mod_eq,
    Nat.testBit_eq_decide_div_mod_eq, h]

/-- A field of 64 bits is the whole word. -/
theorem eq_of_ext_word {f : Fld} (hlo : f.lo = 0) (hw : f.w = 64) (h : f.ext v.toNat = f.ext w.toNat) : v = w := by
  unfold Fld.ext at h
  rw [hlo, hw, Nat.pow_zero, Nat.div_one, Nat.div_one, Nat.mod_eq_of_lt v.isLt, Nat.mod_eq_of_lt w.isLt] at h
  exact BitVec.eq_of_toNat_eq h

theorem State.writeMboxCmd_congr (p : Path)
    (hcode : Reg.SVC_MBOX_CMD_CODE.ext v.toNat = Reg.SVC_MBOX_CMD_CODE.ext w.toNat)
    (htag : Reg.SVC_MBOX_CMD_TAG.ext v.toNat = Reg.SVC_MBOX_CMD_TAG.ext w.toNat)
    (hgo : Reg.SVC_MBOX_CMD_GO.ext v.toNat = Reg.SVC_MBOX_CMD_GO.ext w.toNat) :
    s.writeMboxCmd p v = s.writeMboxCmd p w := by
  have hc : v.toNat % 2 ^ 8 = w.toNat % 2 ^ 8 := by simpa [Fld.ext, Reg.SVC_MBOX_CMD_CODE] using hcode
  have ht : BitVec.ofNat 8 (v.toNat / 2 ^ 8) = BitVec.ofNat 8 (w.toNat / 2 ^ 8) := BitVec.eq_of_toNat_eq htag
  have hg : v.getLsbD 63 = w.getLsbD 63 := getLsbD_congr hgo
  unfold State.writeMboxCmd
  rw [hc, ht, hg]

theorem State.writePeriod_congr (h : Reg.BT_PERIOD_SEL.ext v.toNat = Reg.BT_PERIOD_SEL.ext w.toNat) :
    s.writePeriod v = s.writePeriod w := by
  have hs : v.setWidth 2 = w.setWidth 2 := BitVec.eq_of_toNat_eq (by simpa [Fld.ext, Reg.BT_PERIOD_SEL] using h)
  unfold State.writePeriod
  rw [hs]

theorem State.writeMode_congr (h : Reg.PWR_MODE_REQ.ext v.toNat = Reg.PWR_MODE_REQ.ext w.toNat) :
    s.writeMode v = s.writeMode w := by
  have hq : v.toNat / 2 ^ 4 % 4 = w.toNat / 2 ^ 4 % 4 := h
  unfold State.writeMode
  rw [hq]

theorem State.writeCap_congr (h : Reg.PWR_CAP_WATTS.ext v.toNat = Reg.PWR_CAP_WATTS.ext w.toNat) :
    s.writeCap v = s.writeCap w :=
  State.put_congr _ _ _ (by simpa [Fld.ext, Reg.PWR_CAP_WATTS] using h)

theorem State.writeRemove_congr (hreq : Reg.FLT_REMOVE_REQ.ext v.toNat = Reg.FLT_REMOVE_REQ.ext w.toNat)
    (hcancel : Reg.FLT_REMOVE_CANCEL.ext v.toNat = Reg.FLT_REMOVE_CANCEL.ext w.toNat) :
    s.writeRemove v = s.writeRemove w := by
  have hr : v.getLsbD 2 = w.getLsbD 2 := getLsbD_congr hreq
  have hc : v.getLsbD 3 = w.getLsbD 3 := getLsbD_congr hcancel
  unfold State.writeRemove
  rw [hr, hc]

theorem State.writeNode_congr (hnode : Reg.FAB_NODE_NODE.ext v.toNat = Reg.FAB_NODE_NODE.ext w.toNat)
    (hvalid : Reg.FAB_NODE_VALID.ext v.toNat = Reg.FAB_NODE_VALID.ext w.toNat) : s.writeNode v = s.writeNode w := by
  have hn : v.toNat % 2 ^ 15 = w.toNat % 2 ^ 15 := by simpa [Fld.ext, Reg.FAB_NODE_NODE] using hnode
  have hv : v.toNat / 2 ^ 15 % 2 = w.toNat / 2 ^ 15 % 2 := hvalid
  unfold State.writeNode
  rw [State.put_congr Reg.FAB_NODE_NODE _ _ hn, State.put_congr Reg.FAB_NODE_VALID _ _ hv, hn]

theorem State.writeDbgCtrl_congr (hctx : Reg.DBG_CTRL_CTX.ext v.toNat = Reg.DBG_CTRL_CTX.ext w.toNat)
    (hspace : Reg.DBG_CTRL_SPACE.ext v.toNat = Reg.DBG_CTRL_SPACE.ext w.toNat)
    (hunit : Reg.DBG_CTRL_UNIT.ext v.toNat = Reg.DBG_CTRL_UNIT.ext w.toNat)
    (hhalt : Reg.DBG_CTRL_HALT.ext v.toNat = Reg.DBG_CTRL_HALT.ext w.toNat)
    (hresume : Reg.DBG_CTRL_RESUME.ext v.toNat = Reg.DBG_CTRL_RESUME.ext w.toNat) :
    s.writeDbgCtrl v = s.writeDbgCtrl w := by
  have hc : v.toNat % 2 ^ 4 = w.toNat % 2 ^ 4 := by simpa [Fld.ext, Reg.DBG_CTRL_CTX] using hctx
  have hs : v.toNat / 2 ^ 4 % 2 ^ 2 = w.toNat / 2 ^ 4 % 2 ^ 2 := hspace
  have hu : v.toNat / 2 ^ 8 % 2 ^ 7 = w.toNat / 2 ^ 8 % 2 ^ 7 := hunit
  have hh : v.getLsbD 16 = w.getLsbD 16 := getLsbD_congr hhalt
  have hr : v.getLsbD 17 = w.getLsbD 17 := getLsbD_congr hresume
  unfold State.writeDbgCtrl
  dsimp only
  rw [State.put_congr Reg.DBG_CTRL_CTX _ _ hc, State.put_congr Reg.DBG_CTRL_SPACE _ _ hs,
    State.put_congr Reg.DBG_CTRL_UNIT _ _ hu, hh, hr]

/-- Two fields of 32 bits fill the word. -/
theorem eq_of_ext_soCount (hcount : Reg.SO_COUNT_COUNT.ext v.toNat = Reg.SO_COUNT_COUNT.ext w.toNat)
    (hthresh : Reg.SO_COUNT_THRESH.ext v.toNat = Reg.SO_COUNT_THRESH.ext w.toNat) : v = w := by
  have hc : v.toNat % 2 ^ 32 = w.toNat % 2 ^ 32 := by simpa [Fld.ext, Reg.SO_COUNT_COUNT] using hcount
  have ht : v.toNat / 2 ^ 32 % 2 ^ 32 = w.toNat / 2 ^ 32 % 2 ^ 32 := hthresh
  exact BitVec.eq_of_toNat_eq (by omega)

theorem State.writePlain_congr {off : Nat} (h : AgreeOn (fieldsAt off) v w) :
    s.writePlain off v = s.writePlain off w := by
  unfold State.writePlain
  refine congrArg (s.setWord off) (List.foldl_ext _ _ _ fun u f hf => ?_)
  rw [h f hf]

/-- A write of a register takes the fields of the register table and nothing else (R15, R16). -/
theorem State.writeReg_congr (p : Path) {off : Nat} (h8 : off % 8 = 0) (h : AgreeOn (fieldsAt (aliasOf off)) v w) :
    s.writeReg p off v = s.writeReg p off w := by
  unfold State.writeReg
  refine if_ctx_congr Iff.rfl (fun e => ?mboxCmd) fun _ =>
    if_ctx_congr Iff.rfl (fun e => ?arg) fun _ =>
    if_ctx_congr Iff.rfl (fun e => ?period) fun _ =>
    if_ctx_congr Iff.rfl (fun e => ?mode) fun _ =>
    if_ctx_congr Iff.rfl (fun e => ?cap) fun _ =>
    if_ctx_congr Iff.rfl (fun e => ?remove) fun _ =>
    if_ctx_congr Iff.rfl (fun e => ?portCtrl) fun _ =>
    if_ctx_congr Iff.rfl (fun e => ?node) fun _ =>
    if_ctx_congr Iff.rfl (fun e => ?so) fun _ =>
    if_ctx_congr Iff.rfl (fun e => ?dbgCtrl) fun _ =>
    if_ctx_congr Iff.rfl (fun e => ?dbgData) fun _ =>
    if_ctx_congr Iff.rfl (fun _ => rfl) fun e => ?plain
  case mboxCmd =>
    subst e
    exact State.writeMboxCmd_congr p (h _ (by decide)) (h _ (by decide)) (h _ (by decide))
  case arg =>
    rw [eq_of_ext_word rfl rfl (h _ (arg_mem_fieldsAt e h8))]
  case period =>
    subst e
    exact State.writePeriod_congr (h _ (by decide))
  case mode =>
    subst e
    exact State.writeMode_congr (h _ (by decide))
  case cap =>
    subst e
    exact State.writeCap_congr (h _ (by decide))
  case remove =>
    subst e
    exact State.writeRemove_congr (h _ (by decide)) (h _ (by decide))
  case portCtrl =>
    rw [aliasOf_of_lt_or_ge (by omega)] at h
    unfold State.writePortCtrl
    rw [State.writePlain_congr h]
  case node =>
    subst e
    exact State.writeNode_congr (h _ (by decide)) (h _ (by decide))
  case so =>
    obtain ⟨hcount, hthresh⟩ := soCount_mem_fieldsAt e h8
    rw [eq_of_ext_soCount (h _ hcount) (h _ hthresh)]
  case dbgCtrl =>
    subst e
    exact State.writeDbgCtrl_congr (h _ (by decide)) (h _ (by decide)) (h _ (by decide)) (h _ (by decide))
      (h _ (by decide))
  case dbgData =>
    subst e
    rw [eq_of_ext_word rfl rfl (h Reg.DBG_DATA_DATA (by decide))]
  case plain =>
    rw [aliasOf_of_not_isAlias e] at h
    exact State.writePlain_congr h

/-! ### Unassigned offsets, and writes that are not aligned -/

/-- Storing the word that a register holds changes nothing. -/
theorem State.setWord_word (s : State) (off : Nat) (h : Tab.wf 0 s.regs = true) : s.setWord off (s.word off) = s := by
  have hset : Tab.set 0 s.regs off (s.word off ^^^ resetWord off) = s.regs := by
    refine Tab.ext (Tab.wf_set _ _ h) h fun k => ?_
    by_cases hk : k = off
    · rw [hk, Tab.get_set_same _ _ h]
      unfold State.word
      rw [BitVec.xor_assoc, BitVec.xor_self, BitVec.xor_zero]
    · exact Tab.get_set_ne hk _ h
  unfold State.setWord
  rw [hset]

/-- An unassigned offset ignores a write (R16): every register with a behaviour of its own has a field. -/
theorem State.writeReg_unassigned (p : Path) {off : Nat} (hwf : Tab.wf 0 s.regs = true) (h8 : off % 8 = 0)
    (h : fieldsAt (aliasOf off) = []) : s.writeReg p off v = s := by
  have no {f : Fld} (hf : f ∈ fieldsAt (aliasOf off)) : False := List.not_mem_nil (h ▸ hf)
  unfold State.writeReg
  rw [if_neg, if_neg, if_neg, if_neg, if_neg, if_neg, if_neg, if_neg, if_neg, if_neg, if_neg]
  · split
    · rfl
    · next e =>
      rw [aliasOf_of_not_isAlias e] at h
      unfold State.writePlain
      rw [h, List.foldl_nil]
      exact s.setWord_word off hwf
  · rintro rfl
    exact no (f := Reg.DBG_DATA_DATA) (by decide)
  · rintro rfl
    exact no (f := Reg.DBG_CTRL_CTX) (by decide)
  · exact fun e => no (soCount_mem_fieldsAt e h8).1
  · rintro rfl
    exact no (f := Reg.FAB_NODE_NODE) (by decide)
  · exact fun e => no (portCtrl_mem_fieldsAt e)
  · rintro rfl
    exact no (f := Reg.FLT_REMOVE_REQ) (by decide)
  · rintro rfl
    exact no (f := Reg.PWR_CAP_WATTS) (by decide)
  · rintro rfl
    exact no (f := Reg.PWR_MODE_REQ) (by decide)
  · rintro rfl
    exact no (f := Reg.BT_PERIOD_SEL) (by decide)
  · exact fun e => no (arg_mem_fieldsAt e h8)
  · rintro rfl
    exact no (f := Reg.SVC_MBOX_CMD_CODE) (by decide)

/-- A write on a live path, aligned: the register takes it. -/
theorem State.busWrite_aligned {p : Path} {off : Nat} (hlive : s.live p = true) (h8 : off % 8 = 0) :
    s.busWrite p off 8 v = s.writeReg p off v := by
  unfold State.busWrite
  rw [hlive, if_neg (by decide), if_pos (by unfold aligned; simpa using h8)]

/-- A write on a path that is not live changes nothing. -/
theorem State.busWrite_dead {p : Path} {off width : Nat} (hlive : s.live p = false) : s.busWrite p off width v = s := by
  unfold State.busWrite
  rw [hlive, if_pos (by decide)]

/-- A write that is narrow or unaligned only raises REG_WIDTH (R14). -/
theorem State.busWrite_narrow {p : Path} {off width : Nat} (hlive : s.live p = true) (h : width ≠ 8 ∨ off % 8 ≠ 0) :
    s.busWrite p off width v = s.drawn.event 0x0B40 (Config.freeWord s.draw).toNat := by
  unfold State.busWrite
  rw [hlive, if_neg (by decide), if_neg]
  unfold aligned
  rw [decide_eq_true_eq]
  omega

/-- An event moves no register but the two event counters (R543). -/
theorem State.word_event_ne {code detail core off : Nat} (hwf : Tab.wf 0 s.regs = true) (hcount : off ≠ 0x000018)
    (hlost : off ≠ 0x000020) : (s.event code detail core).word off = s.word off :=
  (State.word_put_ne _ Reg.SVC_EVT_LOST_COUNT _ 0 0 off (State.wf_put _ _ _ _ _ hwf) hlost).trans
    (State.word_put_ne _ Reg.SVC_EVT_COUNT_COUNT _ 0 0 off hwf hcount)

/-- Settles O53: a reserved bit belongs to no field, and both reads and writes go through the fields. -/
theorem reservedBits : Obligations.ReservedBits := by
  unfold Obligations.ReservedBits
  intro s path off v hcanon h8
  have hwf : Tab.wf 0 s.regs = true := (s.canonical_iff.2 hcanon).regs
  refine ⟨fun j _ hj => ⟨s.regRead_reserved hj, ?_⟩, fun hring hnone => ⟨s.regRead_unassigned hring hnone, ?_⟩,
    fun o width hlive hbad =>
      ⟨_, _, congrArg Host.Outcome.next (State.busWrite_narrow hlive hbad),
        s.drawn.event_raised _ _ _ ((Keeps.refl s).drawn.canon hcanon), rfl,
        fun r hcount hlost => State.word_event_ne hwf hcount hlost⟩⟩
  · refine congrArg Host.Outcome.next ?_
    cases hlive : s.live path with
    | false => rw [State.busWrite_dead hlive, State.busWrite_dead hlive]
    | true =>
      rw [State.busWrite_aligned hlive h8, State.busWrite_aligned hlive h8]
      exact State.writeReg_congr path h8 (agreeOn_set_clear hj.2)
  · refine congrArg Host.Outcome.next ?_
    cases hlive : s.live path with
    | false => exact State.busWrite_dead hlive
    | true => rw [State.busWrite_aligned hlive h8, State.writeReg_unassigned path hwf h8 hnone]

end Sys2Proof.Machine

end

section
/-!
PROOFS. Writes and reads of the registers with a behaviour of their own (R6, R12 to R15, R50, R92, R463, R535, R543,
R551, R556).
-/

namespace Sys2Proof.Machine

set_option Elab.async false

variable {s t u : State} {v : W64}

/-! ### Which command a write is -/

/-- A write of a register on a live path. -/
theorem exec_registerWrite {path : Path} {off : BitVec 24} (hlive : s.live path = true) (h8 : off.toNat % 8 = 0) :
    exec (.registerWrite path off v) s = .next (s.writeReg path off.toNat v) :=
  congrArg Host.Outcome.next (State.busWrite_aligned hlive h8)

/-- Every mailbox command is what a GO with its code runs (R507, R537, R562). -/
theorem exec_mailboxRow (s : State) (path : Path) (tag : Byte) :
    ∀ e ∈ mailboxRows path tag, exec e.2 s = .next (s.mailbox path e.1 tag (State.runCommand e.1)) := by
  unfold mailboxRows
  simp only [List.forall_mem_cons]
  exact ⟨rfl, rfl, rfl, rfl, rfl, rfl, rfl, rfl, rfl, rfl, rfl, rfl, rfl, rfl, rfl, fun _ h => nomatch h⟩

/-- A write of `SVC_MBOX_CMD` with GO set is the command that CODE names (R535). -/
theorem exec_mailboxGo {path : Path} {code : Nat} {i : Instr} {tag : Byte} (hlive : s.live path = true)
    (hrow : (code, i) ∈ mailboxRows path tag) (hcode : v.toNat % 2 ^ 8 = code)
    (htag : tag = BitVec.ofNat 8 (v.toNat / 2 ^ 8)) (hgo : v.getLsbD 63 = true) :
    exec (.registerWrite path 0x000100 v) s = exec i s := by
  rw [exec_registerWrite hlive rfl, exec_mailboxRow s path tag _ hrow]
  show Host.Outcome.next (s.writeMboxCmd path v) = _
  unfold State.writeMboxCmd
  rw [hcode, ← htag, if_pos hgo]

theorem State.writeReg_arg (path : Path) {k : Nat} (hk : k < 32) :
    s.writeReg path (0x200 + 8 * k) v = if s.svc.mbox.st = .busy then s.event 0x0B07 (pathBit path * 2 ^ 8)
      else s.put Reg.SVC_MBOX_ARG_ARG v.toNat 0 k := by
  unfold State.writeReg
  rw [if_neg (by omega), if_pos (by omega), show (0x200 + 8 * k - 0x200) / 8 = k by omega]

theorem State.writeReg_so (path : Path) {i : Nat} (hi : i < 8192) :
    s.writeReg path (0x0A0000 + 8 * i) v = s.writeSo i v := by
  unfold State.writeReg
  iterate 8 rw [if_neg (by omega)]
  rw [if_pos (by omega), show (0x0A0000 + 8 * i - 0x0A0000) / 8 = i by omega]

/-- A write of the mailbox's arguments is the command that writes them (R535). -/
theorem exec_mboxArg {path : Path} (hlive : s.live path = true) (k : BitVec 5) :
    exec (.registerWrite path (BitVec.ofNat 24 (0x200 + 8 * k.toNat)) v) s = exec (.mboxArgWrite path k v) s := by
  have hk := k.isLt
  have hoff : (BitVec.ofNat 24 (0x200 + 8 * k.toNat)).toNat = 0x200 + 8 * k.toNat :=
    BitVec.toNat_ofNat _ _ ▸ Nat.mod_eq_of_lt (by omega)
  rw [exec_registerWrite hlive (by omega), hoff, State.writeReg_arg path hk]
  show _ = execMboxArgWrite path k v s
  unfold execMboxArgWrite
  rw [hlive]
  rfl

/-- A write of a sync object's count word (R99). -/
theorem exec_soWrite {path : Path} (hlive : s.live path = true) (i : BitVec 13) :
    exec (.registerWrite path (BitVec.ofNat 24 (0x0A0000 + 8 * i.toNat)) v) s = .next (s.writeSo i.toNat v) := by
  have hi := i.isLt
  have hoff : (BitVec.ofNat 24 (0x0A0000 + 8 * i.toNat)).toNat = 0x0A0000 + 8 * i.toNat :=
    BitVec.toNat_ofNat _ _ ▸ Nat.mod_eq_of_lt (by omega)
  rw [exec_registerWrite hlive (by omega), hoff, State.writeReg_so path hi]

/-! ### A plain write of W1C bits (R15) -/

/-- What a plain write makes of one field. -/
def plainField (v w : W64) (f : Fld) : W64 :=
  match f.acc with
  | .rw => f.ins w (f.ext v.toNat)
  | .w1c => if f.ext v.toNat = 0 then w else f.ins w (f.ext w.toNat &&& (2 ^ f.w - 1 - f.ext v.toNat))
  | _ => w

theorem State.writePlain_eq (off : Nat) :
    s.writePlain off v = s.setWord off ((fieldsAt off).foldl (plainField v) (s.word off)) := rfl

/-- Two fields share no bit, and the first one lies in the word. -/
def Fld.apart (f g : Fld) : Prop := f.lo + f.w ≤ 64 ∧ (g.lo + g.w ≤ f.lo ∨ f.lo + f.w ≤ g.lo)

/-- A field keeps its value when others are written. -/
theorem ext_plainField {f g : Fld} {w : W64} (h : f.apart g) : g.ext (plainField v w f).toNat = g.ext w.toNat := by
  obtain ⟨h64, hd⟩ := h
  unfold plainField
  split
  · exact Fld.ext_ins_other f g w _ h64 hd
  · split
    · rfl
    · exact Fld.ext_ins_other f g w _ h64 hd
  · rfl

theorem ext_foldl_plainField {g : Fld} : ∀ (l : List Fld) (w : W64), (∀ f ∈ l, f.apart g) →
    g.ext (l.foldl (plainField v) w).toNat = g.ext w.toNat
  | [], _, _ => rfl
  | f :: l, _, h => (ext_foldl_plainField l _ fun c hc => h c (List.mem_cons_of_mem f hc)).trans
      (ext_plainField (h f List.mem_cons_self))

/-- A W1C bit is cleared by a 1 and kept by a 0 (R15). -/
theorem ext_plainField_w1c {f : Fld} {w : W64} (hacc : f.acc = .w1c) (hw : f.w = 1) (h64 : f.lo + f.w ≤ 64) :
    f.ext (plainField v w f).toNat = if v.getLsbD f.lo then 0 else f.ext w.toNat := by
  have hbit : f.ext v.toNat = (v.getLsbD f.lo).toNat := by
    unfold Fld.ext
    rw [hw, ← BitVec.testBit_toNat, Nat.toNat_testBit]
    rfl
  unfold plainField
  rw [hacc, hbit]
  cases v.getLsbD f.lo with
  | false => rfl
  | true =>
    show f.ext (f.ins w (f.ext w.toNat &&& (2 ^ f.w - 1 - 1))).toNat = 0
    rw [Fld.ext_ins f w _ h64, hw]
    show (f.ext w.toNat &&& 0) % 2 = 0
    rw [Nat.and_zero]

theorem fieldsAt_pwrStatus : fieldsAt 0x020040 =
    [Reg.PWR_STATUS_OVER, Reg.PWR_STATUS_LIMIT, Reg.PWR_STATUS_LATCH_OPEN, Reg.PWR_STATUS_HOT] := by decide

/-- HOT of `PWR_STATUS` is cleared by a 1 (R564). -/
theorem State.get_writePlain_hot (hwf : Tab.wf 0 s.regs = true) :
    (s.writePlain 0x020040 v).get Reg.PWR_STATUS_HOT =
      if v.getLsbD 3 then 0 else s.get Reg.PWR_STATUS_HOT := by
  have hothers : ∀ f ∈ [Reg.PWR_STATUS_OVER, Reg.PWR_STATUS_LIMIT, Reg.PWR_STATUS_LATCH_OPEN],
      f.apart Reg.PWR_STATUS_HOT := by
    simp only [List.forall_mem_cons]
    exact ⟨⟨by decide, by decide⟩, ⟨by decide, by decide⟩, ⟨by decide, by decide⟩, fun _ h => nomatch h⟩
  have hkept := ext_foldl_plainField (v := v) _ (s.word 0x020040) hothers
  rw [State.writePlain_eq, fieldsAt_pwrStatus]
  unfold State.get
  show Reg.PWR_STATUS_HOT.ext ((s.setWord 0x020040 _).word 0x020040).toNat = _
  rw [State.word_setWord _ _ _ hwf]
  refine (ext_plainField_w1c rfl rfl (by decide)).trans ?_
  show (if v.getLsbD 3 then 0 else _) = _
  exact congrArg (fun x => if v.getLsbD 3 then 0 else x) hkept

/-! ### The registers of their own -/

/-- `u` differs from `s` in nothing that an event records or counts. -/
theorem State.raised_of_same {code detail core : Nat} (hsvc : u.svc = s.svc) (hnode : u.node = s.node)
    (hrun : u.running = s.running) (hbeat : u.beat = s.beat)
    (hcount : u.get Reg.SVC_EVT_COUNT_COUNT = s.get Reg.SVC_EVT_COUNT_COUNT) (h : u.raised t code detail core) :
    s.raised t code detail core := by
  obtain ⟨hring, hnew⟩ := h
  unfold State.eventRec at hring
  rw [hsvc, hnode, hrun, hbeat] at hring
  exact ⟨hring, hcount ▸ hnew⟩

/-- FAB_NODE while DETACHED (R463). -/
theorem State.writeNode_detached (h : s.bt.st = .detached) :
    s.writeNode v = (s.put Reg.FAB_NODE_NODE v.toNat).put Reg.FAB_NODE_VALID (v.toNat / 2 ^ 15) := if_pos h

theorem State.writeNode_refused (h : s.bt.st ≠ .detached) : s.writeNode v = s.event 0x080A (v.toNat % 2 ^ 15) :=
  if_neg h

/-- A field of a register other than the event counters keeps its value when an event is raised. -/
theorem State.get_event {f : Fld} {i j code detail core : Nat} (hwf : Tab.wf 0 s.regs = true)
    (hcount : f.off i j ≠ 0x000018) (hlost : f.off i j ≠ 0x000020) :
    (s.event code detail core).get f i j = s.get f i j := by
  unfold State.get
  rw [State.word_event_ne hwf hcount hlost]

/-- A mode request that is accepted is pending and raises nothing (R92). -/
theorem State.writeMode_ok {q : Nat} (hq : v.toNat / 2 ^ 4 % 4 = q)
    (h : (s.running.isNone || imgHasMode s.img q) = true) :
    s.writeMode v = { s.put Reg.PWR_MODE_REQ q with modePend := true } := by
  unfold State.writeMode
  dsimp only
  rw [hq, h, if_pos rfl]

/-- A mode that the running context's image has no record of is refused (R92). -/
theorem State.writeMode_refused {q : Nat} (hq : v.toNat / 2 ^ 4 % 4 = q)
    (h : (s.running.isNone || imgHasMode s.img q) = false) :
    s.writeMode v = ({ s.put Reg.PWR_MODE_REQ q with modePend := false } : State).event 0x0B21 q := by
  unfold State.writeMode
  dsimp only
  rw [hq, h, if_neg Bool.false_ne_true]

/-! ### What a read changes (R14, R543) -/

theorem touched_aligned {off : Nat} (h8 : off % 8 = 0) : touched off 8 = [off] := by
  unfold touched
  rw [if_neg (by decide), show (off + 8 - 1) / 8 - off / 8 + 1 = 1 by omega]
  show [8 * (off / 8 + 0)] = [off]
  rw [show 8 * (off / 8 + 0) = off by omega]

theorem State.readTouch_aligned {off : Nat} (h8 : off % 8 = 0) : s.readTouch off 8 = s.touchReg off := by
  unfold State.readTouch
  rw [touched_aligned h8]
  rfl

/-- A read of a register without a ring record, a field of time or debug data restarts its PEAK field alone. -/
theorem State.touchReg_peak {off : Nat} (hring : inRing off = false) (htimed : isTimed off = false)
    (hdata : off ≠ 0x400018) : s.touchReg off = s.restartPeak off := by
  unfold State.touchReg State.markRead
  simp only [hring, htimed, hdata, if_false, Bool.false_eq_true]

/-- An offset below a field's register is not one of its own. -/
theorem Fld.isAt_below {f : Fld} {off : Nat} (h : off < f.base) : f.isAt off = false := if_pos h

/-- The read of a ring record's register restarts nothing. -/
theorem State.restartPeak_ring {off : Nat} (h : off < 0x8000) : s.restartPeak off = s := by
  have hbase (f : Fld) (hf : 0x8000 ≤ f.base) : f.isAt off = false := Fld.isAt_below (by omega)
  unfold State.restartPeak State.peaks
  simp only [List.foldl_cons, List.foldl_nil, hbase Reg.BT_OFFSET_PEAK (by decide),
    hbase Reg.MT_THERM_PEAK (by decide), hbase Reg.FAB_PORT_RXBUF_PEAK (by decide),
    hbase Reg.FAB_CTX_PEAK (by decide), hbase Reg.PWR_POWER_PEAK (by decide), hbase Reg.PWR_THERM_PEAK (by decide),
    Bool.false_eq_true, if_false]

theorem State.restartPeak_power :
    s.restartPeak 0x020018 = s.put Reg.PWR_POWER_PEAK (s.get Reg.PWR_POWER_WATTS) := by
  unfold State.restartPeak State.peaks
  simp only [List.foldl_cons, List.foldl_nil, show Reg.BT_OFFSET_PEAK.isAt 0x020018 = false by decide,
    show Reg.MT_THERM_PEAK.isAt 0x020018 = false by decide,
    show Reg.FAB_PORT_RXBUF_PEAK.isAt 0x020018 = false by decide, show Reg.FAB_CTX_PEAK.isAt 0x020018 = false by decide,
    show Reg.PWR_POWER_PEAK.isAt 0x020018 = true by decide,
    show Reg.PWR_THERM_PEAK.isAt 0x020018 = false by decide, Bool.false_eq_true, if_false, if_true]
  rfl

theorem State.restartPeak_rxbuf (p : Fin 16) :
    s.restartPeak (Reg.FAB_PORT_RXBUF_PEAK.off p.val 0) = s.put Reg.FAB_PORT_RXBUF_PEAK (s.port p.val).rxbuf p.val := by
  have hoffset : Reg.BT_OFFSET_PEAK.isAt (Reg.FAB_PORT_RXBUF_PEAK.off p.val 0) = false := by revert p; decide
  have hmemory : Reg.MT_THERM_PEAK.isAt (Reg.FAB_PORT_RXBUF_PEAK.off p.val 0) = false := by revert p; decide
  have hport : Reg.FAB_PORT_RXBUF_PEAK.isAt (Reg.FAB_PORT_RXBUF_PEAK.off p.val 0) = true := by revert p; decide
  have hconns : Reg.FAB_CTX_PEAK.isAt (Reg.FAB_PORT_RXBUF_PEAK.off p.val 0) = false := by revert p; decide
  have hpower : Reg.PWR_POWER_PEAK.isAt (Reg.FAB_PORT_RXBUF_PEAK.off p.val 0) = false := by revert p; decide
  have htherm : Reg.PWR_THERM_PEAK.isAt (Reg.FAB_PORT_RXBUF_PEAK.off p.val 0) = false := by revert p; decide
  have hinst : Reg.FAB_PORT_RXBUF_PEAK.inst (Reg.FAB_PORT_RXBUF_PEAK.off p.val 0) = (p.val, 0) := by revert p; decide
  unfold State.restartPeak State.peaks
  simp only [List.foldl_cons, List.foldl_nil, hoffset, hmemory, hport, hconns, hpower, htherm, hinst,
    Bool.false_eq_true, if_false, if_true]

/-- A read of a ring record marks it (R543). -/
theorem State.touchReg_ring {k : Nat} {r : EvtRec × Bool} (hk : k < 1024)
    (hr : s.svc.ring[s.ringPlace k]? = some r) : s.touchReg (0x4000 + 16 * k) =
      { s with svc := { s.svc with ring := s.svc.ring.set (s.ringPlace k) (r.1, true) } } := by
  have hring : inRing (0x4000 + 16 * k) = true := decide_eq_true (by omega)
  have htimed : isTimed (0x4000 + 16 * k) = false := by
    unfold isTimed
    rw [decide_eq_true (by omega), Bool.not_true, Bool.false_and]
  have hplace : (0x4000 + 16 * k - 0x4000) / 16 = k := by omega
  unfold State.touchReg State.markRead
  rw [State.restartPeak_ring (by omega)]
  simp only [hring, htimed, hplace, hr, if_true, Bool.false_eq_true, if_false]
  rw [if_neg (by omega)]

/-! ### The obligation, clause by clause -/

/-- Accepted or refused, a mode request is what REQ reads, and is in force only from the next step entry (R90, R92). -/
theorem writeMode_effect (hcanon : s.canon = true) {q : Nat} (hq : v.toNat / 2 ^ 4 % 4 = q) :
    (s.writeMode v).get Reg.PWR_MODE_REQ = q ∧ (s.writeMode v).modeInForce = s.modeInForce ∧
    (s.running = none ∨ imgHasMode s.img q = true → (s.writeMode v).modePend = true ∧ (s.writeMode v).svc = s.svc) ∧
    (∀ c, s.running = some c → imgHasMode s.img q = false →
      (s.writeMode v).modePend = false ∧ s.raised (s.writeMode v) 0x0B21 q 0xFF) := by
  have hwf : Tab.wf 0 s.regs = true := (s.canonical_iff.2 hcanon).regs
  have hwf' : Tab.wf 0 (s.put Reg.PWR_MODE_REQ q).regs = true := s.wf_put _ _ _ _ hwf
  have hreq : (s.put Reg.PWR_MODE_REQ q).get Reg.PWR_MODE_REQ = q :=
    (s.get_put _ _ _ _ hwf (by decide)).trans (Nat.mod_eq_of_lt (hq ▸ Nat.mod_lt _ (by decide)))
  cases hok : s.running.isNone || imgHasMode s.img q with
  | true =>
    rw [State.writeMode_ok hq hok]
    refine ⟨hreq, rfl, fun _ => ⟨rfl, rfl⟩, fun c hrun hmode => ?_⟩
    rw [hrun, hmode] at hok
    exact (Bool.false_ne_true hok).elim
  | false =>
    obtain ⟨hrunning, hmode⟩ := Bool.or_eq_false_iff.1 hok
    rw [State.writeMode_refused hq hok]
    refine ⟨(State.get_event hwf' (by decide) (by decide)).trans hreq, rfl, fun h => ?_, fun _ _ _ => ⟨rfl, ?_⟩⟩
    · rcases h with hnone | hhas
      · rw [hnone] at hrunning
        exact absurd hrunning (by decide)
      · exact absurd (hhas.symm.trans hmode) (by decide)
    · have hnode : (s.put Reg.PWR_MODE_REQ q).node = s.node :=
        s.get_put_ne Reg.PWR_MODE_REQ Reg.FAB_NODE_NODE q 0 0 0 0 hwf (by decide)
      have hcount : (s.put Reg.PWR_MODE_REQ q).get Reg.SVC_EVT_COUNT_COUNT = s.get Reg.SVC_EVT_COUNT_COUNT :=
        s.get_put_ne Reg.PWR_MODE_REQ Reg.SVC_EVT_COUNT_COUNT q 0 0 0 0 hwf (by decide)
      have hput : ({ s.put Reg.PWR_MODE_REQ q with modePend := false } : State).canon = true :=
        s.canon_put Reg.PWR_MODE_REQ q 0 0 hcanon
      exact State.raised_of_same (u := { s.put Reg.PWR_MODE_REQ q with modePend := false }) rfl hnode rfl rfl hcount
        (State.event_raised _ _ _ _ hput)

/-- The node is written while DETACHED (R463). -/
theorem writeNode_effect (hcanon : s.canon = true) (h : s.bt.st = .detached) :
    (s.writeNode v).node = v.toNat % 2 ^ 15 ∧ (s.writeNode v).get Reg.FAB_NODE_VALID = v.toNat / 2 ^ 15 % 2 ∧
    (∀ off, off ≠ 0x094000 → (s.writeNode v).word off = s.word off) := by
  have hwf : Tab.wf 0 s.regs = true := (s.canonical_iff.2 hcanon).regs
  have hwf' : Tab.wf 0 (s.put Reg.FAB_NODE_NODE v.toNat).regs = true := s.wf_put _ _ _ _ hwf
  rw [State.writeNode_detached h]
  refine ⟨?_, State.get_put _ _ _ _ _ hwf' (by decide), fun off hoff => ?_⟩
  · exact (State.get_put_other _ Reg.FAB_NODE_VALID Reg.FAB_NODE_NODE _ 0 0 0 0 hwf' (by decide) (by decide) rfl).trans
      (s.get_put _ _ _ _ hwf (by decide))
  · exact (State.word_put_ne _ Reg.FAB_NODE_VALID _ 0 0 off hwf' hoff).trans
      (s.word_put_ne Reg.FAB_NODE_NODE _ 0 0 off hwf hoff)

/-- While the beat runs a node write only raises its event (R463). -/
theorem writeNode_refused_effect (hcanon : s.canon = true) (h : s.bt.st ≠ .detached) :
    (s.writeNode v).node = s.node ∧ s.raised (s.writeNode v) 0x080A (v.toNat % 2 ^ 15) 0xFF := by
  rw [State.writeNode_refused h]
  exact ⟨State.get_event (s.canonical_iff.2 hcanon).regs (by decide) (by decide), s.event_raised _ _ _ hcanon⟩

/-- A sync object's count word holds its count and threshold (R99). -/
theorem writeSo_effect (hcanon : s.canon = true) (i : Nat) :
    (s.writeSo i v).obj i = { s.obj i with count := v.setWidth 32, thresh := BitVec.ofNat 32 (v.toNat / 2 ^ 32) } ∧
    (∀ j, j ≠ i → (s.writeSo i v).obj j = s.obj j) ∧ ({ s.writeSo i v with so := s.so } : State) = s := by
  have hwf : Tab.wf SyncObj.reset s.so = true := (s.canonical_iff.2 hcanon).so
  exact ⟨s.obj_setObj i _ hwf, fun j hj => s.obj_setObj_ne _ hwf hj, rfl⟩

/-- A read of `PWR_POWER` restarts PEAK at the present power (R564). -/
theorem touchReg_power_effect (hcanon : s.canon = true) :
    (s.touchReg 0x020018).get Reg.PWR_POWER_PEAK = s.get Reg.PWR_POWER_WATTS ∧
    (s.touchReg 0x020018).get Reg.PWR_POWER_WATTS = s.get Reg.PWR_POWER_WATTS ∧
    ({ s.touchReg 0x020018 with regs := s.regs } : State) = s := by
  have hwf : Tab.wf 0 s.regs = true := (s.canonical_iff.2 hcanon).regs
  rw [State.touchReg_peak rfl (by decide) (by decide), State.restartPeak_power]
  refine ⟨(s.get_put _ _ _ _ hwf (by decide)).trans (Nat.mod_mod _ _), ?_, rfl⟩
  exact s.get_put_other Reg.PWR_POWER_PEAK Reg.PWR_POWER_WATTS _ 0 0 0 0 hwf (by decide) (by decide) rfl

/-- A read of a port's `FAB_PORT_RXBUF` restarts PEAK at the bytes held now (R462). -/
theorem touchReg_rxbuf_effect (hcanon : s.canon = true) (p : Fin 16) :
    (s.touchReg (Reg.FAB_PORT_RXBUF_PEAK.off p.val 0)).get Reg.FAB_PORT_RXBUF_PEAK p.val =
      (s.port p.val).rxbuf % 2 ^ Reg.FAB_PORT_RXBUF_PEAK.w ∧
    ({ s.touchReg (Reg.FAB_PORT_RXBUF_PEAK.off p.val 0) with regs := s.regs } : State) = s := by
  have hring : inRing (Reg.FAB_PORT_RXBUF_PEAK.off p.val 0) = false := by revert p; decide
  have htimed : isTimed (Reg.FAB_PORT_RXBUF_PEAK.off p.val 0) = false := by revert p; decide
  have hdata : Reg.FAB_PORT_RXBUF_PEAK.off p.val 0 ≠ 0x400018 := by revert p; decide
  rw [State.touchReg_peak hring htimed hdata, State.restartPeak_rxbuf p]
  exact ⟨s.get_put _ _ _ _ (s.canonical_iff.2 hcanon).regs (by decide), rfl⟩

/-- Settles O55: each clause is the equation of its register, put together. -/
theorem registerWindow : Obligations.RegisterWindow := by
  unfold Obligations.RegisterWindow
  refine ⟨fun s path v hcanon hlive => ?_, fun s v hcanon => ?_⟩
  · have hwf : Tab.wf 0 s.regs = true := (s.canonical_iff.2 hcanon).regs
    refine ⟨exec_registerWrite hlive rfl, exec_registerWrite hlive rfl, exec_registerWrite hlive rfl,
      exec_registerWrite hlive rfl, exec_registerWrite hlive rfl, exec_registerWrite hlive rfl,
      exec_registerWrite hlive rfl, fun code i tag hrow hcode htag hgo => exec_mailboxGo hlive hrow hcode htag hgo,
      fun k => exec_mboxArg hlive k, fun i => ⟨_, exec_soWrite hlive i, writeSo_effect hcanon i.toNat⟩,
      ⟨_, exec_registerWrite hlive rfl, fun off hoff => s.word_setWord_ne _ hwf hoff, State.get_writePlain_hot hwf,
        rfl⟩,
      fun off hstage => ⟨rfl, ?_⟩, fun off => ⟨rfl, rfl⟩, rfl⟩
    show execSmbusRead true off s = execPeakRegisterRead off 8 s
    have hsmbus : s.live .smbus = true := hstage
    unfold execSmbusRead execPeakRegisterRead
    rw [hsmbus]
    rfl
  · have hwf : Tab.wf 0 s.regs = true := (s.canonical_iff.2 hcanon).regs
    have hread {off : BitVec 24} (h8 : off.toNat % 8 = 0) :
        exec (.peakRegisterRead off 8) s = .next (s.touchReg off.toNat) :=
      congrArg Host.Outcome.next (State.readTouch_aligned h8)
    refine ⟨fun h => ⟨_, rfl, writeNode_effect hcanon h⟩, fun h => ⟨_, rfl, writeNode_refused_effect hcanon h⟩,
      fun q hq => ⟨_, rfl, writeMode_effect hcanon hq.symm⟩, ⟨_, rfl, s.get_put _ _ _ _ hwf (by decide), rfl, rfl⟩,
      ⟨_, hread rfl, touchReg_power_effect hcanon⟩, fun p => ⟨_, ?_, touchReg_rxbuf_effect hcanon p⟩,
      fun k r hk hr => ?_⟩
    · have hoff :
          (BitVec.ofNat 24 (Reg.FAB_PORT_RXBUF_PEAK.off p.val 0)).toNat = Reg.FAB_PORT_RXBUF_PEAK.off p.val 0 := by
        revert p
        decide
      have h8 : Reg.FAB_PORT_RXBUF_PEAK.off p.val 0 % 8 = 0 := by revert p; decide
      rw [hread (by rw [hoff]; exact h8), hoff]
    · have hoff : (BitVec.ofNat 24 (0x4000 + 16 * k)).toNat = 0x4000 + 16 * k :=
        BitVec.toNat_ofNat _ _ ▸ Nat.mod_eq_of_lt (by omega)
      show execEventRingRead (BitVec.ofNat 24 (0x4000 + 16 * k)) 8 s = _
      unfold execEventRingRead
      rw [hoff, State.readTouch_aligned (by omega), State.touchReg_ring hk hr]

end Sys2Proof.Machine

end

section
/-!
PROOFS. Start-up (01_architecture.md, 17_start_up_and_resync.md): the stages of power-up, the slices of self-test, and
its end in READY with the fence record in force, or in UNUSABLE (R43, R498, R526 to R533, R555). That memory lists
nothing after a power-up or a loss of power is the model's reading (logs 3 and 57).
-/

namespace Sys2Proof.Machine

variable {s u : State}

/-! ### An event in the middle of a command -/

/-- An event raised in a state that differs from `s` in nothing that an event records or counts is raised from `s`. -/
theorem State.event_raised_of_same {code detail core : Nat} (hwf : Tab.wf 0 u.regs = true)
    (hring : u.svc.ring = s.svc.ring) (hnode : u.node = s.node) (hrun : u.running = s.running)
    (hbeat : u.beat = s.beat) (hcount : u.get Reg.SVC_EVT_COUNT_COUNT = s.get Reg.SVC_EVT_COUNT_COUNT) :
    s.raised (u.event code detail core) code detail core := by
  constructor
  · show ((u.eventRec code detail core, false) :: u.svc.ring).take 1024 = _
    unfold State.eventRec
    rw [hring, hnode, hrun, hbeat]
  · rw [← hcount]
    exact (State.get_put_ne _ Reg.SVC_EVT_LOST_COUNT Reg.SVC_EVT_COUNT_COUNT _ 0 0 0 0 (Tab.wf_set _ _ hwf)
      (by decide)).trans (State.get_bump _ Reg.SVC_EVT_COUNT_COUNT 0 0 1 hwf (by decide))

/-- The same when only the management sequencer and the pins have changed, and the ring has not. -/
theorem State.event_raised_update {code detail core : Nat} (hcanon : s.canon = true) {svc : Svc} {pins : Pins}
    (hring : svc.ring = s.svc.ring) :
    s.raised (({ s with svc := svc, pins := pins } : State).event code detail core) code detail core :=
  State.event_raised_of_same (s.canonical_iff.2 hcanon).regs hring rfl rfl rfl rfl

/-! ### Stages 1 to 4 (R526, R527, R534, R555) -/

/-- The management stage with good microcode: the window opens, and no valid record raises its event (R532, R534). -/
theorem exec_managementStageDone (hcanon : s.canon = true) (hstby : s.pins.stby = true)
    (hstage : s.pins.stage2 = false) : ∃ t, exec (.managementStageDone true) s = .next t ∧ t.pins.stage2 = true ∧
      t.svc.recBad = s.svc.best.isNone ∧ (s.svc.best = none → s.raised t 0x0B04 0 0xFF) := by
  have hgo : ¬ (!s.pins.stby || s.pins.stage2) = true := by rw [hstby, hstage]; decide
  have hok : ¬ (!true) = true := by decide
  refine ⟨_, congrArg Host.Outcome.next ((if_neg hgo).trans (if_neg hok)), ?_⟩
  cases hbest : s.svc.best with
  | none => exact ⟨rfl, rfl, fun _ => State.event_raised_update hcanon rfl⟩
  | some r => exact ⟨rfl, rfl, fun h => nomatch h⟩

/-- Rejected microcode raises its event and leaves the device in standby (R526). -/
theorem exec_managementStageDone_rejected (hcanon : s.canon = true) (hstby : s.pins.stby = true)
    (hstage : s.pins.stage2 = false) : ∃ (t : State) (d : Nat),
      exec (.managementStageDone false) s = .next t ∧ t.pins = s.pins ∧ s.raised t 0x0B01 d 0xFF := by
  have hgo : ¬ (!s.pins.stby || s.pins.stage2) = true := by rw [hstby, hstage]; decide
  exact ⟨_, _, congrArg Host.Outcome.next ((if_neg hgo).trans (if_pos rfl)), rfl,
    State.event_raised_of_same (u := s.drawn) (s.canonical_iff.2 hcanon).regs rfl rfl rfl rfl rfl⟩

/-- The main input is shown, and within 44.0 to 58.0 V it starts the rails stage from STANDBY (R526, R527). -/
theorem exec_mainGood (hpath : s.pins.pathOn = true) (v : BitVec 16) : exec (.mainGood v) s = .next
    (if s.svc.st = .standby ∧ s.pins.stage2 = true ∧ 4400 ≤ v.toNat ∧ v.toNat ≤ 5800 then
      { s.setInput v.toNat with svc := { s.svc with st := .rails } } else s.setInput v.toNat) := by
  show execMainGood v s = _
  unfold execMainGood
  dsimp only
  rw [if_pos hpath]
  refine congrArg Host.Outcome.next (if_congr ?_ rfl rfl)
  show (s.svc.st == .standby && s.pins.stage2 && s.pins.pathOn && decide _) = true ↔ _
  simp [hpath, and_assoc]

/-- MAIN_GOOD on an open path: what the input reads, and the sequencer within tolerance and out of it (R526, R527). -/
theorem mainGood_effect (hcanon : s.canon = true) (hpath : s.pins.pathOn = true) (v : BitVec 16) :
    ∃ t, exec (.mainGood v) s = .next t ∧ t.get Reg.PWR_INPUT_MAIN = v.toNat ∧
      (s.svc.st = .standby → s.pins.stage2 = true → 4400 ≤ v.toNat → v.toNat ≤ 5800 → t.svc.st = .rails) ∧
      (v.toNat < 4400 ∨ 5800 < v.toNat → t.svc = s.svc) := by
  have hinput : (s.setInput v.toNat).get Reg.PWR_INPUT_MAIN = v.toNat :=
    (s.get_put _ _ _ _ (s.canonical_iff.2 hcanon).regs (by decide)).trans (Nat.mod_eq_of_lt v.isLt)
  refine ⟨_, exec_mainGood hpath v, ?_⟩
  by_cases h : s.svc.st = .standby ∧ s.pins.stage2 = true ∧ 4400 ≤ v.toNat ∧ v.toNat ≤ 5800
  · rw [if_pos h]
    exact ⟨hinput, fun _ _ _ _ => rfl, fun hout => by omega⟩
  · rw [if_neg h]
    exact ⟨hinput, fun hst hstage hlo hhi => absurd ⟨hst, hstage, hlo, hhi⟩ h, fun _ => rfl⟩

/-- With the rails up self-test begins (R526): counting the spare blocks of flash touches registers alone. -/
theorem exec_railsUp (hst : s.svc.st = .rails) : ∃ t, exec (.railsUp true) s = .next t ∧ t.svc.st = .bist ∧
    t.pins.rails = true ∧ t.svc.bist = Svc.reset.bist := by
  refine ⟨_, congrArg Host.Outcome.next (if_pos ⟨hst, rfl⟩), ?_⟩
  refine List.foldlRecOn (motive := fun t : State =>
    t.svc.st = .bist ∧ t.pins.rails = true ∧ t.svc.bist = Svc.reset.bist) _ _ ⟨rfl, rfl, rfl⟩ fun t ht h _ => ?_
  split
  · exact ht
  · exact ht

theorem exec_railsUp_not_ok : exec (.railsUp false) s = .next s :=
  congrArg Host.Outcome.next (if_neg fun h => Bool.false_ne_true h.2)

/-! ### Stage 5: the slices (R527 to R529) -/

/-- Training the link of hub 0 touches one pin. -/
theorem State.trainPcie_eq (s : State) : ∃ b, s.trainPcie = { s with pins := { s.pins with pcieTrained := b } } := by
  unfold State.trainPcie
  split
  · exact ⟨true, rfl⟩
  · exact ⟨s.pins.pcieTrained, rfl⟩

theorem State.trainPcie_svc (s : State) : s.trainPcie.svc = s.svc := by
  obtain ⟨b, h⟩ := s.trainPcie_eq
  rw [h]

theorem State.trainPcie_perst (s : State) : s.trainPcie.pins.perst = s.pins.perst := by
  obtain ⟨b, h⟩ := s.trainPcie_eq
  rw [h]

/-- With the rails up, PERST_N high and its slice passed, the link of hub 0 trains (R527). -/
theorem State.trainPcie_trained (hrails : s.pins.rails = true) (hperst : s.pins.perst = false)
    (hslice : s.svc.bist.passed.contains 108 = true) : s.trainPcie.pins.pcieTrained = true := by
  unfold State.trainPcie
  rw [if_pos (by rw [hrails, hperst, hslice]; rfl)]

/-- The first failure of a slice has it run again (R529). -/
theorem State.sliceFails_first {k : Nat} (slow : Bool) (hfailed : k ∉ s.svc.bist.failed)
    (honce : k ∉ s.svc.bist.once) : s.sliceFails k slow =
      { s with svc := { s.svc with bist := { s.svc.bist with once := k :: s.svc.bist.once } } } := by
  unfold State.sliceFails
  dsimp only
  rw [if_neg (by simpa using hfailed), if_neg (by simpa using honce)]

/-- The second failure of a slice is final and raises BIST_FAIL (R529). -/
theorem State.sliceFails_final {k : Nat} (slow : Bool) (hcanon : s.canon = true) (hfailed : k ∉ s.svc.bist.failed)
    (honce : k ∈ s.svc.bist.once) : (s.sliceFails k slow).svc.bist.failed = s.svc.bist.failed ++ [k] ∧
      s.raised (s.sliceFails k slow) 0x0B02 (k + slow.toNat * 2 ^ 8) 0xFF := by
  unfold State.sliceFails
  dsimp only
  rw [if_neg (by simpa using hfailed), if_pos (by simpa using honce)]
  exact ⟨rfl, State.event_raised_update hcanon rfl⟩

/-- A slice that runs and has not passed yet (R528). -/
def State.slicePending (s : State) (k : Nat) : Prop := s.sliceRuns k = true ∧ k ∉ s.svc.bist.passed

theorem State.slicePending.notOver {k : Nat} (h : s.slicePending k) :
    ¬ (!s.sliceRuns k || s.svc.bist.passed.contains k) = true := by
  obtain ⟨hruns, hpassed⟩ := h
  simpa [hruns] using hpassed

/-- A pass of a slice, of a hub whose straps agree with its fuses (R23, R529). -/
theorem exec_bistSliceDone_pass {k : Fin 113} (h : s.slicePending k.val)
    (hhub : k.val < 108 ∨ k.val - 108 ∉ s.svc.hubBad) : exec (.bistSliceDone k true) s = .next
      ({ s with svc := { s.svc with
        bist := { s.svc.bist with passed := s.svc.bist.passed ++ [k.val] } } } : State).trainPcie := by
  have hgood : (true && !(decide (108 ≤ k.val) && s.svc.hubBad.contains (k.val - 108))) = true := by
    rcases hhub with hlt | hmem
    · simp [Nat.not_le.2 hlt]
    · simp [hmem]
  exact congrArg Host.Outcome.next ((if_neg h.notOver).trans (if_pos hgood))

theorem exec_bistSliceDone_fail {k : Fin 113} (h : s.slicePending k.val) :
    exec (.bistSliceDone k false) s = .next (s.sliceFails k.val false) :=
  congrArg Host.Outcome.next ((if_neg h.notOver).trans (if_neg Bool.false_ne_true))

theorem exec_bistSliceTimeout {k : Fin 113} (h : s.slicePending k.val) :
    exec (.bistSliceTimeout k) s = .next (s.sliceFails k.val true) :=
  congrArg Host.Outcome.next (if_neg h.notOver)

/-! ### Stage 6: the record in force (R532) -/

/-- Fencing whole groups touches groups and the fence mask alone. -/
theorem State.wholeGroups_eq (s : State) :
    ∃ groups flt, s.wholeGroups = { s with groups := groups, flt := flt } := by
  unfold State.wholeGroups
  refine List.foldlRecOn (motive := fun t : State => ∃ groups flt, t = { s with groups := groups, flt := flt }) _ _
    ⟨_, _, rfl⟩ fun t ht g _ => ?_
  obtain ⟨groups, flt, rfl⟩ := ht
  split
  · exact ⟨_, _, rfl⟩
  · exact ⟨_, _, rfl⟩

/-- A fenced core stays fenced when whole groups are fenced. -/
theorem State.wholeGroups_fenced {c : Nat} (h : s.flt.fenced.getLsbD c = true) :
    s.wholeGroups.flt.fenced.getLsbD c = true := by
  unfold State.wholeGroups
  refine List.foldlRecOn (motive := fun t : State => t.flt.fenced.getLsbD c = true) _ _ h fun t ht g _ => ?_
  split
  · show (t.flt.fenced ||| _).getLsbD c = true
    rw [BitVec.getLsbD_or, ht, Bool.true_or]
  · exact ht

/-- Retire the frames of a list. -/
def State.retireListed (s : State) (fs : List Nat) : State := fs.foldl (fun t f => t.setFrame f .retired) s

theorem State.retireListed_eq (s : State) (fs : List Nat) :
    ∃ frames, s.retireListed fs = { s with frames := frames } := by
  refine List.foldlRecOn (motive := fun t : State => ∃ frames, t = { s with frames := frames }) _ _ ⟨_, rfl⟩
    fun t ht f _ => ?_
  obtain ⟨frames, rfl⟩ := ht
  exact ⟨_, rfl⟩

/-- A frame that is listed or was retired before is retired. -/
theorem State.frame_retireListed {f : Nat} : ∀ {fs : List Nat} {s : State}, Tab.wf FrameSt.free s.frames = true →
    f ∈ fs ∨ s.frame f = .retired → (s.retireListed fs).frame f = .retired
  | [], _, _, h => h.resolve_left List.not_mem_nil
  | g :: fs, s, hwf, h => by
    refine State.frame_retireListed (fs := fs) (s := s.setFrame g .retired) (Tab.wf_set _ _ hwf) ?_
    by_cases hg : f = g
    · exact .inr (hg ▸ s.frame_setFrame f .retired hwf)
    · rw [s.frame_setFrame_ne .retired hwf hg]
      exact h.imp_left fun hm => (List.mem_cons.1 hm).resolve_left hg

/-- `u` is `s` with the record of stage 6 in force: its cores are fenced and its frames retired, and of the management
sequencer only writes of the record may have been asked for (R532). -/
structure State.RecordInForce (s u : State) : Prop where
  same : ∃ groups flt frames writes, u =
    { s with groups := groups, flt := flt, frames := frames, svc := { s.svc with writeTo := writes } }
  fenced : ∀ c, s.unionRecord.fenced.getLsbD c = true → u.flt.fenced.getLsbD c = true
  retired : ∀ f ∈ s.unionRecord.retired, u.frame f = .retired

theorem State.RecordInForce.regs (h : s.RecordInForce u) : u.regs = s.regs := by
  obtain ⟨groups, flt, frames, writes, rfl⟩ := h.same
  rfl

theorem State.RecordInForce.bist (h : s.RecordInForce u) : u.svc.bist = s.svc.bist := by
  obtain ⟨groups, flt, frames, writes, rfl⟩ := h.same
  rfl

/-- Writing the record again leaves it in force. -/
theorem State.RecordInForce.writeRecord (h : s.RecordInForce u) (r : FenceRec) :
    s.RecordInForce (u.writeRecord r) := by
  obtain ⟨⟨groups, flt, frames, writes, rfl⟩, hfenced, hretired⟩ := h
  exact ⟨⟨_, _, _, _, rfl⟩, hfenced, hretired⟩

/-- Fencing the cores of the record and retiring its frames puts it in force, whatever the groups were. -/
theorem State.recordInForce_of_fence_retire (groups : Tab GroupSt) (hwf : Tab.wf FrameSt.free s.frames = true) :
    s.RecordInForce (({ s with
      groups := groups, flt := { s.flt with fenced := s.unionRecord.fenced } } : State).wholeGroups.retireListed
        s.unionRecord.retired) := by
  generalize hv : ({ s with groups := groups, flt := { s.flt with fenced := s.unionRecord.fenced } } : State) = v
  have hfenced (c : Nat) (hc : s.unionRecord.fenced.getLsbD c = true) : v.wholeGroups.flt.fenced.getLsbD c = true :=
    State.wholeGroups_fenced (by rw [← hv]; exact hc)
  obtain ⟨gs, flt, hwhole⟩ := v.wholeGroups_eq
  obtain ⟨frames, hlisted⟩ := v.wholeGroups.retireListed_eq s.unionRecord.retired
  refine ⟨⟨gs, flt, frames, s.svc.writeTo, ?_⟩, fun c hc => ?_, fun f hf => State.frame_retireListed ?_ (.inl hf)⟩
  · rw [hlisted, hwhole, ← hv]
  · rw [hlisted]
    exact hfenced c hc
  · rw [hwhole, ← hv]
    exact hwf

/-- Self-test's end puts the record in force, shows how long it took and raises its event; then the device is READY, or
UNUSABLE with its main domain down when a slice of the device itself failed (R530, R532). -/
theorem exec_bistComplete (hwf : Tab.wf FrameSt.free s.frames = true) (hst : s.svc.st = .bist)
    (hover : s.bistOver = true) (ms : BitVec 16) : ∃ u, s.RecordInForce u ∧
      let v := (u.put Reg.SVC_BIST_MS ms.toNat).event 0x0B03 ms.toNat
      exec (.bistComplete ms) s = .next (
        if v.svc.bist.failed.any (fun k => decide (108 ≤ k)) then
          let t := ({ v with svc := { v.svc with st := .unusable } } : State).mainDown
          { t with svc := { t.svc with bist := v.svc.bist } }
        else { v with svc := { v.svc with st := .ready } }) := by
  generalize hrun : exec (.bistComplete ms) s = o
  change execBistComplete ms s = o at hrun
  unfold execBistComplete at hrun
  rw [if_pos ⟨hst, hover⟩] at hrun
  extract_lets _ _ groups _ _ _ s3 r' s4 at hrun
  refine ⟨s4, ?_, hrun.symm⟩
  have h : s.RecordInForce s3 := State.recordInForce_of_fence_retire groups hwf
  unfold s4
  split
  · exact h
  · exact h.writeRecord r'

/-! ### The main domain goes down (R498, R537) -/

theorem State.svcSettle_regs (s : State) : s.svcSettle.regs = s.regs :=
  (apply_ite State.regs _ _ s).trans (ite_self s.regs)

/-- `SVC_STATE` stays UNUSABLE (R537). -/
theorem State.svcSettle_unusable (h : s.svc.st = .unusable) : s.svcSettle.svc.st = .unusable := by
  unfold State.svcSettle
  dsimp only
  rw [h]
  exact h

/-- What ending a mailbox command can do: an event of a job that failed to start, then the mailbox and `SVC_STATE`. -/
theorem State.mboxEnd_cases (s : State) (st : MboxSt) (result len : Nat) : ∃ (u : State) (m : Mbox),
    (u = s ∨ ∃ detail, u = s.event 0x0B08 detail) ∧
    s.mboxEnd st result len = ({ u with svc := { u.svc with mbox := m } } : State).svcSettle := by
  unfold State.mboxEnd
  split
  · split
    · exact ⟨_, _, .inl rfl, rfl⟩
    · exact ⟨_, _, .inr ⟨_, rfl⟩, rfl⟩
  · exact ⟨_, _, .inl rfl, rfl⟩

/-- A command in progress ends; without one nothing happens. -/
theorem State.dropCommand_cases (s : State) : s.dropCommand = s ∨ s.dropCommand = s.mboxEnd .refused 1 := by
  unfold State.dropCommand
  split
  · exact .inr rfl
  · exact .inl rfl

theorem State.dropCommand_unusable (h : s.svc.st = .unusable) : s.dropCommand.svc.st = .unusable := by
  rcases s.dropCommand_cases with e | e
  · rw [e, h]
  · obtain ⟨u, m, hu, hend⟩ := s.mboxEnd_cases .refused 1 0
    have hst : u.svc.st = .unusable := by
      rcases hu with rfl | ⟨detail, rfl⟩
      · exact h
      · exact h
    rw [e, hend]
    exact State.svcSettle_unusable hst

/-- Dropping a command moves no register but the event counters. -/
theorem State.dropCommand_regs (s : State) :
    s.dropCommand.regs = s.regs ∨ ∃ detail, s.dropCommand.regs = (s.event 0x0B08 detail).regs := by
  rcases s.dropCommand_cases with e | e
  · exact .inl (by rw [e])
  · obtain ⟨u, m, hu, hend⟩ := s.mboxEnd_cases .refused 1 0
    rw [e, hend, State.svcSettle_regs]
    rcases hu with rfl | ⟨detail, rfl⟩
    · exact .inl rfl
    · exact .inr ⟨detail, rfl⟩

theorem State.mainDown_unusable (h : s.svc.st = .unusable) : s.mainDown.svc.st = .unusable := by
  unfold State.mainDown
  dsimp only
  rw [State.dropCommand_unusable h]

/-- A register of the standby domain other than the event counters keeps its word when the main domain goes down. -/
theorem State.word_mainDown {off : Nat} (hwf : Tab.wf 0 s.regs = true) (hmain : isMainReg off = false)
    (hcount : off ≠ 0x000018) (hlost : off ≠ 0x000020) : s.mainDown.word off = s.word off := by
  have hkept {t : State} (ht : Tab.wf 0 t.regs = true) (hregs : s.dropCommand.regs = t.regs) :
      s.mainDown.word off = t.word off := by
    show Tab.get 0 (s.dropCommand.regs.filter (fun e => !isMainReg e.1)) off ^^^ resetWord off = _
    rw [hregs, get_filter (fun k => !isMainReg k) off ht, hmain]
    rfl
  rcases s.dropCommand_regs with hregs | ⟨detail, hregs⟩
  · exact hkept hwf hregs
  · have hwf' : Tab.wf 0 (s.event 0x0B08 detail).regs = true := State.wf_bump _ _ _ _ _ (Tab.wf_set _ _ hwf)
    exact (hkept hwf' hregs).trans (State.word_event_ne hwf hcount hlost)

/-! ### What self-test leaves (R530, R532) -/

/-- The event of self-test's end, raised with the record in force and the time shown, is raised from the state before. -/
theorem State.RecordInForce.raised (h : s.RecordInForce u) (hwf : Tab.wf 0 s.regs = true) (ms detail : Nat) :
    s.raised ((u.put Reg.SVC_BIST_MS ms).event 0x0B03 detail) 0x0B03 detail 0xFF := by
  obtain ⟨groups, flt, frames, writes, rfl⟩ := h.same
  exact State.event_raised_of_same (State.wf_put _ _ _ _ _ hwf) rfl
    (s.get_put_ne Reg.SVC_BIST_MS Reg.FAB_NODE_NODE ms 0 0 0 0 hwf (by decide)) rfl rfl
    (s.get_put_ne Reg.SVC_BIST_MS Reg.SVC_EVT_COUNT_COUNT ms 0 0 0 0 hwf (by decide))

theorem State.RecordInForce.get_bistMs (h : s.RecordInForce u) (hwf : Tab.wf 0 s.regs = true) (ms : BitVec 16)
    (detail : Nat) : ((u.put Reg.SVC_BIST_MS ms.toNat).event 0x0B03 detail).get Reg.SVC_BIST_MS = ms.toNat := by
  have hu : Tab.wf 0 u.regs = true := h.regs ▸ hwf
  exact (State.get_event (u.wf_put _ _ _ _ hu) (by decide) (by decide)).trans
    ((u.get_put _ _ _ _ hu (by decide)).trans (Nat.mod_eq_of_lt ms.isLt))

/-- Self-test ends READY when every slice of the device itself has passed (R530, R532). -/
theorem bistComplete_ready (hcanon : s.canon = true) (ms : BitVec 16) (hst : s.svc.st = .bist)
    (hover : s.bistOver = true) (hgood : s.svc.bist.failed.any (fun k => decide (108 ≤ k)) = false) : ∃ t,
      exec (.bistComplete ms) s = .next t ∧ t.svc.st = .ready ∧ t.get Reg.SVC_BIST_MS = ms.toNat ∧
      s.raised t 0x0B03 ms.toNat 0xFF ∧
      (∀ c, c < 96 → s.unionRecord.fenced.getLsbD c = true → t.flt.fenced.getLsbD c = true) ∧
      (∀ f ∈ s.unionRecord.retired, t.frame f = .retired) := by
  have hc := s.canonical_iff.2 hcanon
  obtain ⟨u, h, hrun⟩ := exec_bistComplete hc.frames hst hover ms
  refine ⟨_, hrun.trans (congrArg Host.Outcome.next (if_neg ?_)), rfl, h.get_bistMs hc.regs ms _, h.raised hc.regs _ _,
    fun c _ hf => h.fenced c hf, h.retired⟩
  show ¬ u.svc.bist.failed.any _ = true
  rw [h.bist, hgood]
  exact Bool.false_ne_true

/-- Self-test ends UNUSABLE when a slice of the device itself failed (R530). -/
theorem bistComplete_unusable (hcanon : s.canon = true) (ms : BitVec 16) (hst : s.svc.st = .bist)
    (hover : s.bistOver = true) (hbad : s.svc.bist.failed.any (fun k => decide (108 ≤ k)) = true) : ∃ t,
      exec (.bistComplete ms) s = .next t ∧ t.svc.st = .unusable ∧ t.pins.rails = false ∧
      t.get Reg.SVC_BIST_MS = ms.toNat := by
  have hc := s.canonical_iff.2 hcanon
  obtain ⟨u, h, hrun⟩ := exec_bistComplete hc.frames hst hover ms
  have hwf : Tab.wf 0 ((u.put Reg.SVC_BIST_MS ms.toNat).event 0x0B03 ms.toNat).regs = true :=
    State.wf_bump _ _ _ _ _ (Tab.wf_set _ _ (Tab.wf_set _ _ (h.regs ▸ hc.regs)))
  refine ⟨_, hrun.trans (congrArg Host.Outcome.next (if_pos ?_)), State.mainDown_unusable rfl, rfl, ?_⟩
  · show u.svc.bist.failed.any _ = true
    rw [h.bist, hbad]
  · refine Eq.trans ?_ (h.get_bistMs hc.regs ms ms.toNat)
    exact congrArg (fun w : W64 => Reg.SVC_BIST_MS.ext w.toNat) (State.word_mainDown hwf (by decide) (by decide)
      (by decide))

/-! ### The fence record's copies (R532, R533) -/

/-- Copy A is in force when it is valid, and copy B is not or is older. -/
theorem Svc.best_recA {v : Svc} (ha : v.recA.valid = true) (hb : v.recB.valid = true → v.recB.seq < v.recA.seq) :
    v.best = some v.recA := by
  unfold Svc.best
  rw [if_pos]
  cases h : v.recB.valid with
  | false => rw [ha]; rfl
  | true => rw [ha, decide_eq_true (hb h)]; rfl

/-- Copy B is in force when it is valid, and copy A is not newer. -/
theorem Svc.best_recB {v : Svc} (hb : v.recB.valid = true) (hseq : v.recA.seq ≤ v.recB.seq) :
    v.best = some v.recB := by
  unfold Svc.best
  rw [if_neg, if_pos hb]
  rw [hb, decide_eq_false (Nat.not_lt.2 hseq)]
  simp

/-- A write that ends went to the copy not in force, is newer than both copies, and is in force (R533). -/
theorem exec_fenceRecordWritten {e : FenceRec × Bool} {rest : List (FenceRec × Bool)}
    (hwrites : s.svc.writeTo = e :: rest) (hvalid : e.1.valid = true) : ∃ t, exec .fenceRecordWritten s = .next t ∧
      t.svc.writeTo = rest ∧ t.svc.best = some { e.1 with seq := max s.svc.recA.seq s.svc.recB.seq + 1 } := by
  show ∃ t, execFenceRecordWritten s = .next t ∧ _
  unfold execFenceRecordWritten
  rw [hwrites]
  refine ⟨_, rfl, ?_⟩
  dsimp only
  split
  · exact ⟨rfl, Svc.best_recA hvalid fun _ => Nat.lt_succ_of_le (Nat.le_max_right _ _)⟩
  · exact ⟨rfl, Svc.best_recB hvalid (Nat.le_succ_of_le (Nat.le_max_left _ _))⟩

/-! ### The obligation -/

/-- Settles O57: each stage of power-up is the equation of its command; a slice that fails runs `sliceFails`, and
self-test ends by the record in force (`exec_bistComplete`). -/
theorem startUp : Obligations.StartUp := by
  unfold Obligations.StartUp
  refine ⟨fun s hcanon => ?stages, fun s hcanon => ?selfTest⟩
  case stages =>
    refine ⟨fun feed hubpos latch seated hoff => ?_, ⟨_, rfl, rfl, rfl, rfl, rfl, rfl, rfl, rfl, rfl, rfl⟩,
      fun hstby hstage => ⟨exec_managementStageDone hcanon hstby hstage,
        exec_managementStageDone_rejected hcanon hstby hstage⟩, rfl, fun hseated hstage => ?_, fun h => ?_,
      fun v hpath => mainGood_effect hcanon hpath v, fun hst => ⟨exec_railsUp hst, exec_railsUp_not_ok⟩,
      ⟨_, rfl, State.trainPcie_perst _, fun hrails hslice => State.trainPcie_trained hrails rfl hslice⟩⟩
    · exact ⟨_, congrArg Host.Outcome.next (if_neg (by rw [hoff]; decide)), rfl, rfl, rfl, rfl, rfl, rfl, rfl, rfl,
        rfl, rfl, rfl, rfl, rfl⟩
    · exact congrArg Host.Outcome.next (if_pos (by rw [hseated, hstage]; rfl))
    · refine congrArg Host.Outcome.next (if_neg ?_)
      rcases h with h | h
      · simp [h]
      · simp [h]
  case selfTest =>
    refine ⟨fun k hruns hpassed hfailed => ?_, bistComplete_ready hcanon, bistComplete_unusable hcanon,
      fun e rest => exec_fenceRecordWritten⟩
    have hpending : s.slicePending k.val := ⟨hruns, hpassed⟩
    refine ⟨fun hhub => ⟨_, exec_bistSliceDone_pass hpending hhub, ?_, ?_⟩, fun honce => ?_, fun honce => ?_⟩
    · rw [State.trainPcie_svc]
    · rw [State.trainPcie_svc]
    · have hfirst (slow : Bool) := State.sliceFails_first slow hfailed honce
      exact ⟨⟨_, (exec_bistSliceDone_fail hpending).trans (congrArg Host.Outcome.next (hfirst false)), rfl, rfl⟩,
        ⟨_, (exec_bistSliceTimeout hpending).trans (congrArg Host.Outcome.next (hfirst true)), rfl, rfl⟩⟩
    · exact ⟨⟨_, exec_bistSliceDone_fail hpending, State.sliceFails_final false hcanon hfailed honce⟩,
        ⟨_, exec_bistSliceTimeout hpending, State.sliceFails_final true hcanon hfailed honce⟩⟩

end Sys2Proof.Machine
end

section
/-!
PROOFS. Strand control and sync objects (03_programming_model.md): p0, NOP, SKIP, LOOP and PSET (R73, R82, R83, R122,
R126 to R128), SOWAIT, SOSET and SOINC (R99 to R106, R129), and the frame that a SOINC sends (R441 to R447, R455).
-/

namespace Sys2Proof.Machine

variable {s u : State} {a : Site}

/-! ### A strand instruction that executes -/

/-- Setting an entry twice leaves the last value. -/
theorem Tab.set_set {α : Type} [DecidableEq α] {d : α} (k : Nat) (v w : α) {t : Tab α} (h : Tab.wf d t = true) :
    Tab.set d (Tab.set d t k v) k w = Tab.set d t k w := by
  refine Tab.ext (Tab.wf_set _ _ (Tab.wf_set _ _ h)) (Tab.wf_set _ _ h) fun j => ?_
  by_cases hj : j = k
  · rw [hj, Tab.get_set_same _ _ (Tab.wf_set _ _ h), Tab.get_set_same _ _ h]
  · rw [Tab.get_set_ne hj _ (Tab.wf_set _ _ h), Tab.get_set_ne hj _ h, Tab.get_set_ne hj _ h]

/-- An instruction that the loader accepts and that executes answers its own effect. -/
theorem loaded_issue {p : Pred} {i : Instr} {body : State → State} (h : s.executes a p i) :
    loaded i (s.issue a p body) = .next (body (s.issueFrom a)) := by
  obtain ⟨_, _, hwf⟩ := id h
  rw [s.issue_executes a p i body h]
  exact if_pos hwf

theorem State.canon_issueFrom (h : s.canon = true) (a : Site) : (s.issueFrom a).canon = true :=
  (Keeps.refl s).issueFrom.canon h

/-- Issuing leaves what a core holds alone. -/
theorem State.core_issueFrom_still (h : s.canon = true) (a : Site) (c : Nat) :
    ((s.issueFrom a).core c).still (s.core c) = s.core c := by
  rw [s.issueFrom_core a (s.canonical_iff.2 h).cores]
  split
  · rfl
  · rfl

/-- So does switching to another strand. -/
theorem State.core_switchFrom_still (h : s.canon = true) (a : Site) (c : Nat) :
    ((s.switchFrom a).core c).still (s.core c) = s.core c := by
  have hset (k : Nat) (n : Fin 4) (b : Bool) :
      ((s.setCore k { s.core k with cur := n, left := b }).core c).still (s.core c) = s.core c := by
    by_cases hc : c = k
    · rw [hc, State.core_setCore _ _ _ (s.canonical_iff.2 h).cores]
      rfl
    · rw [State.core_setCore_ne _ _ (s.canonical_iff.2 h).cores hc]
      rfl
  unfold State.switchFrom
  split
  · unfold State.switchCore
    dsimp only
    split
    · exact hset _ _ _
    · exact hset _ _ _
  · rfl

/-- Of the device only the strand differs, and which strand each core issues from. -/
structure State.StrandOnly (s t : State) (a : Site) (x : Strand) : Prop where
  strand : t.strand a = x
  others : s.othersSame t a
  rest : s.onlyCores t

/-- An instruction that replaces its strand does nothing else. -/
theorem State.strandOnly_setStrand (h : s.canon = true) (a : Site) (x : Strand) :
    s.StrandOnly ((s.issueFrom a).setStrand a x) a x where
  strand := State.strand_setStrand _ _ _ ((State.canonical_iff _).2 (State.canon_issueFrom h a)).strands
  others := s.othersSame_setStrand a x (s.canonical_iff.2 h).strands (s.canonical_iff.2 h).cores
  rest := by
    obtain ⟨cs, he⟩ := s.issueFrom_eq a
    rw [he]
    rfl

/-- Parking changes nothing else either. -/
theorem State.StrandOnly.switchFrom {t : State} {x : Strand} (h : s.StrandOnly t a x) (ht : t.canon = true) :
    s.StrandOnly (t.switchFrom a) a x := by
  obtain ⟨cs, he⟩ := t.switchFrom_eq a
  have hsame (b : Site) : (t.switchFrom a).strand b = t.strand b := by rw [he]; rfl
  obtain ⟨hstrands, hcores⟩ := h.others
  refine ⟨(hsame a).trans h.strand, ⟨fun b hb => (hsame b).trans (hstrands b hb), fun c => ?_⟩, ?_⟩
  · have hk := State.core_switchFrom_still ht a c
    calc ((t.switchFrom a).core c).still (s.core c)
        = (((t.switchFrom a).core c).still (t.core c)).still (s.core c) := rfl
      _ = (t.core c).still (s.core c) := by rw [hk]
      _ = s.core c := hcores c
  · rw [he]
    exact h.rest

/-- Going on after an edit of the strand is one replacement of it. -/
theorem State.advance_setStrand (h : s.canon = true) (a : Site) (x : Strand) :
    (s.setStrand a x).advance a = s.setStrand a (x.goto (x.pc.toNat + 1)) := by
  have hwf := (s.canonical_iff.2 h).strands
  unfold State.advance
  rw [State.strand_setStrand _ _ _ hwf]
  show ({ s with strands := Tab.set _ (Tab.set _ _ _ _) _ _ } : State) = _
  rw [Tab.set_set _ _ _ hwf]
  rfl

/-- A predicate write leaves the program counter. -/
theorem Strand.setPred_pc (t : Strand) (n : Nat) (v : Bool) : (t.setPred n v).pc = t.pc := by
  unfold Strand.setPred
  split
  · rfl
  · rfl

theorem State.strandOnly_advance (h : s.canon = true) (a : Site) :
    s.StrandOnly ((s.issueFrom a).advance a) a (s.after a) := by
  have hx : (s.issueFrom a).advance a = (s.issueFrom a).setStrand a (s.after a) := by
    unfold State.advance State.after
    rw [State.issueFrom_strand]
  rw [hx]
  exact State.strandOnly_setStrand h a _

/-- A strand that can issue runs. -/
theorem State.canIssue_run (h : s.canIssue a = true) : (s.strand a).st = .run := by
  simp [State.canIssue, State.ready, Strand.ready] at h
  exact h.1.1.1.1.1.1.1

/-! ### Loops (R82, R122) -/

theorem Strand.goto_of_ne {t : Strand} {f : LoopFrame} {fs : List LoopFrame} {pc : Nat} (hl : t.loops = f :: fs)
    (h : pc ≠ f.last) : t.goto pc = { t with pc := BitVec.ofNat 32 pc } := by
  have hb : loopBack t.lc pc t.loops = (t.lc, pc, t.loops) := by rw [hl]; exact if_neg h
  unfold Strand.goto
  rw [hb]

theorem Strand.goto_of_repeat {t : Strand} {f : LoopFrame} {fs : List LoopFrame} (hl : t.loops = f :: fs)
    (h : 1 < t.lcv f.lc) : t.goto f.last = { t with
      lc := Tab.set 0 t.lc f.lc (Tab.get 0 t.lc f.lc - 1), pc := BitVec.ofNat 32 f.first } := by
  have hb : loopBack t.lc f.last t.loops =
      (Tab.set 0 t.lc f.lc (Tab.get 0 t.lc f.lc - 1), f.first, t.loops) := by
    rw [hl]
    exact (if_pos rfl).trans (if_pos h)
  unfold Strand.goto
  rw [hb]

theorem Strand.goto_of_exit {t : Strand} {f : LoopFrame} {fs : List LoopFrame} (hl : t.loops = f :: fs)
    (h : t.lcv f.lc ≤ 1) : t.goto f.last = ({ t with loops := fs }).goto f.last := by
  have hb : loopBack t.lc f.last t.loops = loopBack t.lc f.last fs := by
    rw [hl]
    exact (if_pos rfl).trans (if_neg (Nat.not_lt.2 h))
  unfold Strand.goto
  rw [hb]

/-- A counter above 0 counts down by one. -/
theorem lcv_set_sub_one {t : Strand} {lc : Nat} (hwf : Tab.wf 0 t.lc = true) (h : 1 < t.lcv lc) :
    (Tab.get 0 (Tab.set 0 t.lc lc (Tab.get 0 t.lc lc - 1)) lc : W32).toNat = t.lcv lc - 1 := by
  rw [Tab.get_set_same _ _ hwf]
  unfold Strand.lcv at h ⊢
  bv_omega

/-- LOOP with a count of 0 skips the body. -/
theorem Strand.enterLoop_zero (t : Strand) (lc body : Nat) : t.enterLoop lc body 0 =
    ({ t with lc := Tab.set 0 t.lc lc 0 }).goto (t.pc.toNat + 1 + body) := rfl

/-- LOOP with a count enters the body. -/
theorem Strand.enterLoop_pos (t : Strand) (lc body : Nat) {n : Nat} (h : n ≠ 0) : t.enterLoop lc body n =
    { t with
      lc := Tab.set 0 t.lc lc (BitVec.ofNat 32 n), pc := BitVec.ofNat 32 (t.pc.toNat + 1)
      loops := ⟨lc, t.pc.toNat + 1, t.pc.toNat + 1 + body, n⟩ :: t.loops } := if_neg h

/-- Settles O6: the equation of each operation on predicate 0. -/
theorem predicateZero : Obligations.PredicateZero := by
  unfold Obligations.PredicateZero
  intro t s a body
  have hcond (x : Strand) : x.cond ⟨0, false⟩ = true := rfl
  refine ⟨rfl, fun _ => rfl, hcond t, fun h => ?_⟩
  unfold State.issue
  rw [if_pos h]
  exact if_pos (hcond _)

theorem exec_nop (h : s.executes a noPred (.nop a)) : exec (.nop a) s = .next ((s.issueFrom a).advance a) :=
  loaded_issue h

theorem exec_skip {p : Pred} {n : BitVec 8} (h : s.executes a p (.skip a p n)) : exec (.skip a p n) s =
    .next ((s.issueFrom a).setStrand a ((s.strand a).goto ((s.strand a).pc.toNat + 1 + n.toNat))) := by
  refine (loaded_issue h).trans ?_
  dsimp only
  rw [State.issueFrom_strand]

/-- LOOP with a count of 32 bits takes its counter (R82, R127). -/
theorem exec_loop {lc : BitVec 2} {csrc : Bool} {sreg : BitVec 5} {count : BitVec 32} {body : BitVec 24} {n : Nat}
    (h : s.executes a noPred (.loop a lc csrc sreg count body))
    (hn : n = (if csrc then ((s.strand a).s sreg.toNat).toNat else count.toNat)) (hlt : n < 2 ^ 32) :
    exec (.loop a lc csrc sreg count body) s =
      .next ((s.issueFrom a).setStrand a ((s.strand a).enterLoop lc.toNat body.toNat n)) := by
  refine (loaded_issue h).trans ?_
  dsimp only
  rw [State.issueFrom_strand, ← hn, State.guarded_none, State.issueFrom_strand]
  rw [decide_eq_false (Nat.not_le.2 hlt)]
  rfl

/-- Settles O8: each instruction replaces its strand, and `goto` by the three lemmas on the end of a body. -/
theorem nopSkipLoop : Obligations.NopSkipLoop := by
  unfold Obligations.NopSkipLoop
  refine ⟨fun s a hcanon => ⟨fun h => ?nop, fun p n h => ?skip, fun lc csrc sreg count body h n hn hlt => ?loop⟩,
    fun t f fs pc hwf hloops => ⟨Strand.goto_of_ne hloops, fun hpc h => ?again, fun hpc h => ?leave⟩⟩
  case nop =>
    have ht := State.strandOnly_advance hcanon a
    exact ⟨_, exec_nop h, ht.strand, ht.others, ht.rest⟩
  case skip =>
    have ht := State.strandOnly_setStrand hcanon a ((s.strand a).goto ((s.strand a).pc.toNat + 1 + n.toNat))
    exact ⟨_, exec_skip h, ht.strand, ht.others, ht.rest⟩
  case loop =>
    have ht := State.strandOnly_setStrand hcanon a ((s.strand a).enterLoop lc.toNat body.toNat n)
    refine ⟨_, exec_loop h hn hlt, ht.others, ht.rest, fun h0 => ?_, fun h0 => ?_⟩
    · rw [ht.strand, h0, Strand.enterLoop_zero]
    · rw [ht.strand, Strand.enterLoop_pos _ _ _ h0]
      obtain ⟨_, _, hlc⟩ := (Strand.canon_iff _).1 (s.canon_strand a hcanon)
      refine ⟨?_, rfl, rfl⟩
      show (Tab.get 0 (Tab.set 0 (s.strand a).lc lc.toNat (BitVec.ofNat 32 n)) lc.toNat).toNat = n
      rw [Tab.get_set_same _ _ hlc, BitVec.toNat_ofNat, Nat.mod_eq_of_lt hlt]
  case again =>
    rw [hpc, Strand.goto_of_repeat hloops h]
    exact ⟨rfl, lcv_set_sub_one hwf h, rfl⟩
  case leave =>
    rw [hpc]
    exact Strand.goto_of_exit hloops h

/-! ### Operands in the tile store (R121, R143) -/

/-- What waits for a product is the same after issuing. -/
theorem State.conflict_issueFrom (h : s.canon = true) (a : Site) (rs : List Region) :
    (s.issueFrom a).conflict a rs = s.conflict a rs := by
  have hk := State.core_issueFrom_still h a a.core.val
  obtain ⟨cs, he⟩ := s.issueFrom_eq a
  have hprods := congrArg CoreSt.prods hk
  have hrelief := congrArg CoreSt.relief hk
  dsimp only [CoreSt.still] at hprods hrelief
  have hranked : (s.issueFrom a).ranked a = s.ranked a := by rw [he]; rfl
  unfold State.conflict
  dsimp only
  rw [hprods, hrelief, hranked, State.issueFrom_strand]

/-- So is every byte of the tile stores. -/
theorem State.tread_issueFrom (h : s.canon = true) (a : Site) (core at_ n : Nat) :
    (s.issueFrom a).tread core at_ n = s.tread core at_ n := by
  have htile := congrArg CoreSt.tile (State.core_issueFrom_still h a core)
  dsimp only [CoreSt.still] at htile
  unfold State.tread
  rw [htile]

/-- With no conflict and no cause an instruction over tile-store regions takes effect. -/
theorem loaded_onTile {p : Pred} {i : Instr} {causes : Strand → List (Bool × Nat)} {body : State → State}
    (hcanon : s.canon = true) (h : s.executes a p i) (hclear : s.clear a i (causes (s.strand a))) :
    loaded i (s.onTile a p i causes body) = .next (body (s.issueFrom a)) := by
  obtain ⟨hconf, hcause⟩ := hclear
  unfold State.onTile State.onRegions
  rw [loaded_issue h, State.conflict_issueFrom hcanon, hconf, if_neg Bool.false_ne_true, State.issueFrom_strand,
    State.guarded_none _ _ _ _ hcause]

/-! ### PSET (R127, R128) -/

/-- The comparison of a value of 32 or 64 bits is the one of R127. -/
theorem compare_iff {w : Nat} (cmp v : Nat) (imm : BitVec 32) (hw : 32 ≤ w) :
    compare_ w cmp v imm = true ↔ comparesTo cmp (BitVec.ofNat w v) imm := by
  have hz : (imm.setWidth w).toNat = imm.toNat :=
    (BitVec.toNat_setWidth w imm).trans (Nat.mod_eq_of_lt (Nat.lt_of_lt_of_le imm.isLt (Nat.pow_le_pow_right (by omega) hw)))
  have hs : (imm.signExtend w).toInt = imm.toInt := BitVec.toInt_signExtend_of_le hw
  unfold compare_ comparesTo
  dsimp only
  generalize BitVec.ofNat w v = x
  match cmp with
  | 0 => simp [← BitVec.toNat_inj, hz]
  | 1 => simp [← BitVec.toNat_inj, hz]
  | 2 => simp [BitVec.ult, hz]
  | 3 => simp [BitVec.ult, hz]
  | 4 => simp [BitVec.slt, hs]
  | _ + 5 => simp [BitVec.slt, hs]

/-- The value that PSET writes, on the state in which it has issued. -/
theorem State.psetValue_issueFrom (h : s.canon = true) (a : Site) (src cmp sel selb : Nat) (imm : BitVec 32)
    (tsop : Tsop) (word : Nat) : (s.issueFrom a).psetValue a src cmp sel selb imm tsop word =
      s.psetValue a src cmp sel selb imm tsop word := by
  have hmissed : (s.issueFrom a).prefetchMissed a sel = s.prefetchMissed a sel := by
    obtain ⟨cs, he⟩ := s.issueFrom_eq a
    rw [he]
    rfl
  unfold State.psetValue
  dsimp only
  rw [State.issueFrom_strand, State.tread_issueFrom h, hmissed]

/-- Whether a slot has missed is the mark of its latest prefetch. -/
theorem State.prefetchMissed_eq (s : State) (a : Site) (slot : Nat) :
    s.prefetchMissed a slot = (s.prefetch a slot).any (fun q => q.missed) := by
  unfold State.prefetchMissed State.prefetch
  cases s.prefetches.find? (fun p => p.site == a && p.slot == slot) with
  | none => rfl
  | some p => rfl

/-- PSET writes its value and goes on. -/
theorem exec_pset {p : Pred} {dstp src cmp : BitVec 3} {sel : BitVec 6} {selb : BitVec 3} {imm : BitVec 32}
    {tsop : Tsop} {word : BitVec 7} (hcanon : s.canon = true)
    (h : s.executes a p (.pset a p dstp src cmp sel selb imm tsop word))
    (hclear : s.clear a (.pset a p dstp src cmp sel selb imm tsop word) []) :
    exec (.pset a p dstp src cmp sel selb imm tsop word) s =
      .next ((s.issueFrom a).setStrand a (((s.strand a).setPred dstp.toNat
        (s.psetValue a src.toNat cmp.toNat sel.toNat selb.toNat imm tsop word.toNat)).goto
          ((s.strand a).pc.toNat + 1))) := by
  refine (loaded_onTile (causes := fun _ => []) hcanon h hclear).trans (congrArg Host.Outcome.next ?_)
  dsimp only
  rw [State.psetValue_issueFrom hcanon, State.advance_setStrand (State.canon_issueFrom hcanon a),
    State.issueFrom_strand, Strand.setPred_pc]

/-- Settles O9: PSET writes `psetValue` (`exec_pset`), which `compare_iff` ties to the comparisons of R127. -/
theorem predicateWrite : Obligations.PredicateWrite := by
  unfold Obligations.PredicateWrite
  rintro s a p dstp src cmp sel selb imm tsop word i t hcanon rfl h hclear rfl
  have ht := State.strandOnly_setStrand hcanon a (((s.strand a).setPred dstp.toNat
    (s.psetValue a src.toNat cmp.toNat sel.toNat selb.toNat imm tsop word.toNat)).goto ((s.strand a).pc.toNat + 1))
  refine ⟨_, _, exec_pset hcanon h hclear, ht.strand, ht.others, ht.rest, ?lc, ?sreg, ?tile, ?preds, ?missed⟩
  case lc =>
    rintro rfl
    exact compare_iff _ _ imm (Nat.le_refl 32)
  case sreg =>
    rintro rfl
    refine (compare_iff _ _ imm (by decide : 32 ≤ 64)).trans ?_
    rw [BitVec.ofNat_toNat, BitVec.setWidth_eq]
  case tile =>
    rintro rfl
    exact compare_iff _ _ imm (Nat.le_refl 32)
  case preds =>
    rintro rfl
    exact ⟨by rintro rfl; rfl, by rintro rfl; rfl, by rintro rfl; rfl, by rintro rfl; rfl⟩
  case missed =>
    rintro rfl
    exact s.prefetchMissed_eq a _

/-! ### Causes of STRAND_ERROR (R112, R113) -/

/-- With every cause false an instruction runs. -/
theorem firstCause_none {l : List (Bool × Nat)} (h : ∀ x ∈ l, x.1 = false) : firstCause l = none := by
  unfold firstCause
  rw [List.find?_eq_none]
  intro c _
  rw [Bool.not_eq_true, List.any_eq_false]
  intro x hx
  simp [h x hx]

/-- Asking for a fence touches the fault controller alone. -/
theorem State.selfFence_eq (s : State) (cause : Nat) : ∃ flt, s.selfFence cause = { s with flt := flt } := by
  unfold State.selfFence
  split
  · exact ⟨s.flt, rfl⟩
  · split
    · exact ⟨s.flt, rfl⟩
    · exact ⟨_, rfl⟩

/-- A strand of the running context that has not halted stops; any other is as before. -/
theorem State.strand_stopStrands (h : s.canon = true) (b : Site) : s.stopStrands.strand b =
    if (s.strand b).enabled && (s.strand b).st != .idle then
      { s.strand b with st := .stopped, soWait := none, fence := none } else s.strand b :=
  Tab.get_mapv (f := fun t : Strand =>
    if t.enabled && t.st != .idle then { t with st := .stopped, soWait := none, fence := none } else t)
    rfl _ (s.canonical_iff.2 h).strands

/-- What a strand error leaves (R112, R113): the strand stopped, its event raised, no object and no frame. -/
structure State.Stops (s t : State) (a : Site) (cause idx : Nat) : Prop where
  st : (t.strand a).st = .stopped
  so : t.so = s.so
  sent : t.sent = s.sent
  raised : s.raised t 0x0230 (cause + a.strand.val * 2 ^ 8 + idx % 2 ^ 22 * 2 ^ 10) a.core.val

theorem State.strandErrorAt_stops (h : s.canon = true) (a : Site) (cause idx : Nat) :
    s.Stops (s.strandErrorAt a cause idx) a cause idx := by
  unfold State.strandErrorAt
  extract_lets detail raised x hit stopped noted
  obtain ⟨flt, he⟩ := noted.selfFence_eq 5
  have hcanon : hit.canon = true := ((Keeps.refl s).event.editStrand (a := a)).canon h
  have hx : hit.strand a = { x with st := .stopped, soWait := none, fence := none } :=
    State.strand_setStrand _ _ _ (s.canonical_iff.2 h).strands
  rw [he]
  refine ⟨?_, rfl, rfl, s.event_raised _ _ _ h⟩
  show (stopped.strand a).st = _
  rw [show stopped.strand a = _ from State.strand_stopStrands hcanon a, hx]
  split
  · rfl
  · rfl

/-- An instruction that executes and meets a cause stops its strand on it. -/
theorem loaded_issue_stops {p : Pred} {i : Instr} {l : State → List (Bool × Nat)} {body : State → State} {c : Nat}
    (hcanon : s.canon = true) (h : s.executes a p i) (hc : firstCause (l (s.issueFrom a)) = some c) :
    ∃ t, loaded i (s.issue a p (fun s => s.guarded a (l s) body)) = .next t ∧
      s.Stops t a c (s.strand a).pc.toNat := by
  refine ⟨_, loaded_issue h, ?_⟩
  rw [State.guarded_some _ _ _ _ hc]
  unfold State.strandError
  rw [State.issueFrom_strand]
  have ht := State.strandErrorAt_stops (State.canon_issueFrom hcanon a) a c (s.strand a).pc.toNat
  obtain ⟨cs, he⟩ := s.issueFrom_eq a
  exact ⟨ht.st, ht.so.trans (by rw [he]), ht.sent.trans (by rw [he]), by
    have hr := ht.raised
    generalize (s.issueFrom a).strandErrorAt a c (s.strand a).pc.toNat = t at hr ⊢
    rw [he] at hr
    exact hr⟩

/-! ### Sync objects (R99 to R106) -/

/-- A wait is met by its threshold or a forced release (R101). -/
theorem SyncObj.met_iff (o : SyncObj) (thresh : Nat) : o.met thresh = true ↔
    (o.status = .fencedRelease ∨ (if thresh = 0 then o.thresh.toNat else thresh) ≤ o.count.toNat) := by
  unfold SyncObj.met
  simp [or_comm]

/-- Which node the strand names does not depend on where its core issues from. -/
theorem State.foreign_issueFrom (s : State) (a : Site) (t : Strand) (remote : Bool) (n : NodeOp) :
    (s.issueFrom a).foreign t remote n = s.foreign t remote n := by
  obtain ⟨cs, he⟩ := s.issueFrom_eq a
  rw [he]
  rfl

theorem State.obj_issueFrom (s : State) (a : Site) (i : Nat) : (s.issueFrom a).obj i = s.obj i := by
  obtain ⟨cs, he⟩ := s.issueFrom_eq a
  rw [he]
  rfl

/-- What a SOWAIT that has issued does to its strand (R101): go on with its predicate, or wait. -/
def Strand.waits (t : Strand) (o : SyncObj) (index dstp thresh : Nat) : Strand :=
  if o.met thresh then (t.setPred dstp (o.status != .fencedRelease)).goto (t.pc.toNat + 1)
  else { t with st := .waitSo, soWait := some ⟨index, thresh, dstp⟩ }

/-- SOWAIT of this node replaces its strand and nothing else. -/
theorem exec_sowait {p : Pred} {index : BitVec 13} {remote : Bool} {tnode : NodeOp} {dstp : BitVec 3}
    {thresh : BitVec 32} (hcanon : s.canon = true)
    (h : s.executes a p (.sowait a p index remote tnode dstp thresh))
    (hhere : s.foreign (s.strand a) remote tnode = false)
    (hgood : remote = true → NodeOp.bad (s.strand a) tnode = false) :
    ∃ t, exec (.sowait a p index remote tnode dstp thresh) s = .next t ∧ s.StrandOnly t a
      ((s.strand a).waits (s.obj index.toNat) index.toNat dstp.toNat thresh.toNat) := by
  have hissued := State.canon_issueFrom hcanon a
  have hcause : firstCause [((s.issueFrom a).foreign (s.strand a) remote tnode, 0x05),
      (remote && NodeOp.bad (s.strand a) tnode, 0x0A)] = none :=
    firstCause_none (by simpa [State.foreign_issueFrom, hhere] using hgood)
  refine ⟨_, loaded_issue h, ?_⟩
  dsimp only
  rw [State.issueFrom_strand, State.guarded_none _ _ _ _ hcause, State.obj_issueFrom]
  unfold Strand.waits
  split
  · rw [State.advance_setStrand hissued, Strand.setPred_pc]
    exact State.strandOnly_setStrand hcanon a _
  · exact (State.strandOnly_setStrand hcanon a _).switchFrom
      (State.canon_setStrand _ _ _ hissued (s.canon_strand a hcanon))

/-- Of the device only the strand, which strand each core issues from, and one object differ. -/
structure State.SetsObj (s t : State) (a : Site) (i : Nat) (o : SyncObj) : Prop where
  strand : t.strand a = s.after a
  others : s.othersSame t a
  obj : t.obj i = o
  objs : ∀ j, j ≠ i → t.obj j = s.obj j
  rest : ({ t with strands := s.strands, cores := s.cores, so := s.so } : State) = s

/-- Replacing an object on the way to the next instruction does nothing else. -/
theorem State.setsObj_advance (hcanon : s.canon = true) (a : Site) (i : Nat) (o : SyncObj) :
    s.SetsObj (((s.issueFrom a).setObj i o).advance a) a i o := by
  have ht := State.strandOnly_advance hcanon a
  obtain ⟨hstrands, hcores⟩ := ht.others
  obtain ⟨cs, he⟩ := s.issueFrom_eq a
  have hso := (s.canonical_iff.2 hcanon).so
  have hobj (j : Nat) : (((s.issueFrom a).setObj i o).advance a).obj j = (s.setObj i o).obj j := by rw [he]; rfl
  exact ⟨ht.strand, ⟨hstrands, hcores⟩, (hobj i).trans (State.obj_setObj _ _ _ hso),
    fun j hj => (hobj j).trans (State.obj_setObj_ne _ _ hso hj), by rw [he]; rfl⟩

/-- The object that SOSET leaves (R101, R129). -/
def State.sosetObj (s : State) (a : Site) (o : SyncObj) (hold hexpl : Bool) (hnode : NodeOp) (hcore : BitVec 7)
    (count : BitVec 24) (thresh : BitVec 32) : SyncObj :=
  let o := { o with count := count.setWidth 32, thresh := thresh, ctx := BitVec.ofNat 4 (s.running.getD 0) }
  if hold then
    { o with
      node := BitVec.ofNat 15 (if hexpl then NodeOp.node (s.strand a) hnode else s.node)
      core := if hexpl then hcore else BitVec.ofNat 7 a.core.val
      valid := true
      status := .held }
  else { o with valid := false, status := .free }

/-- SOSET of an object of this node sets it and goes on. -/
theorem exec_soset {p : Pred} {index : BitVec 13} {remote : Bool} {tnode : NodeOp} {hold hexpl : Bool}
    {hnode : NodeOp} {hcore : BitVec 7} {count : BitVec 24} {thresh : BitVec 32} (hcanon : s.canon = true)
    (h : s.executes a p (.soset a p index remote tnode hold hexpl hnode hcore count thresh))
    (hindex : index.toNat < 8128) (hhere : s.foreign (s.strand a) remote tnode = false)
    (hgood : remote = true → NodeOp.bad (s.strand a) tnode = false)
    (hholder : hold = true → hexpl = true → NodeOp.bad (s.strand a) hnode = false) :
    ∃ t, exec (.soset a p index remote tnode hold hexpl hnode hcore count thresh) s = .next t ∧
      s.SetsObj t a index.toNat (s.sosetObj a (s.obj index.toNat) hold hexpl hnode hcore count thresh) := by
  have hcause : firstCause [(soReserved index, 0x03), ((s.issueFrom a).foreign (s.strand a) remote tnode, 0x05),
      (remote && NodeOp.bad (s.strand a) tnode, 0x0A), (hold && hexpl && NodeOp.bad (s.strand a) hnode, 0x0A)] =
      none := firstCause_none (by
    simpa [State.foreign_issueFrom, hhere, soReserved, hindex] using ⟨hgood, hholder⟩)
  have hobj : (s.issueFrom a).sosetObj a (s.obj index.toNat) hold hexpl hnode hcore count thresh =
      s.sosetObj a (s.obj index.toNat) hold hexpl hnode hcore count thresh := by
    unfold State.sosetObj
    rw [State.issueFrom_strand]
    obtain ⟨cs, he⟩ := s.issueFrom_eq a
    rw [he]
    rfl
  refine ⟨_, loaded_issue h, ?_⟩
  dsimp only
  rw [State.issueFrom_strand, State.guarded_none _ _ _ _ hcause, State.obj_issueFrom, ← hobj]
  unfold State.sosetObj
  rw [State.issueFrom_strand]
  exact State.setsObj_advance hcanon a _ _

/-- Settles O11: a wait by `exec_sowait`, a set by `exec_soset`. -/
theorem syncWaitSet : Obligations.SyncWaitSet := by
  unfold Obligations.SyncWaitSet
  refine ⟨SyncObj.met_iff, fun s a p index remote tnode hcanon hhere hgood => ⟨fun dstp thresh h => ?wait,
    fun hold hexpl hnode hcore count thresh hindex h hholder => ?set⟩⟩
  case wait =>
    obtain ⟨t, he, ht⟩ := exec_sowait hcanon h hhere hgood
    refine ⟨t, he, ht.others, ht.rest, fun hmet => ?_, fun hmet => ?_⟩
    · rw [ht.strand]
      exact if_pos hmet
    · rw [ht.strand]
      exact if_neg (by rw [hmet]; decide)
  case set =>
    obtain ⟨t, he, ht⟩ := exec_soset hcanon h hindex hhere hgood hholder
    refine ⟨t, he, ht.strand, ht.others, ht.rest, ht.objs, ?_⟩
    rw [ht.obj]
    have hcount : (count.setWidth 32).toNat = count.toNat :=
      (BitVec.toNat_setWidth 32 count).trans (Nat.mod_eq_of_lt (count.isLt.trans (by decide)))
    cases hold with
    | false => exact ⟨hcount, rfl, fun _ => ⟨rfl, rfl⟩, fun hh => absurd hh (by decide)⟩
    | true => exact ⟨hcount, rfl, fun hh => absurd hh (by decide), fun _ => ⟨rfl, rfl, BitVec.toNat_ofNat _ _, rfl⟩⟩

/-- Settles O13: cause 3 comes first for SOINC and SOSET; SOWAIT judges no reservation. -/
theorem reservedObjects : Obligations.ReservedObjects := by
  unfold Obligations.ReservedObjects
  intro s a p index remote tnode hcanon hindex
  have hres : soReserved index = true := decide_eq_true hindex
  refine ⟨fun amount h => ?soinc, fun hold hexpl hnode hcore count thresh h => ?soset, fun dstp thresh h hhere => ?sowait⟩
  case soinc =>
    obtain ⟨t, he, ht⟩ := loaded_issue_stops (c := 3) (l := fun s => [(soReserved index, 0x03),
      (s.foreign (s.strand a) remote tnode && !s.inJob (NodeOp.node (s.strand a) tnode), 0x04),
      (remote && NodeOp.bad (s.strand a) tnode, 0x0A)]) hcanon h (by simp [firstCause, hres])
    exact ⟨t, he, ht.st, ht.so, ht.raised⟩
  case soset =>
    obtain ⟨t, he, ht⟩ := loaded_issue_stops (c := 3) (l := fun s => [(soReserved index, 0x03),
      (s.foreign (s.strand a) remote tnode, 0x05), (remote && NodeOp.bad (s.strand a) tnode, 0x0A),
      (hold && hexpl && NodeOp.bad (s.strand a) hnode, 0x0A)]) hcanon h (by simp [firstCause, hres])
    exact ⟨t, he, ht.st, ht.so, ht.raised⟩
  case sowait =>
    subst hhere
    obtain ⟨t, he, ht⟩ := exec_sowait hcanon h rfl (fun hr => nomatch hr)
    have hsvc := congrArg State.svc ht.rest
    refine ⟨t, he, hsvc, ?_⟩
    rw [ht.strand]
    unfold Strand.waits
    obtain ⟨hissue, _, _⟩ := h
    split
    · refine Or.inl (Eq.trans ?_ (State.canIssue_run hissue))
      show (Strand.setPred _ _ _).st = _
      unfold Strand.setPred
      split
      · rfl
      · rfl
    · exact Or.inr rfl

/-! ### Adding to an object (R102) -/

/-- An object with an amount added to its COUNT, which saturates (R102). -/
def SyncObj.plus (o : SyncObj) (n : Nat) : SyncObj :=
  { o with count := BitVec.ofNat 32 (min (o.count.toNat + n) 0xFFFFFFFF) }

/-- An addition below the limit replaces its object and nothing else. -/
theorem State.soAdd_below {i n : Nat} (h : (s.obj i).count.toNat + n < 2 ^ 32) :
    s.soAdd i n = s.setObj i ((s.obj i).plus n) := by
  unfold State.soAdd SyncObj.plus
  dsimp only
  rw [if_pos h, Nat.min_eq_left (by omega)]

/-- An addition beyond the limit leaves the greatest COUNT and raises SO_SATURATE. -/
theorem State.soAdd_beyond {i n : Nat} (h : 2 ^ 32 ≤ (s.obj i).count.toNat + n) :
    s.soAdd i n = (s.setObj i ((s.obj i).plus n)).event 0x0231 i := by
  unfold State.soAdd SyncObj.plus
  dsimp only
  rw [if_neg (Nat.not_lt.2 h), Nat.min_eq_right (by omega)]
  rfl

/-- Adding touches the objects, and the event registers and the ring where it saturates. -/
theorem State.soAdd_eq (s : State) (i n : Nat) :
    ∃ regs ring, s.soAdd i n =
      { s.setObj i ((s.obj i).plus n) with regs := regs, svc := { s.svc with ring := ring } } := by
  rcases Nat.lt_or_ge ((s.obj i).count.toNat + n) (2 ^ 32) with h | h
  · exact ⟨s.regs, s.svc.ring, State.soAdd_below h⟩
  · exact ⟨_, _, State.soAdd_beyond h⟩

theorem State.obj_soAdd (hwf : Tab.wf SyncObj.reset s.so = true) (i n : Nat) :
    (s.soAdd i n).obj i = (s.obj i).plus n := by
  obtain ⟨regs, ring, he⟩ := s.soAdd_eq i n
  rw [he]
  exact State.obj_setObj _ _ _ hwf

theorem State.obj_soAdd_ne (hwf : Tab.wf SyncObj.reset s.so = true) {i j : Nat} (n : Nat) (h : j ≠ i) :
    (s.soAdd i n).obj j = s.obj j := by
  obtain ⟨regs, ring, he⟩ := s.soAdd_eq i n
  rw [he]
  exact State.obj_setObj_ne _ _ hwf h

/-- Adding 1 increments the object once. -/
theorem State.signals_soAdd (hwf : Tab.wf SyncObj.reset s.so = true) (i : Nat) : s.signals (s.soAdd i 1) i :=
  ⟨State.obj_soAdd hwf i 1, fun _ hj => State.obj_soAdd_ne hwf 1 hj⟩

/-- A register that counts no event keeps its word when an object is added to. -/
theorem State.word_soAdd (hwf : Tab.wf 0 s.regs = true) {i n off : Nat} (hcount : off ≠ 0x000018)
    (hlost : off ≠ 0x000020) : (s.soAdd i n).word off = s.word off := by
  rcases Nat.lt_or_ge ((s.obj i).count.toNat + n) (2 ^ 32) with h | h
  · rw [State.soAdd_below h]
    rfl
  · rw [State.soAdd_beyond h]
    exact State.word_event_ne (s := s.setObj i ((s.obj i).plus n)) hwf hcount hlost

/-- Going on after an addition. -/
theorem State.soAdd_advance (hcanon : s.canon = true) (a : Site) (i n : Nat) :
    let t := ((s.issueFrom a).soAdd i n).advance a
    t.strand a = s.after a ∧ s.othersSame t a ∧ (∀ j, j ≠ i → t.obj j = s.obj j) ∧ t.obj i = (s.obj i).plus n ∧
    ((s.obj i).count.toNat + n < 2 ^ 32 → ({ t with strands := s.strands, cores := s.cores, so := s.so } : State) = s) ∧
    (2 ^ 32 ≤ (s.obj i).count.toNat + n → s.raised t 0x0231 i 0xFF ∧
      ({ t with strands := s.strands, cores := s.cores, so := s.so, regs := s.regs, svc := s.svc } : State) = s) := by
  intro t
  have hset := State.setsObj_advance hcanon a i ((s.obj i).plus n)
  obtain ⟨hstrands, hcores⟩ := hset.others
  have hobj : (s.issueFrom a).obj i = s.obj i := State.obj_issueFrom s a i
  rcases Nat.lt_or_ge ((s.obj i).count.toNat + n) (2 ^ 32) with h | h
  · have ht : t = ((s.issueFrom a).setObj i ((s.obj i).plus n)).advance a := by
      show State.advance _ a = _
      rw [State.soAdd_below (by rw [hobj]; exact h), hobj]
    rw [ht]
    exact ⟨hset.strand, hset.others, hset.objs, hset.obj, fun _ => hset.rest, fun h' => absurd h (Nat.not_lt.2 h')⟩
  · have ht : t = (((s.issueFrom a).setObj i ((s.obj i).plus n)).event 0x0231 i).advance a := by
      show State.advance _ a = _
      rw [State.soAdd_beyond (by rw [hobj]; exact h), hobj]
    rw [ht]
    refine ⟨hset.strand, ⟨hstrands, hcores⟩, hset.objs, hset.obj, fun h' => absurd h' (Nat.not_lt.2 h), fun _ => ?_⟩
    obtain ⟨cs, he⟩ := s.issueFrom_eq a
    rw [he]
    exact ⟨s.event_raised _ _ _ hcanon, rfl⟩

/-! ### Sending to another node (R441 to R447, R455, R459) -/

/-- Taking a transmission number touches sessions, the count of rekeys and the draws of free values. -/
theorem State.takeXsn_eq (s : State) (node : Nat) (ctx : Option Nat) : ∃ sessions regs freeCounter,
    (s.takeXsn node ctx).1 =
      { s with sec := { s.sec with sessions := sessions }, regs := regs, freeCounter := freeCounter } := by
  unfold State.takeXsn
  split
  · exact ⟨s.sec.sessions, s.regs, s.freeCounter, rfl⟩
  · dsimp only
    split
    · exact ⟨_, _, _, rfl⟩
    · exact ⟨_, s.regs, s.freeCounter, rfl⟩

theorem State.word_takeXsn (hwf : Tab.wf 0 s.regs = true) (node : Nat) (ctx : Option Nat) {off : Nat}
    (h : off ≠ Reg.SEC_REKEYS_COUNT.off 0 0) : (s.takeXsn node ctx).1.word off = s.word off := by
  unfold State.takeXsn
  split
  · rfl
  · dsimp only
    split
    · exact State.word_put_ne _ _ _ _ _ _ hwf h
    · rfl

/-- The transmission number itself: that of the session, from 0 again after a rekey; 0 before a session is agreed. -/
theorem State.takeXsn_snd (s : State) (node : Nat) (ctx : Option Nat) : (s.takeXsn node ctx).2 =
    ((s.session node ctx).map (fun x => if xsnLimit ≤ x.xsn + 1 then 0 else x.xsn)).getD 0 := by
  unfold State.takeXsn
  cases s.session node ctx with
  | none => rfl
  | some x => rfl

/-- The port's address and class marks of a frame do not depend on the transmission number. -/
theorem State.framed_takeXsn (hwf : Tab.wf 0 s.regs = true) (node : Nat) (ctx : Option Nat) (port : Nat) (f : Frame) :
    (s.takeXsn node ctx).1.framed port (s.framed port f) = s.framed port f := by
  have hget (g : Fld) (h : g.off 0 0 ≠ Reg.SEC_REKEYS_COUNT.off 0 0) :
      (s.takeXsn node ctx).1.get g = s.get g := by
    unfold State.get
    rw [State.word_takeXsn hwf node ctx h]
  have hnode : (s.takeXsn node ctx).1.node = s.node := hget _ (by decide)
  have hpcp : (s.takeXsn node ctx).1.pcpOf f.ty = s.pcpOf f.ty := by
    unfold State.pcpOf
    rw [hget Reg.FAB_CFG_PCP_DATA (by decide), hget Reg.FAB_CFG_PCP_CTL (by decide),
      hget Reg.FAB_CFG_PCP_STORE (by decide)]
  show ({ s.framed port f with snode := (s.takeXsn node ctx).1.node, pcp := (s.takeXsn node ctx).1.pcpOf f.ty } : Frame) = _
  rw [hnode, hpcp]
  rfl

/-- A frame handed to a port leaves, and its bytes are counted there (R462). -/
theorem State.emitOn_eq (s : State) (port : Nat) (f : Frame) : ∃ regs ports, s.emitOn port f =
    { s with regs := regs, ports := ports, sent := s.framed port f :: s.sent } := by
  unfold State.emitOn
  dsimp only
  split
  · exact ⟨_, _, rfl⟩
  · exact ⟨s.regs, _, rfl⟩

/-- The frame that a connection sends: its next PSN and MSG, on a port (R438, R441). -/
def State.packetOn (s : State) (i : Nat) (f : Frame) : Frame :=
  let c := s.conn i
  s.framed ((s.portFor f).getD 0) { f with
    dcid := c.dcid, epoch := BitVec.ofNat 8 (s.ctx c.ctx).entries, psn := c.txPsn, msg := c.txMsg
    xsn := (s.takeXsn c.peer (some c.ctx)).2 }

/-- Sending on a connection hands one frame to a port, and the connection keeps it until it is acknowledged. -/
theorem State.sendOn_eq (hwf : Tab.wf 0 s.regs = true) (i : Nat) (f : Frame) (tag : PktTag) :
    ∃ sessions regs freeCounter ports, s.sendOn i f tag = ({ s with
      sec := { s.sec with sessions := sessions }, regs := regs, freeCounter := freeCounter, ports := ports
      sent := s.packetOn i f :: s.sent } : State).setConn i { s.conn i with
        txPsn := ((s.conn i).txPsn + 1) % 2 ^ 32
        txMsg := if f.last then ((s.conn i).txMsg + 1) % 2 ^ 32 else (s.conn i).txMsg
        lastBeat := s.beat
        unacked := (s.conn i).unacked ++ [{ frame := s.packetOn i f, tag := tag, tries := 0, limited := false }] } := by
  have hframed : (s.takeXsn (s.conn i).peer (some (s.conn i).ctx)).1.framed ((s.portFor f).getD 0) (s.packetOn i f) =
      s.packetOn i f := State.framed_takeXsn hwf _ _ _ _
  obtain ⟨sessions, regs, freeCounter, he⟩ := s.takeXsn_eq (s.conn i).peer (some (s.conn i).ctx)
  obtain ⟨regs', ports, he'⟩ := (s.takeXsn (s.conn i).peer (some (s.conn i).ctx)).1.emitOn_eq ((s.portFor f).getD 0)
    (s.packetOn i f)
  refine ⟨sessions, regs', freeCounter, ports, ?_⟩
  show ((s.takeXsn _ _).1.emitOn _ (s.packetOn i f)).setConn i _ = _
  rw [he', hframed, he]
  rfl

/-- One frame for a node that is not fenced, with nothing waiting and a connection that can take it, is sent. -/
theorem State.send_one {c node i : Nat} {f : Frame} {tag : PktTag} (hfenced : s.isFenced node = false)
    (hwait : s.waitSends = []) (hcan : s.canSend c node f = some i) :
    s.send c node [f] tag = { s.sendOn i f tag with waitSends := [] } := by
  have hconn : (s.connOf c node).isNone = false := by
    unfold State.canSend at hcan
    cases h : s.connOf c node with
    | none => rw [h] at hcan; exact absurd hcan (by simp)
    | some j => rfl
  have hs : ({ s with waitSends := [] } : State) = s := by rw [← hwait]
  unfold State.send
  rw [if_neg (by rw [hfenced]; decide), hwait]
  unfold State.drainSends
  simp only [List.nil_append, List.map_cons, List.map_nil, List.foldl_cons, List.foldl_nil]
  rw [hs]
  simp [hfenced, hconn, hcan]

/-- What a discarded send leaves (R447, R455): its count, and at most its event and its mark. -/
theorem State.discardTo_eq (s : State) (node : Nat) :
    ∃ regs flt svc, s.discardTo node = { s with regs := regs, flt := flt, svc := svc } := by
  unfold State.discardTo
  dsimp only
  split
  · exact ⟨_, s.flt, s.svc, rfl⟩
  · exact ⟨_, _, _, rfl⟩

theorem State.get_discardTo (hwf : Tab.wf 0 s.regs = true) (node : Nat) :
    (s.discardTo node).get Reg.FAB_DISCARD_COUNT = (s.get Reg.FAB_DISCARD_COUNT + 1) % 2 ^ 64 := by
  have hb : (s.bump Reg.FAB_DISCARD_COUNT).get Reg.FAB_DISCARD_COUNT = (s.get Reg.FAB_DISCARD_COUNT + 1) % 2 ^ 64 :=
    State.get_bump _ _ _ _ _ hwf (by decide)
  unfold State.discardTo
  dsimp only
  split
  · exact hb
  · exact (State.get_event (State.wf_bump _ _ _ _ _ hwf) (by decide) (by decide)).trans hb

/-! ### SOINC (R101, R102, R104, R105, R129) -/

/-- A SOINC of an object of this node adds to it and goes on. -/
theorem exec_soinc {p : Pred} {index : BitVec 13} {remote : Bool} {tnode : NodeOp} {amount : BitVec 16}
    (h : s.executes a p (.soinc a p index remote tnode amount)) (hindex : index.toNat < 8128)
    (hhere : s.foreign (s.strand a) remote tnode = false)
    (hgood : remote = true → NodeOp.bad (s.strand a) tnode = false) :
    exec (.soinc a p index remote tnode amount) s =
      .next (((s.issueFrom a).soAdd index.toNat amount.toNat).advance a) := by
  have haway : (s.issueFrom a).foreign (s.strand a) remote tnode = false := (s.foreign_issueFrom a _ _ _).trans hhere
  refine (loaded_issue h).trans (congrArg Host.Outcome.next ?_)
  dsimp only
  rw [State.issueFrom_strand, haway, State.guarded_none _ _ _ _ (firstCause_none (by
    simpa [soReserved, hindex] using hgood))]
  rfl

/-- A SOINC of another node of the job sends one frame. -/
theorem exec_soinc_away {p : Pred} {index : BitVec 13} {n : BitVec 15} {amount : BitVec 16}
    (h : s.executes a p (.soinc a p index true (.id n) amount)) (hindex : index.toNat < 8128)
    (haway : n.toNat ≠ s.node) (hjob : s.inJob n.toNat = true) :
    exec (.soinc a p index true (.id n) amount) s = .next (((s.issueFrom a).send (s.running.getD 0) n.toNat
      [dataFrame 0x02 n.toNat (index.toNat + amount.toNat * 2 ^ 16) 0 true []] (.strand a)).advance a) := by
  obtain ⟨cs, he⟩ := s.issueFrom_eq a
  have hforeign : (s.issueFrom a).foreign (s.strand a) true (.id n) = true :=
    (s.foreign_issueFrom a _ _ _).trans (decide_eq_true haway)
  have hin : (s.issueFrom a).inJob n.toNat = true := by rw [he]; exact hjob
  have hrun : (s.issueFrom a).running = s.running := by rw [he]; rfl
  refine (loaded_issue h).trans (congrArg Host.Outcome.next ?_)
  dsimp only
  rw [State.issueFrom_strand, hforeign, State.guarded_none _ _ _ _ (firstCause_none (by
    simp [soReserved, hindex, NodeOp.node, hin, NodeOp.bad])), if_pos rfl, hrun]
  rfl

/-- A SOINC to a fenced node is discarded and counted (R105). -/
theorem soinc_discarded {p : Pred} {index : BitVec 13} {n : BitVec 15} {amount : BitVec 16} (hcanon : s.canon = true)
    (h : s.executes a p (.soinc a p index true (.id n) amount)) (hindex : index.toNat < 8128)
    (haway : n.toNat ≠ s.node) (hfenced : s.isFenced n.toNat = true) : ∃ t,
    exec (.soinc a p index true (.id n) amount) s = .next t ∧ t.strand a = s.after a ∧ s.othersSame t a ∧
      t.sent = s.sent ∧ t.waitSends = s.waitSends ∧ t.so = s.so ∧ t.mem = s.mem ∧
      t.get Reg.FAB_DISCARD_COUNT = (s.get Reg.FAB_DISCARD_COUNT + 1) % 2 ^ 64 := by
  have hjob : s.inJob n.toNat = true := by
    unfold State.inJob
    rw [show s.flt.map.failed.any (fun f => f.node == n.toNat) = true from hfenced, Bool.or_true]
  have ht := State.strandOnly_advance hcanon a
  obtain ⟨hstrands, hcores⟩ := ht.others
  obtain ⟨cs, he⟩ := s.issueFrom_eq a
  have hfenced' : (s.issueFrom a).isFenced n.toNat = true := by rw [he]; exact hfenced
  have hcount := State.get_discardTo (s := s.issueFrom a)
    (((s.issueFrom a).canonical_iff.2 (State.canon_issueFrom hcanon a)).regs) n.toNat
  refine ⟨_, exec_soinc_away h hindex haway hjob, ?_⟩
  unfold State.send
  rw [if_pos hfenced']
  obtain ⟨regs, flt, svc, hd⟩ := (s.issueFrom a).discardTo_eq n.toNat
  rw [hd] at hcount ⊢
  exact ⟨ht.strand, ⟨hstrands, hcores⟩, by rw [he]; rfl, by rw [he]; rfl, by rw [he]; rfl, by rw [he]; rfl,
    hcount.trans (by rw [he]; rfl)⟩

/-- A SOINC to a live node whose connection can take it sends one frame, kept until it is acknowledged (R441, R446). -/
theorem soinc_sent {p : Pred} {index : BitVec 13} {n : BitVec 15} {amount : BitVec 16} {f : Frame} {c i port : Nat}
    (hcanon : s.canon = true) (h : s.executes a p (.soinc a p index true (.id n) amount))
    (hindex : index.toNat < 8128) (haway : n.toNat ≠ s.node)
    (hf : f = dataFrame 0x02 n.toNat (index.toNat + amount.toNat * 2 ^ 16) 0 true [])
    (hjob : s.inJob n.toNat = true) (hlive : s.isFenced n.toNat = false) (hwait : s.waitSends = [])
    (hrun : s.running = some c) (hcan : s.canSend c n.toNat f = some i) (hport : s.portFor f = some port) :
    ∃ (t : State) (g : Frame), exec (.soinc a p index true (.id n) amount) s = .next t ∧ t.strand a = s.after a ∧
      s.othersSame t a ∧ t.so = s.so ∧ t.mem = s.mem ∧ t.waitSends = [] ∧ t.sent = g :: s.sent ∧ g.ty = 0x02 ∧
      g.dnode = n.toNat ∧ g.port = port ∧ g.snode = s.node ∧ g.enc = true ∧ g.psn = (s.conn i).txPsn ∧
      g.msg = (s.conn i).txMsg ∧ g.last = true ∧ g.addr = f.addr ∧ g.payload = [] ∧
      (t.conn i).unacked = (s.conn i).unacked ++ [⟨g, .strand a, 0, false⟩] ∧
      (t.conn i).txPsn = ((s.conn i).txPsn + 1) % 2 ^ 32 := by
  have ht := State.strandOnly_advance hcanon a
  obtain ⟨hstrands, hcores⟩ := ht.others
  obtain ⟨cs, he⟩ := s.issueFrom_eq a
  have hsend : (s.issueFrom a).send c n.toNat [f] (.strand a) =
      { (s.issueFrom a).sendOn i f (.strand a) with waitSends := [] } :=
    State.send_one (by rw [he]; exact hlive) (by rw [he]; exact hwait) (by rw [he]; exact hcan)
  have hconn (x : Conn) : Tab.get Conn.reset (Tab.set Conn.reset (s.issueFrom a).conns i x) i = x :=
    Tab.get_set_same _ _ ((s.issueFrom a).canonical_iff.2 (State.canon_issueFrom hcanon a)).conns
  obtain ⟨sessions, regs, freeCounter, ports, hs⟩ := State.sendOn_eq (s := s.issueFrom a)
    ((s.issueFrom a).canonical_iff.2 (State.canon_issueFrom hcanon a)).regs i f (.strand a)
  have hpacket : (s.issueFrom a).packetOn i f = s.packetOn i f := by
    unfold State.packetOn
    dsimp only
    rw [State.takeXsn_snd, State.takeXsn_snd, he]
    rfl
  have hconns : (s.issueFrom a).conn i = s.conn i := by rw [he]; rfl
  have hexec := exec_soinc_away h hindex haway hjob
  rw [hrun, ← hf, Option.getD_some, hsend, hs] at hexec
  refine ⟨_, s.packetOn i f, hexec, ht.strand, ⟨hstrands, hcores⟩, by rw [he]; rfl, by rw [he]; rfl, rfl, ?_, ?_⟩
  · rw [hpacket, he]
    rfl
  · have hto : (s.packetOn i f).port = port := by
      show (s.portFor f).getD 0 = port
      rw [hport]
      rfl
    refine ⟨by rw [hf]; rfl, by rw [hf]; rfl, hto, rfl, by rw [hf]; rfl, rfl, rfl, by rw [hf]; rfl, rfl,
      by rw [hf]; rfl, ?_, ?_⟩
    · rw [← hpacket, ← hconns]
      exact congrArg Conn.unacked (hconn _)
    · rw [← hconns]
      exact congrArg Conn.txPsn (hconn _)

/-- Settles O12: the local addition, and of the remote SOINC the cause, the discard and the frame sent. -/
theorem syncIncrement : Obligations.SyncIncrement := by
  unfold Obligations.SyncIncrement
  refine ⟨fun s a p index remote tnode amount hcanon h hindex hhere hgood => ?here,
    fun s a p index n amount f hcanon h hindex haway hf => ⟨fun hjob => ?outside, fun hfenced => ?fenced,
      fun hjob hlive hwait c i port hrun hcan hport => ?sent⟩⟩
  case here => exact ⟨_, exec_soinc h hindex hhere hgood, State.soAdd_advance hcanon a index.toNat amount.toNat⟩
  case outside =>
    obtain ⟨cs, he⟩ := s.issueFrom_eq a
    have hin : (s.issueFrom a).inJob n.toNat = false := by rw [he]; exact hjob
    have hforeign : (s.issueFrom a).foreign (s.strand a) true (.id n) = true :=
      (s.foreign_issueFrom a _ _ _).trans (decide_eq_true haway)
    obtain ⟨t, hexec, ht⟩ := loaded_issue_stops (c := 4) (l := fun s => [(soReserved index, 0x03),
      (s.foreign (s.strand a) true (.id n) && !s.inJob (NodeOp.node (s.strand a) (.id n)), 0x04),
      (true && NodeOp.bad (s.strand a) (.id n), 0x0A)]) hcanon h (by
        simp [firstCause, soReserved, hindex, hforeign, NodeOp.node, NodeOp.bad, hin])
    exact ⟨t, hexec, ht.st, ht.sent, ht.so, ht.raised⟩
  case fenced => exact soinc_discarded hcanon h hindex haway hfenced
  case sent => exact soinc_sent hcanon h hindex haway hf hjob hlive hwait hrun hcan hport

end Sys2Proof.Machine
end

section
/-!
PROOFS. The checkpoints end (03_programming_model.md and the step-state store): the flash generation, the writes of a store
checkpoint and the object that each increments (R107, R493 to R496).
-/

namespace Sys2Proof.Machine

variable {s u : State}

/-! ### Checkpoints (R493 to R496) -/

/-- Sealing a context's flash key touches the NOR slots alone. -/
theorem State.sealBlob_eq (s : State) (c : Nat) :
    ∃ blobs, s.sealBlob c = { s with svc := { s.svc with blobs := blobs } } := by
  unfold State.sealBlob
  dsimp only
  split
  · exact ⟨_, rfl⟩
  · exact ⟨s.svc.blobs, rfl⟩

/-- The generation that a flash checkpoint of a context leaves (R495). -/
def CkptJob.generation (j : CkptJob) (s : State) (c : Nat) : FlashGen :=
  { ctx := c, stamp := j.stamp, tag := j.tag, own := j.what % 2 == 1, heldCopies := j.what / 2 % 2 == 1
    areas := j.areas, key := (s.ctx c).flashKey, cells := s.rangeCells c j.areas }

/-- The oldest flash checkpoint outside the guard: its generation is the newest, and DONE is incremented. -/
theorem exec_ckptFlashDone {j : CkptJob} {rest : List CkptJob} {c : Nat} (hcanon : s.canon = true)
    (hjob : s.ckptFlash = j :: rest) (hrun : s.running = some c) (hguard : s.flt.guard = false) :
    ∃ t, exec .ckptFlashDone s = .next t ∧ t.ckptFlash = rest ∧ t.gens.head? = some (j.generation s c) ∧
      s.signals t j.done ∧
      ({ t with ckptFlash := s.ckptFlash, gens := s.gens, so := s.so, regs := s.regs, svc := s.svc } : State) = s := by
  have hexec : exec .ckptFlashDone s = execCkptFlashDone s := rfl
  unfold execCkptFlashDone at hexec
  rw [hjob, hrun] at hexec
  dsimp only at hexec
  rw [if_neg (by rw [hguard]; decide)] at hexec
  refine ⟨_, hexec, ?_⟩
  generalize List.filter _ _ = kept
  generalize (areaBytes j.areas + 1) / 2 = w0
  generalize areaBytes j.areas / 2 = w1
  obtain ⟨blobs, hb⟩ := ((({ s with ckptFlash := rest, gens := j.generation s c :: kept } : State).bump
    Reg.MT_FTL_WRITTEN_COUNT 0 0 w0).bump Reg.MT_FTL_WRITTEN_COUNT 1 0 w1).sealBlob_eq c
  generalize hu : State.sealBlob _ c = u
  have hu' := hu.symm.trans hb
  have hso : u.so = s.so := by rw [hu']; rfl
  have hsig := State.signals_soAdd (s := u) (by rw [hso]; exact (s.canonical_iff.2 hcanon).so) j.done
  obtain ⟨regs, ring, he⟩ := u.soAdd_eq j.done 1
  rw [he] at hsig ⊢
  rw [hu'] at hsig ⊢
  exact ⟨rfl, rfl, hsig, rfl⟩

/-- In the guard no flash checkpoint ends (R499). -/
theorem exec_ckptFlashDone_guard {j : CkptJob} {rest : List CkptJob} (hjob : s.ckptFlash = j :: rest)
    (hguard : s.flt.guard = true) : exec .ckptFlashDone s = .next s := by
  show execCkptFlashDone s = _
  unfold execCkptFlashDone
  rw [hjob]
  cases s.running with
  | none => rfl
  | some c => exact congrArg Host.Outcome.next (if_pos hguard)

/-- A PDU that is sent leaves on a port. -/
theorem State.sendPdu_eq (s : State) (k : Nat) (x : TcpConn) (pdu cmd cid : Nat) (nsid : BitVec 32) (at_ bytes : Nat)
    (bs : List Byte) : ∃ regs ports sent, s.sendPdu k x pdu cmd cid nsid at_ bytes bs =
      { s with regs := regs, ports := ports, sent := sent } := by
  obtain ⟨regs, ports, he⟩ := s.emitOn_eq x.port _
  exact ⟨regs, ports, _, he⟩

/-- The header block of a store checkpoint goes out on its connection, last of all (R496). -/
def State.sendHeader (s : State) (j : CkptJob) (head : List Byte) : State :=
  match s.tcpTo j.target (s.spray.headD 0) with
  | some (k, x) => (s.sendPdu k x pduCmd cmdWrite s.nextOp j.target.nsid j.lba j.block []).sendPdu k x
      pduH2cData 0 s.nextOp j.target.nsid 0 j.block head
  | none => s

theorem State.sendHeader_eq (s : State) (j : CkptJob) (head : List Byte) : ∃ regs ports sent,
    s.sendHeader j head = { s with regs := regs, ports := ports, sent := sent } := by
  unfold State.sendHeader
  split
  · obtain ⟨regs, ports, sent, he⟩ := State.sendPdu_eq s _ _ pduCmd cmdWrite s.nextOp j.target.nsid j.lba j.block []
    obtain ⟨regs', ports', sent', he'⟩ := State.sendPdu_eq _ _ _ _ _ _ _ _ _ _
    exact ⟨_, _, _, he'.trans (by rw [he])⟩
  · exact ⟨s.regs, s.ports, s.sent, rfl⟩

/-- The oldest store checkpoint with every range written (R496): DONE is incremented, and the store's generation noted. -/
theorem exec_ckptStoreDone {j : CkptJob} {rest : List CkptJob} (hcanon : s.canon = true)
    (hjob : s.ckptStore = j :: rest) (hguard : s.flt.guard = false) (hleft : j.left = 0) :
    ∃ t, exec (.ckptStoreDone none) s = .next t ∧ t.ckptStore = rest ∧ s.signals t j.done ∧
      t.svc.storeGen = some (j.stamp, 0, s.bt.count) ∧ t.mem = s.mem ∧ t.strands = s.strands := by
  let head : List Byte := (List.range j.block).map (Config.cryptoByte s.draw)
  have hexec : exec (.ckptStoreDone none) s = .next ((((({ s with
      ckptStore := rest } : State).drawn).sendHeader j head).setStoreGen j.stamp 0).soAdd j.done 1) := by
    show execCkptStoreDone none s = _
    unfold execCkptStoreDone
    rw [hjob]
    exact congrArg Host.Outcome.next (if_neg (by simp [hguard, hleft]))
  refine ⟨_, hexec, ?_⟩
  obtain ⟨regs, ports, sent, hu⟩ := (({ s with ckptStore := rest } : State).drawn).sendHeader_eq j head
  rw [hu]
  generalize hv : State.setStoreGen _ _ _ = v
  have hsig := State.signals_soAdd (s := v) (by rw [← hv]; exact (s.canonical_iff.2 hcanon).so) j.done
  obtain ⟨regs', ring, he⟩ := v.soAdd_eq j.done 1
  rw [he] at hsig ⊢
  rw [← hv] at hsig ⊢
  exact ⟨rfl, hsig, rfl, rfl, rfl⟩

/-- A store checkpoint with an error is dropped with its operations (R496). -/
theorem exec_ckptStoreDone_fail {j : CkptJob} {rest : List CkptJob} (hcanon : s.canon = true)
    (hjob : s.ckptStore = j :: rest) (st : W16) : ∃ t, exec (.ckptStoreDone (some st)) s = .next t ∧
      t.ckptStore = rest ∧ t.so = s.so ∧ t.mem = s.mem ∧ t.strands = s.strands ∧ s.raised t 0x0B62 st.toNat 0xFF ∧
      t.nvme = s.nvme.filter (fun o => o.use != NvmeUse.ckptStore) := by
  have hfail (u : State) : u.ckptFail st.toNat false = u.event 0x0B62 st.toNat :=
    congrArg (fun detail => u.event 0x0B62 detail) (Nat.mod_eq_of_lt st.isLt)
  have hexec : exec (.ckptStoreDone (some st)) s = .next (((({ s with
      ckptStore := rest, nvme := s.nvme.filter (fun o => o.use != NvmeUse.ckptStore) } : State).event 0x0B62
        st.toNat)).setStoreGen j.stamp st.toNat) := by
    show execCkptStoreDone (some st) s = _
    unfold execCkptStoreDone
    rw [hjob]
    exact congrArg (fun u : State => Host.Outcome.next (u.setStoreGen j.stamp st.toNat)) (hfail _)
  exact ⟨_, hexec, rfl, rfl, rfl, rfl, State.event_raised_of_same (s := s)
    (u := { s with ckptStore := rest, nvme := s.nvme.filter (fun o => o.use != NvmeUse.ckptStore) })
    (s.canonical_iff.2 hcanon).regs rfl rfl rfl rfl rfl, rfl⟩

/-- Settles O33: each end is the equation of its command. -/
theorem checkpointEnds : Obligations.CheckpointEnds := by
  unfold Obligations.CheckpointEnds
  intro s j rest hcanon
  refine ⟨fun c hjob hrun hguard => ?_, exec_ckptFlashDone_guard, fun hjob hguard hleft =>
    exec_ckptStoreDone hcanon hjob hguard hleft, fun hjob hheld => ?_, fun hjob st =>
    exec_ckptStoreDone_fail hcanon hjob st⟩
  · obtain ⟨t, hexec, hrest, hgen, hsig, hsame⟩ := exec_ckptFlashDone hcanon hjob hrun hguard
    exact ⟨t, _, hexec, hrest, hgen, rfl, rfl, rfl, rfl, rfl, rfl, rfl, rfl, hsig, hsame⟩
  · show execCkptStoreDone none s = _
    unfold execCkptStoreDone
    rw [hjob]
    exact congrArg Host.Outcome.next (if_pos hheld)

end Sys2Proof.Machine
end

section
/-!
PROOFS. The services that go on: a state load whose saved registers do not stand in their canonical order (R497, R538, R539).
-/

namespace Sys2Proof.Machine

variable {s u : State}

/-! ### A state load into a saved context (R504, R539) -/

/-- The job of a context that starts afresh at step 0 (R539). -/
def freshJob : Job :=
  { step := 0, place := none, source := .fresh, startBeat := 0, endBeat := none, entered := false, late := false
    spare := false, admitted := false }

/-- A saved context whose registers are listed out of order, UE_STEP at 5 behind a register with a higher offset. The
canonical form judges a context's mappings and saved objects, and not its saved registers. -/
def unsortedCtx : Ctx :=
  { Ctx.reset with
    st := .loaded, job := some freshJob
    saved := { so := [], regs := [(Reg.UE_SEED_SEED.off 0 0, 1), (Reg.UE_STEP_STEP.off 0 0, 5)], flt := FaultMap.reset } }

/-- The device at order 4 of a JOB_START of that context, while no context is shown. -/
def unsortedLoad : State :=
  { State.reset with
    svc := { Svc.reset with mbox := { Mbox.reset with st := .busy, job := some (.jobStart 0 4) } }
    sec := { SecUnit.reset with ctxs := [(0, unsortedCtx)] } }

theorem unsortedLoad_canon : unsortedLoad.canon = true := by decide

/-- The fresh load of that context: order 6 of the job. -/
theorem exec_stateLoadDone_unsorted : exec (.stateLoadDone false false []) unsortedLoad =
    .next (unsortedLoad.loadedState 0 freshJob) := rfl

/-- Setting UE_STEP to 0 there leaves the entry behind the higher offset, which is what a read still finds. -/
theorem stepOf_unsortedLoad : (unsortedLoad.loadedState 0 freshJob).stepOf 0 = 5 := by decide

/-- Refutes O50: a fresh load at step 0 of a context whose saved registers are not in rising order ends with UE_STEP 5. -/
theorem not_serviceEnds : ¬ Obligations.ServiceEnds := by
  unfold Obligations.ServiceEnds
  intro h
  obtain ⟨_, _, hstate, _⟩ := h unsortedLoad unsortedLoad_canon
  obtain ⟨_, _, _, _, _, hfresh⟩ := hstate 0 freshJob false [] rfl rfl 0 rfl
  obtain ⟨t, hexec, _, hstep, _⟩ := hfresh rfl rfl
  rw [exec_stateLoadDone_unsorted] at hexec
  rw [← Host.Outcome.next.inj hexec, stepOf_unsortedLoad] at hstep
  exact absurd hstep (by decide)

end Sys2Proof.Machine
end

section
/-!
PROOFS. Every command ends in a next state, or its words were rejected at load (R89, R112, R120, R144).
-/

namespace Sys2Proof.Machine

variable {s u : State} {a : Site}

/-! ### Every command ends -/

/-- Every command answers a next state when the loader accepts it: a strand instruction by its guard `loaded`, and any
other command because the loader judges none of it. -/
theorem exec_loaded (i : Instr) (s : State) : ∃ t, exec i s = loaded i t := by
  cases i
  all_goals exact ⟨_, rfl⟩

/-- The loader judges the instructions that a word encodes, and no other command (R89, R144). -/
theorem wf_of_bare_none {i : Instr} (h : i.bare a = none) : i.wf = true := by
  cases i
  all_goals try rfl
  all_goals exact absurd h (Option.some_ne_none _)

/-- Settles O60: by `exec_loaded` a command ends or is refused as its words are judged. -/
theorem everyCommandEnds : Obligations.EveryCommandEnds := by
  unfold Obligations.EveryCommandEnds
  intro i s
  obtain ⟨t, ht⟩ := exec_loaded i s
  refine ⟨fun h => ⟨t, ht.trans (if_pos h)⟩, fun h => ⟨ht.trans (if_neg ?_), noSite, ?_⟩⟩
  · rw [h]
    decide
  · cases hb : i.bare noSite with
    | some j => exact ⟨j, rfl⟩
    | none => exact absurd (wf_of_bare_none hb) (by rw [h]; decide)

end Sys2Proof.Machine
end

section
/-!
PROOFS. Prefetches (03_programming_model.md, R131, R409 to R419): what moved bytes leave of the maps, the other prefetches and
the counters, the start by PFH, completion, drop and deadline.
-/

namespace Sys2Proof.Machine

variable {s t u : State}

/-! ### What a transfer leaves (R397, R412, R418) -/

/-- A mapping without its AGE. -/
def Mapping.ageless (m : Mapping) : Mapping := { m with age := 0 }

/-- Every virtual frame is mapped as before, but for ages. -/
def State.SameMaps (s t : State) : Prop :=
  ∀ c vf, (t.mapping c vf).map Mapping.ageless = (s.mapping c vf).map Mapping.ageless

/-- Mappings hang on the contexts and UE_STEP alone. -/
theorem State.sameMaps_of (hsec : t.sec = s.sec) (hstep : t.word 0x050000 = s.word 0x050000) : s.SameMaps t := by
  intro c vf
  have hue : t.ueStep = s.ueStep := congrArg (fun w : W64 => Reg.UE_STEP_STEP.ext w.toNat) hstep
  unfold State.mapping State.viewFrame State.viewOf State.stepOf State.ctx
  rw [hsec, hue]

theorem State.SameMaps.translate (h : s.SameMaps t) (c va : Nat) : t.translate c va = s.translate c va := by
  have hm := h c (va / frameBytes)
  unfold State.translate
  cases ht : t.mapping c (va / frameBytes) with
  | none =>
    rw [ht] at hm
    rw [Option.map_eq_none_iff.1 hm.symm]
  | some m =>
    rw [ht] at hm
    obtain ⟨m', hs, he⟩ := Option.map_eq_some_iff.1 hm.symm
    have htier := congrArg Mapping.tier he
    have hframe := congrArg Mapping.frame he
    dsimp only [Mapping.ageless] at htier hframe
    rw [hs]
    dsimp only
    rw [htier, hframe]

/-- Giving frames an age leaves the table of mappings otherwise. -/
theorem ageless_touched (beat : Nat) (f : Nat) : ∀ (vfs : List Nat) (m : Tab (Option Mapping)), Tab.wf none m = true →
    (Tab.get none (vfs.foldl (fun (m : Tab (Option Mapping)) vf =>
      match Tab.get none m vf with
      | some e => Tab.set none m vf (some { e with age := beat })
      | none => m) m) f).map Mapping.ageless = (Tab.get none m f).map Mapping.ageless
  | [], _, _ => rfl
  | vf :: vfs, m, h => by
    rw [List.foldl_cons]
    split
    next e he =>
      rw [ageless_touched beat f vfs _ (Tab.wf_set _ _ h)]
      by_cases hf : f = vf
      · rw [hf, Tab.get_set_same _ _ h, he]
        rfl
      · rw [Tab.get_set_ne hf _ h]
    next => exact ageless_touched beat f vfs m h

theorem State.sameMaps_touch (hcanon : s.canon = true) (c va n : Nat) : s.SameMaps (s.touch c va n) := by
  have hctxs := (s.canonical_iff.2 hcanon).ctxs
  have hmaps := (Keeps.refl s).maps c hcanon
  intro d vf
  by_cases hd : d = c
  · subst hd
    have hviews : ((s.touch d va n).ctx d).views = (s.ctx d).views := by
      unfold State.touch
      rw [State.ctx_setCtx _ _ _ hctxs]
    have hsaved : ((s.touch d va n).ctx d).saved = (s.ctx d).saved := by
      unfold State.touch
      rw [State.ctx_setCtx _ _ _ hctxs]
    have hof : (s.touch d va n).viewOf d vf = s.viewOf d vf := by
      unfold State.viewOf
      rw [hviews]
    have hstep : (s.touch d va n).stepOf d = s.stepOf d := by
      unfold State.stepOf
      rw [hsaved]
      rfl
    have hframe : (s.touch d va n).viewFrame d vf = s.viewFrame d vf := by
      unfold State.viewFrame
      rw [hof, hstep]
    have hget : (Tab.get none ((s.touch d va n).ctx d).maps (s.viewFrame d vf)).map Mapping.ageless =
        (Tab.get none (s.ctx d).maps (s.viewFrame d vf)).map Mapping.ageless := by
      unfold State.touch
      rw [State.ctx_setCtx _ _ _ hctxs]
      exact ageless_touched _ _ _ _ hmaps
    unfold State.mapping
    rw [hof, hframe]
    dsimp only
    split
    · rw [Option.map_map, Option.map_map]
      have hro (m : Option Mapping) : m.map (Mapping.ageless ∘ fun m => { m with ro := true }) =
          (m.map Mapping.ageless).map (fun m => { m with ro := true }) := by
        cases m with
        | none => rfl
        | some m => rfl
      rw [hro, hro, hget]
    · exact hget
  · have hctx : (s.touch c va n).ctx d = s.ctx d := State.ctx_setCtx_ne s _ hctxs hd
    unfold State.mapping State.viewFrame State.viewOf State.stepOf
    rw [hctx]
    rfl

/-- What the bytes that a prefetch moves leave: memory, ages, STALE marks and their counters, and nothing else. -/
structure State.Moved (s t : State) : Prop where
  frame : ∃ mem regs sec prefetches, t = { s with mem := mem, regs := regs, sec := sec, prefetches := prefetches }
  words : ∀ off, ¬ staleCounter off → t.word off = s.word off
  maps : s.SameMaps t
  run : t.sec.run = s.sec.run
  slots : ∃ stale : Prefetch → List Nat, t.prefetches = s.prefetches.map (fun p => { p with stale := stale p })

theorem State.Moved.refl (s : State) : s.Moved s where
  frame := ⟨s.mem, s.regs, s.sec, s.prefetches, rfl⟩
  words _ _ := rfl
  maps _ _ := rfl
  run := rfl
  slots := ⟨Prefetch.stale, (List.map_id _).symm⟩

theorem State.Moved.trans (h : s.Moved t) (h' : t.Moved u) : s.Moved u where
  frame := by
    obtain ⟨_, _, _, _, he⟩ := h.frame
    obtain ⟨_, _, _, _, he'⟩ := h'.frame
    exact ⟨_, _, _, _, he'.trans (by rw [he])⟩
  words off ho := (h'.words off ho).trans (h.words off ho)
  maps c vf := (h'.maps c vf).trans (h.maps c vf)
  run := h'.run.trans h.run
  slots := by
    obtain ⟨stale, he⟩ := h.slots
    obtain ⟨stale', he'⟩ := h'.slots
    exact ⟨fun p => stale' { p with stale := stale p }, by rw [he', he, List.map_map]; rfl⟩

theorem State.moved_touch (hcanon : s.canon = true) (c va n : Nat) : s.Moved (s.touch c va n) where
  frame := ⟨s.mem, s.regs, _, s.prefetches, rfl⟩
  words _ _ := rfl
  maps := State.sameMaps_touch hcanon c va n
  run := rfl
  slots := (State.Moved.refl s).slots

/-- A range write replaces memory. -/
theorem State.vwrite_eq (s : State) (c va : Nat) (bs : List Byte) : ∃ mem, s.vwrite c va bs = { s with mem := mem } := by
  have he := congrArg (fun x : State => { x with mem := (s.vwrite c va bs).mem }) (State.vwrite_mem c bs s va)
  exact ⟨_, he⟩

theorem State.moved_vwrite (c va : Nat) (bs : List Byte) : s.Moved (s.vwrite c va bs) := by
  obtain ⟨mem, he⟩ := s.vwrite_eq c va bs
  rw [he]
  exact ⟨⟨mem, s.regs, s.sec, s.prefetches, rfl⟩, fun _ _ => rfl, State.sameMaps_of rfl rfl, rfl, (State.Moved.refl s).slots⟩

/-- Counting STALE granules moves the counters of STALE granules alone. -/
theorem State.foldl_bump_stale (hub : Nat → Nat) : ∀ (vas : List Nat) (s : State), Tab.wf 0 s.regs = true →
    ∃ regs, vas.foldl (fun (t : State) va => t.bump Reg.MT_PF_STALE_COUNT (hub va)) s = { s with regs := regs } ∧
      ∀ off, ¬ staleCounter off → ({ s with regs := regs } : State).word off = s.word off
  | [], s, _ => ⟨s.regs, rfl, fun _ _ => rfl⟩
  | va :: vas, s, h => by
    obtain ⟨regs, he, hw⟩ := State.foldl_bump_stale hub vas (s.bump Reg.MT_PF_STALE_COUNT (hub va)) (s.wf_bump _ _ _ _ h)
    exact ⟨regs, he, fun off ho => (hw off ho).trans (s.word_put_ne _ _ _ _ _ h fun e => ho ⟨_, e⟩)⟩

/-- Marking STALE touches the marks and their counters. -/
theorem State.markStale_eq (hwf : Tab.wf 0 s.regs = true) (c va n : Nat) : ∃ regs, ∃ stale : Prefetch → List Nat,
    s.markStale c va n =
      { s with regs := regs, prefetches := s.prefetches.map (fun p => { p with stale := stale p }) } ∧
    ∀ off, ¬ staleCounter off → ({ s with regs := regs } : State).word off = s.word off := by
  unfold State.markStale
  split
  · exact ⟨s.regs, Prefetch.stale, by rw [List.map_id'], fun _ _ => rfl⟩
  · extract_lets hit marks s'
    obtain ⟨regs, he, hw⟩ := State.foldl_bump_stale (fun va => granuleHub ((s.translate c va).getD 0))
      (s.prefetches.flatMap (fun p => (marks p).map (fun g => (p.src / 65536 + g) * 65536))) s' hwf
    exact ⟨regs, fun p => p.stale ++ marks p, he, hw⟩

theorem State.moved_markStale (hcanon : s.canon = true) (c va n : Nat) : s.Moved (s.markStale c va n) := by
  obtain ⟨regs, stale, he, hw⟩ := State.markStale_eq (s.canonical_iff.2 hcanon).regs c va n
  rw [he]
  refine ⟨⟨s.mem, regs, s.sec, _, rfl⟩, hw, State.sameMaps_of rfl (hw _ ?_), rfl, ⟨stale, rfl⟩⟩
  rintro ⟨h, hh⟩
  simp only [Fld.off, Reg.MT_PF_STALE_COUNT] at hh
  omega

theorem State.moved_store (hcanon : s.canon = true) (c va : Nat) (bs : List Byte) : s.Moved (s.store c va bs) :=
  ((State.moved_vwrite c va bs).trans (State.moved_touch ((Keeps.refl s).vwrite.canon hcanon) c va _)).trans
    (State.moved_markStale ((Keeps.refl s).vwrite.touch.canon hcanon) c va _)

/-- A stored range holds its bytes, and every other byte is unchanged. -/
theorem State.store_gets (hcanon : s.canon = true) (c va : Nat) (bs : List Byte) :
    s.memGets (s.store c va bs) c bs.length (fun k => va + k) (fun k => bs.getD k 0) := by
  have hmem : (s.store c va bs).mem = (s.vwrite c va bs).mem := by
    obtain ⟨regs, stale, he, _⟩ := State.markStale_eq (s := (s.vwrite c va bs).touch c va bs.length)
      ((State.canonical_iff _).2 ((Keeps.refl s).vwrite.touch.canon hcanon)).regs c va bs.length
    have hm := congrArg State.mem he
    exact hm
  have hg := State.vwrite_gets c bs s va (s.canonical_iff.2 hcanon).mem
  unfold State.memGets State.pbyte at hg ⊢
  rw [hmem]
  exact hg

/-- The bytes of a transfer (R412). -/
theorem State.moved_pfDeliver (hcanon : s.canon = true) (c : Nat) (p : Prefetch) (hi : Nat) :
    s.Moved (s.pfDeliver c p hi).1 := by
  unfold State.pfDeliver
  split
  · exact State.Moved.refl s
  · exact (State.moved_touch hcanon _ _ _).trans (State.moved_store ((Keeps.refl s).touch.canon hcanon) _ _ _)

theorem State.pfDeliver_snd (c : Nat) {p : Prefetch} {hi : Nat} (h : p.delivered ≤ hi) :
    (s.pfDeliver c p hi).2 = { p with delivered := hi } := by
  unfold State.pfDeliver
  split
  next hle =>
    obtain rfl : hi = p.delivered := by omega
    rfl
  next => rfl

/-- Of the prefetch a transfer changes what has been delivered. -/
theorem State.pfDeliver_snd_eq (s : State) (c : Nat) (p : Prefetch) (hi : Nat) :
    ∃ d, (s.pfDeliver c p hi).2 = { p with delivered := d } := by
  unfold State.pfDeliver
  split
  · exact ⟨p.delivered, rfl⟩
  · exact ⟨hi, rfl⟩

/-- A transfer that has come so far moves nothing more. -/
theorem State.pfDeliver_done (c : Nat) {p : Prefetch} {hi : Nat} (h : hi ≤ p.delivered) :
    s.pfDeliver c p hi = (s, p) := if_pos h

/-- The bytes from the delivered prefix up are those of the source. -/
theorem State.pfDeliver_gets (hcanon : s.canon = true) (c : Nat) (p : Prefetch) (hi : Nat) :
    s.memGets (s.pfDeliver c p hi).1 c (hi - p.delivered) (fun k => p.dst + p.delivered + k)
      (fun k => s.vbyte c (p.src + p.delivered + k)) := by
  unfold State.pfDeliver
  split
  next hle =>
    rw [Nat.sub_eq_zero_of_le hle]
    exact ⟨fun k _ hk => absurd hk (Nat.not_lt_zero k), fun _ _ => rfl⟩
  next =>
    have hmoved := State.moved_touch hcanon c (p.src + p.delivered) (hi - p.delivered)
    have hg := State.store_gets (s := s.touch c (p.src + p.delivered) (hi - p.delivered))
      ((Keeps.refl s).touch.canon hcanon) c (p.dst + p.delivered) (s.vread c (p.src + p.delivered) (hi - p.delivered))
    have hlen : (s.vread c (p.src + p.delivered) (hi - p.delivered)).length = hi - p.delivered := by
      unfold State.vread
      rw [List.length_map, List.length_range]
    rw [hlen] at hg
    obtain ⟨hin, hout⟩ := hg
    refine ⟨fun k pa hk ht hlast => ?_, fun pa hpa => ?_⟩
    · rw [hin k pa hk ((hmoved.maps.translate _ _).trans ht) fun j hj hl => by
        rw [hmoved.maps.translate]
        exact hlast j hj hl]
      unfold State.vread
      dsimp only
      rw [List.getD_eq_getElem?_getD, List.getElem?_map, List.getElem?_range hk]
      rfl
    · exact hout pa fun k hk => by
        rw [hmoved.maps.translate]
        exact hpa k hk

/-! ### The prefetch of a slot (R411) -/

theorem State.prefetch_key {a : Site} {k : Nat} {p : Prefetch} (h : s.prefetch a k = some p) :
    p.site = a ∧ p.slot = k := by
  have hp := List.find?_some h
  simpa using hp

/-- Marks leave every slot its prefetch. -/
theorem State.Moved.prefetch (h : s.Moved t) : ∃ stale : Prefetch → List Nat,
    ∀ b k, t.prefetch b k = (s.prefetch b k).map (fun p => { p with stale := stale p }) := by
  obtain ⟨stale, he⟩ := h.slots
  refine ⟨stale, fun b k => ?_⟩
  unfold State.prefetch
  rw [he, List.find?_map]
  rfl

/-- Changing the prefetch of a slot keeps every prefetch where it is. -/
theorem State.prefetch_setPrefetch (p : Prefetch) (b : Site) (k : Nat) : (s.setPrefetch p).prefetch b k =
    (s.prefetch b k).map (fun q => if q.site == p.site && q.slot == p.slot then { p with stale := q.stale } else q) := by
  unfold State.prefetch State.setPrefetch
  rw [List.find?_map]
  refine congrArg (Option.map _) (congrArg (fun f => List.find? f s.prefetches) (funext fun q => ?_))
  rw [Function.comp_apply]
  split
  next hkey =>
    rw [Bool.and_eq_true, beq_iff_eq, beq_iff_eq] at hkey
    rw [hkey.1, hkey.2]
  next => rfl

/-- A transfer that changes the prefetch of its slot: the slot holds it, and the others stand where they stood. -/
theorem State.slots_setPrefetch {a : Site} {k : Nat} {p q : Prefetch} (h : s.prefetch a k = some p) (hm : s.Moved t)
    (hsite : q.site = a) (hslot : q.slot = k) :
    (∃ stale, (t.setPrefetch q).prefetch a k = some { q with stale := stale }) ∧
    ∀ b j, (b, j) ≠ (a, k) → ((t.setPrefetch q).prefetch b j).map (·.st) = (s.prefetch b j).map (·.st) := by
  obtain ⟨stale, hmoved⟩ := hm.prefetch
  refine ⟨⟨stale p, ?_⟩, fun b j hne => ?_⟩
  · obtain ⟨hps, hpk⟩ := State.prefetch_key h
    rw [State.prefetch_setPrefetch, hmoved, h, hsite, hslot]
    simp [hps, hpk]
  · rw [State.prefetch_setPrefetch, hmoved]
    cases hs : s.prefetch b j with
    | none => rfl
    | some x =>
      obtain ⟨hxs, hxk⟩ := State.prefetch_key hs
      have hkey : (x.site == q.site && x.slot == q.slot) = false := by
        rw [hxs, hxk, hsite, hslot, Bool.and_eq_false_iff, beq_eq_false_iff_ne, beq_eq_false_iff_ne]
        by_contra hc
        push Not at hc
        exact hne (by rw [hc.1, hc.2])
      rw [Option.map_some, Option.map_some]
      dsimp only
      rw [hkey]
      rfl

/-! ### Completion objects (R102, R107) -/

/-- Increment a completion object, where one is named. -/
def State.signal (s : State) : Option Nat → State
  | some i => s.soAdd i 1
  | none => s

theorem Keeps.signal {s₀ : State} (h : Keeps s₀ s) {so : Option Nat} : Keeps s₀ (s.signal so) := by
  unfold State.signal
  split
  · exact h.soAdd
  · exact h

/-- A completion object: incremented once, or none. -/
structure State.Signalled (s t : State) (so : Option Nat) : Prop where
  signals : ∀ i, so = some i → s.signals t i
  none : so = none → t.so = s.so

theorem State.signalled_signal (hwf : Tab.wf SyncObj.reset s.so = true) (so : Option Nat) :
    s.Signalled (s.signal so) so := by
  cases so with
  | none => exact ⟨fun i hi => (nomatch hi), fun _ => rfl⟩
  | some i => exact ⟨fun j hj => by
      obtain rfl := Option.some.inj hj
      exact State.signals_soAdd hwf i, fun hn => (nomatch hn)⟩

/-- The objects alone say whether one was incremented. -/
theorem State.Signalled.of_so {v : State} {so : Option Nat} (h : s.Signalled t so) (hs : u.so = s.so)
    (ht : v.so = t.so) : u.Signalled v so := by
  obtain ⟨hsig, hnone⟩ := h
  unfold State.signals State.obj at hsig
  refine ⟨fun i hi => ?_, fun hn => (ht.trans (hnone hn)).trans hs.symm⟩
  unfold State.signals State.obj
  rw [hs, ht]
  exact hsig i hi

theorem State.signal_eq (s : State) (so : Option Nat) : ∃ objs regs ring,
    s.signal so = { s with so := objs, regs := regs, svc := { s.svc with ring := ring } } := by
  unfold State.signal
  split
  · obtain ⟨regs, ring, he⟩ := s.soAdd_eq _ 1
    exact ⟨_, regs, ring, he⟩
  · exact ⟨s.so, s.regs, s.svc.ring, rfl⟩

@[simp] theorem State.signal_mem (s : State) (so : Option Nat) : (s.signal so).mem = s.mem := by
  obtain ⟨objs, regs, ring, he⟩ := s.signal_eq so
  rw [he]
@[simp] theorem State.signal_strands (s : State) (so : Option Nat) : (s.signal so).strands = s.strands := by
  obtain ⟨objs, regs, ring, he⟩ := s.signal_eq so
  rw [he]
@[simp] theorem State.signal_cores (s : State) (so : Option Nat) : (s.signal so).cores = s.cores := by
  obtain ⟨objs, regs, ring, he⟩ := s.signal_eq so
  rw [he]
@[simp] theorem State.signal_step (s : State) (so : Option Nat) : (s.signal so).step = s.step := by
  obtain ⟨objs, regs, ring, he⟩ := s.signal_eq so
  rw [he]
@[simp] theorem State.signal_prefetches (s : State) (so : Option Nat) : (s.signal so).prefetches = s.prefetches := by
  obtain ⟨objs, regs, ring, he⟩ := s.signal_eq so
  rw [he]

theorem State.word_signal (hwf : Tab.wf 0 s.regs = true) (so : Option Nat) {off : Nat} (hcount : off ≠ 0x000018)
    (hlost : off ≠ 0x000020) : (s.signal so).word off = s.word off := by
  unfold State.signal
  split
  · exact State.word_soAdd hwf hcount hlost
  · rfl

/-! ### The ends of a prefetch (R412, R414, R417) -/

/-- The bytes that can be moved end at the limit or before it. -/
theorem State.pfReach_le (c : Nat) (p : Prefetch) (lo hi : Nat) : s.pfReach c p lo hi ≤ hi := by
  have hfold (l : List Nat) : ∀ x, l.foldl min x ≤ x := by
    induction l with
    | nil => exact fun x => Nat.le_refl x
    | cons y ys ih => exact fun x => (ih _).trans (Nat.min_le_left x y)
  exact hfold _ hi

/-- What the counters of a hub are: registers that neither an event nor a STALE granule nor a status mark moves. -/
def hubCounter (f : Fld) : Prop :=
  ∀ h, f.off h 0 ≠ 0x000018 ∧ f.off h 0 ≠ 0x000020 ∧ ¬ staleCounter (f.off h 0) ∧
    ∀ i, f.off h 0 ≠ Reg.MT_STATUS_MISS.off i 0

theorem hubCounter_done : hubCounter Reg.MT_PF_DONE_COUNT := by
  intro h
  simp only [staleCounter, Fld.off, Reg.MT_PF_DONE_COUNT, Reg.MT_PF_STALE_COUNT, Reg.MT_STATUS_MISS, not_exists]
  refine ⟨?_, ?_, fun _ => ?_, fun _ => ?_⟩ <;> omega

theorem hubCounter_drop : hubCounter Reg.MT_PF_DROP_COUNT := by
  intro h
  simp only [staleCounter, Fld.off, Reg.MT_PF_DROP_COUNT, Reg.MT_PF_STALE_COUNT, Reg.MT_STATUS_MISS, not_exists]
  refine ⟨?_, ?_, fun _ => ?_, fun _ => ?_⟩ <;> omega

theorem hubCounter_miss : hubCounter Reg.MT_PF_MISS_COUNT := by
  intro h
  simp only [staleCounter, Fld.off, Reg.MT_PF_MISS_COUNT, Reg.MT_PF_STALE_COUNT, Reg.MT_STATUS_MISS, not_exists]
  refine ⟨?_, ?_, fun _ => ?_, fun _ => ?_⟩ <;> omega

theorem State.Moved.pfHub (h : s.Moved t) (c : Nat) (p : Prefetch) : t.pfHub c p = s.pfHub c p :=
  congrArg (fun pa : Option Nat => hubOf (pa.getD 0)) (h.maps.translate c p.src)

/-- The memory of a state alone says which bytes a range write left. -/
theorem State.memGets_of_mem {c n : Nat} {g : Nat → Nat} {f : Nat → Byte} (h : s.memGets t c n g f)
    (hm : u.mem = t.mem) : s.memGets u c n g f := by
  unfold State.memGets State.pbyte at *
  rw [hm]
  exact h

/-- The prefetches of a state alone say which one stands in a slot. -/
theorem State.prefetch_congr (h : t.prefetches = s.prefetches) (b : Site) (k : Nat) :
    t.prefetch b k = s.prefetch b k := by
  unfold State.prefetch
  rw [h]

/-- A counter goes up by one from the value that its word still holds. -/
theorem State.get_bump_of_word {f : Fld} {i : Nat} (h : t.word (f.off i 0) = s.word (f.off i 0))
    (hwf : Tab.wf 0 t.regs = true) (hf : f.lo + f.w ≤ 64) : (t.bump f i).get f i = (s.get f i + 1) % 2 ^ f.w := by
  rw [State.get_bump _ _ _ _ _ hwf hf]
  unfold State.get
  rw [h]

/-- What an end of a prefetch does first (R412): the bytes up to `hi` are moved, and the slot holds `q`. -/
def State.pfEnd (s : State) (c : Nat) (p : Prefetch) (hi : Nat) (q : Prefetch) : State :=
  (s.pfDeliver c p hi).1.setPrefetch q

theorem Keeps.pfEnd {s₀ : State} (h : Keeps s₀ s) {c : Nat} {p : Prefetch} {hi : Nat} {q : Prefetch} :
    Keeps s₀ (s.pfEnd c p hi q) := h.pfDeliver.setPrefetch

/-- What holds once a slot's prefetch has ended: its slot holds `q`, the others stand where they stood, and of the
device the strands, cores, objects, the step and every register but the counters of STALE granules are as before. -/
structure State.PfEnded (s t : State) (a : Site) (k : Nat) (q : Prefetch) : Prop where
  own : ∃ stale, t.prefetch a k = some { q with stale := stale }
  others : ∀ b j, (b, j) ≠ (a, k) → (t.prefetch b j).map (·.st) = (s.prefetch b j).map (·.st)
  strands : t.strands = s.strands
  cores : t.cores = s.cores
  so : t.so = s.so
  words : ∀ off, ¬ staleCounter off → t.word off = s.word off

theorem State.pfEnded_pfEnd {a : Site} {k : Nat} {p q : Prefetch} (hcanon : s.canon = true)
    (hslot : s.prefetch a k = some p) (c hi : Nat) (hsite : q.site = p.site) (hkey : q.slot = p.slot) :
    s.PfEnded (s.pfEnd c p hi q) a k q := by
  have hm := State.moved_pfDeliver hcanon c p hi
  obtain ⟨hps, hpk⟩ := State.prefetch_key hslot
  obtain ⟨hown, hothers⟩ := State.slots_setPrefetch hslot hm (hsite.trans hps) (hkey.trans hpk)
  unfold State.pfEnd
  refine ⟨hown, hothers, ?_, ?_, ?_, hm.words⟩ <;>
  · obtain ⟨mem, regs, sec, prefetches, he⟩ := hm.frame
    rw [he]
    rfl

/-- An active prefetch that has fetched its bytes in its turn is done. -/
theorem exec_prefetchComplete {a : Site} {slot : BitVec 6} {c : Nat} {p : Prefetch} (hrun : s.running = some c)
    (hslot : s.prefetch a slot.toNat = some p) (hst : p.st = .active) (hstop : p.stopped = false)
    (hreach : s.pfReach c p p.delivered p.len = p.len) (hle : p.delivered ≤ p.len) (hserved : s.pfServed c p = true) :
    exec (.prefetchComplete a slot 0) s = .next (
      let t := s.pfEnd c p p.len { p with delivered := p.len, st := .done }
      (t.signal p.so).bump Reg.MT_PF_DONE_COUNT (t.pfHub c p)) := by
  show execPrefetchComplete a slot 0 s = _
  unfold execPrefetchComplete
  rw [hslot, hrun]
  refine congrArg Host.Outcome.next ((if_neg (by simp [hst, hstop, hreach, hserved])).trans ?_)
  have hsnd := State.pfDeliver_snd (s := s) c hle
  extract_lets r hi q src t
  have hq : q = r := State.pfDeliver_done c (by
    show hi ≤ (s.pfDeliver c p p.len).2.delivered
    rw [hsnd]
    show hi ≤ p.len
    unfold hi
    split
    · exact Nat.le_refl _
    · exact (State.pfReach_le _ _ _ _).trans (Nat.min_le_right _ _))
  have ht : t = s.pfEnd c p p.len { p with delivered := p.len, st := .done } := by
    unfold t src State.pfEnd
    rw [hq, show r.2 = _ from hsnd]
    rfl
  rw [hst, ht]
  rfl

/-- What a completed prefetch leaves. -/
theorem prefetch_completes {a : Site} {slot : BitVec 6} {c : Nat} {p : Prefetch} (hcanon : s.canon = true)
    (hrun : s.running = some c) (hslot : s.prefetch a slot.toNat = some p) (hst : p.st = .active)
    (hstop : p.stopped = false) (hreach : s.pfReach c p p.delivered p.len = p.len) (hle : p.delivered ≤ p.len)
    (hserved : s.pfServed c p = true) : ∃ (t : State) (q : Prefetch), exec (.prefetchComplete a slot 0) s = .next t ∧
      t.prefetch a slot.toNat = some q ∧ q.st = .done ∧ q.delivered = p.len ∧
      s.memGets t c (p.len - p.delivered) (fun k => p.dst + p.delivered + k)
        (fun k => s.vbyte c (p.src + p.delivered + k)) ∧
      (∀ i, p.so = some i → s.signals t i) ∧ (p.so = none → t.so = s.so) ∧ t.strands = s.strands ∧ t.cores = s.cores ∧
      (∀ b k, (b, k) ≠ (a, slot.toNat) → (t.prefetch b k).map (·.st) = (s.prefetch b k).map (·.st)) ∧
      t.get Reg.MT_PF_DONE_COUNT (s.pfHub c p) = (s.get Reg.MT_PF_DONE_COUNT (s.pfHub c p) + 1) % 2 ^ 64 := by
  have hexec := exec_prefetchComplete hrun hslot hst hstop hreach hle hserved
  have hhub : (s.pfEnd c p p.len { p with delivered := p.len, st := .done }).pfHub c p = s.pfHub c p :=
    (State.moved_pfDeliver hcanon c p p.len).pfHub c p
  have hmem : s.memGets (s.pfEnd c p p.len { p with delivered := p.len, st := .done }) c _ _ _ :=
    State.pfDeliver_gets hcanon c p p.len
  have hset := State.pfEnded_pfEnd (q := { p with delivered := p.len, st := .done }) hcanon hslot c p.len rfl rfl
  have hk : Keeps s (s.pfEnd c p p.len { p with delivered := p.len, st := .done }) := (Keeps.refl s).pfEnd
  dsimp only at hexec
  rw [hhub] at hexec
  generalize s.pfEnd c p p.len { p with delivered := p.len, st := .done } = v at *
  obtain ⟨⟨stale, hown⟩, hothers, hstrands, hcores, hso, hwords⟩ := hset
  have hv := (State.canonical_iff v).2 (hk.canon hcanon)
  obtain ⟨hsig, hnone⟩ := (State.signalled_signal hv.so p.so).of_so (u := s)
    (v := (v.signal p.so).bump Reg.MT_PF_DONE_COUNT (s.pfHub c p)) hso.symm rfl
  have hslots : ((v.signal p.so).bump Reg.MT_PF_DONE_COUNT (s.pfHub c p)).prefetches = v.prefetches :=
    v.signal_prefetches p.so
  obtain ⟨h18, h20, hstale, _⟩ := hubCounter_done (s.pfHub c p)
  refine ⟨_, { p with delivered := p.len, st := .done, stale := stale }, hexec, ?_, rfl, rfl,
    State.memGets_of_mem hmem (v.signal_mem p.so), hsig, hnone, (v.signal_strands p.so).trans hstrands,
    (v.signal_cores p.so).trans hcores, fun b k hne => ?_, State.get_bump_of_word
      ((State.word_signal hv.regs p.so h18 h20).trans (hwords _ hstale))
      ((State.canonical_iff _).2 (hk.signal.canon hcanon)).regs (by decide)⟩
  · rw [State.prefetch_congr hslots]
    exact hown
  · rw [State.prefetch_congr hslots]
    exact hothers b k hne

/-- The first drop or miss of a core in a beat is reported (R417, R433): noted at the core, raised, and marked at the
hub. -/
def State.pfReport (s : State) (core : Nat) (sent : CoreSt → Bool) (note : CoreSt → CoreSt) (code detail : Nat) (f : Fld)
    (hub : Nat) : State :=
  if sent (s.core core) then s else ((s.setCore core (note (s.core core))).event code detail core).put f 1 hub

/-- A report touches cores, registers and the ring. -/
theorem State.pfReport_eq (s : State) (core : Nat) (sent : CoreSt → Bool) (note : CoreSt → CoreSt) (code detail : Nat)
    (f : Fld) (hub : Nat) : ∃ cores regs svc,
      s.pfReport core sent note code detail f hub = { s with cores := cores, regs := regs, svc := svc } := by
  unfold State.pfReport
  split
  · exact ⟨s.cores, s.regs, s.svc, rfl⟩
  · exact ⟨_, _, _, rfl⟩

theorem State.word_pfReport (hwf : Tab.wf 0 s.regs = true) {core : Nat} {sent : CoreSt → Bool}
    {note : CoreSt → CoreSt} {code detail : Nat} {f : Fld} {hub off : Nat} (hcount : off ≠ 0x000018)
    (hlost : off ≠ 0x000020) (hf : off ≠ f.off hub 0) :
    (s.pfReport core sent note code detail f hub).word off = s.word off := by
  unfold State.pfReport
  split
  · rfl
  · exact ((State.word_put_ne _ _ _ _ _ _ (State.wf_put _ _ _ _ _ (State.wf_put _ _ _ _ _ hwf)) hf).trans
      (State.word_event_ne (s := s.setCore core (note (s.core core))) hwf hcount hlost))

/-- The prefetch of a slot once its transfer has stopped (R414, R417): past its deadline it behaves as DIRECT. -/
def Prefetch.dropped (p : Prefetch) (d : Nat) : Prefetch :=
  { p with delivered := d, stopped := true, st := if p.st = .waiting then .direct else p.st }

/-- An active or waiting prefetch that meets a frame it may not use stops there. -/
theorem exec_prefetchDrop {a : Site} {slot : BitVec 6} {c : Nat} {p : Prefetch} (hrun : s.running = some c)
    (hslot : s.prefetch a slot.toNat = some p) (hst : p.st = .active ∨ p.st = .waiting) (hstop : p.stopped = false)
    (hlt : s.pfReach c p p.delivered p.len < p.len) : ∃ hi d u detail hub,
      u = (if p.st = .waiting then (s.pfEnd c p hi (p.dropped d)).signal p.so else s.pfEnd c p hi (p.dropped d)).bump
        Reg.MT_PF_DROP_COUNT (s.pfHub c p) ∧
      exec (.prefetchDrop a slot) s = .next (u.pfReport a.core.val CoreSt.dropSent
        (fun k => { k with dropSent := true }) 0x0704 detail Reg.MT_STATUS_DROP hub) := by
  have hne : p.st ≠ .done ∧ p.st ≠ .recompute := by
    rcases hst with h | h <;> simp [h]
  have hexec : exec (.prefetchDrop a slot) s = execPrefetchDrop a slot s := rfl
  unfold execPrefetchDrop at hexec
  rw [hslot, hrun] at hexec
  dsimp only [Option.getD_some] at hexec
  rw [if_neg hne.1, if_neg (by simp [hne.1, hne.2, hstop, hlt])] at hexec
  obtain ⟨d, hd⟩ := s.pfDeliver_snd_eq c p (s.pfReach c p p.delivered p.len)
  rw [hd] at hexec
  refine ⟨s.pfReach c p p.delivered p.len, d, _, _, _, rfl, hexec⟩

theorem State.get_of_word {f : Fld} {i : Nat} (h : t.word (f.off i 0) = s.word (f.off i 0)) : t.get f i = s.get f i :=
  congrArg (fun w : W64 => f.ext w.toNat) h

/-- A prefetch whose object is incremented under a condition: nothing else but the event registers changes. -/
structure State.SignalsIf (s t : State) (b : Prop) (p : Prefetch) : Prop where
  strands : t.strands = s.strands
  prefetches : t.prefetches = s.prefetches
  step : t.step = s.step
  words : ∀ off, off ≠ 0x000018 → off ≠ 0x000020 → t.word off = s.word off
  signals : b → s.Signalled t p.so
  still : ¬ b → t.so = s.so

theorem State.signalsIf (hcanon : s.canon = true) (b : Prop) [Decidable b] (p : Prefetch) :
    s.SignalsIf (if b then s.signal p.so else s) b p := by
  have hs := s.canonical_iff.2 hcanon
  split
  next h =>
    exact ⟨s.signal_strands p.so, s.signal_prefetches p.so, s.signal_step p.so, fun _ => State.word_signal hs.regs p.so,
      fun _ => State.signalled_signal hs.so p.so, fun hn => absurd h hn⟩
  next h => exact ⟨rfl, rfl, rfl, fun _ _ _ => rfl, fun hb => absurd hb h, fun _ => rfl⟩

theorem State.prefetch_pfReport (core : Nat) (sent : CoreSt → Bool) (note : CoreSt → CoreSt) (code detail : Nat) (f : Fld)
    (hub : Nat) (b : Site) (k : Nat) :
    (s.pfReport core sent note code detail f hub).prefetch b k = s.prefetch b k := by
  obtain ⟨cores, regs, svc, he⟩ := s.pfReport_eq core sent note code detail f hub
  rw [he]
  rfl

/-- What a stopped prefetch leaves. -/
theorem prefetch_drops {a : Site} {slot : BitVec 6} {c : Nat} {p : Prefetch} (hcanon : s.canon = true)
    (hrun : s.running = some c) (hslot : s.prefetch a slot.toNat = some p) (hst : p.st = .active ∨ p.st = .waiting)
    (hstop : p.stopped = false) (hlt : s.pfReach c p p.delivered p.len < p.len) :
    ∃ (t : State) (q : Prefetch), exec (.prefetchDrop a slot) s = .next t ∧ t.prefetch a slot.toNat = some q ∧
      q.stopped = true ∧ t.strands = s.strands ∧
      (p.st = .active → q.st = .active ∧ t.so = s.so) ∧
      (p.st = .waiting → q.st = .direct ∧ (∀ i, p.so = some i → s.signals t i) ∧ (p.so = none → t.so = s.so)) ∧
      (∀ b k, (b, k) ≠ (a, slot.toNat) → (t.prefetch b k).map (·.st) = (s.prefetch b k).map (·.st)) ∧
      t.get Reg.MT_PF_DROP_COUNT (s.pfHub c p) = (s.get Reg.MT_PF_DROP_COUNT (s.pfHub c p) + 1) % 2 ^ 64 := by
  obtain ⟨hi, d, u, detail, hub, hu, hexec⟩ := exec_prefetchDrop hrun hslot hst hstop hlt
  have hset := State.pfEnded_pfEnd (q := p.dropped d) hcanon hslot c hi rfl rfl
  have hk : Keeps s (s.pfEnd c p hi (p.dropped d)) := (Keeps.refl s).pfEnd
  obtain ⟨h18, h20, hstale, hstatus⟩ := hubCounter_drop (s.pfHub c p)
  generalize s.pfEnd c p hi (p.dropped d) = v at *
  obtain ⟨⟨stale, hown⟩, hothers, hstrands, _, hso, hwords⟩ := hset
  have hw := State.signalsIf (hk.canon hcanon) (p.st = .waiting) p
  have hkw : Keeps s (if p.st = .waiting then v.signal p.so else v) := .ite hk.signal hk
  generalize (if p.st = .waiting then v.signal p.so else v) = w at *
  have hcount : u.get Reg.MT_PF_DROP_COUNT (s.pfHub c p) = (s.get Reg.MT_PF_DROP_COUNT (s.pfHub c p) + 1) % 2 ^ 64 := by
    rw [hu]
    exact State.get_bump_of_word ((hw.words _ h18 h20).trans (hwords _ hstale)) (hkw.tables hcanon).regs (by decide)
  have hwu : Tab.wf 0 u.regs = true := by
    rw [hu]
    exact (hkw.bump.tables hcanon).regs
  have hkept := State.prefetch_pfReport (s := u) a.core.val CoreSt.dropSent (fun k => { k with dropSent := true }) 0x0704
    detail Reg.MT_STATUS_DROP hub
  have hword := State.word_pfReport hwu (core := a.core.val) (sent := CoreSt.dropSent)
    (note := fun k => { k with dropSent := true }) (code := 0x0704) (detail := detail) (f := Reg.MT_STATUS_DROP)
    (hub := hub) h18 h20 (hstatus hub)
  have hpf (b : Site) (k : Nat) : u.prefetch b k = v.prefetch b k :=
    State.prefetch_congr (by rw [hu]; exact hw.prefetches) b k
  obtain ⟨cores, regs, svc, ht⟩ := u.pfReport_eq a.core.val CoreSt.dropSent (fun k => { k with dropSent := true }) 0x0704
    detail Reg.MT_STATUS_DROP hub
  generalize State.pfReport u _ _ _ _ _ _ _ = t at *
  have hst : t.strands = w.strands := by rw [ht, hu]; rfl
  have hto : t.so = w.so := by rw [ht, hu]; rfl
  refine ⟨t, _, hexec, (hkept _ _).trans ((hpf _ _).trans hown), rfl, hst.trans (hw.strands.trans hstrands),
    fun h => ⟨?_, hto.trans ((hw.still (by rw [h]; decide)).trans hso)⟩, fun h => ?_, fun b k hne => ?_,
    (State.get_of_word hword).trans hcount⟩
  · show (if p.st = .waiting then PfSt.direct else p.st) = .active
    rw [h]
    rfl
  · obtain ⟨hsig, hnone⟩ := (hw.signals h).of_so (u := s) (v := t) hso.symm hto
    refine ⟨?_, hsig, hnone⟩
    exact if_pos h
  · rw [hkept, hpf]
    exact hothers b k hne

/-- Where an active prefetch stands after its deadline (R414, R417). -/
def Prefetch.fallen (p : Prefetch) : PfSt :=
  if p.fallback = 0 then .recompute else if p.fallback = 1 ∨ p.stopped = true then .direct else .waiting

/-- The prefetch of a slot that has taken its fallback. -/
def Prefetch.missedAt (p : Prefetch) (d : Nat) : Prefetch :=
  { p with delivered := d, st := p.fallen, missed := true }

/-- The deadline of an active prefetch (R414). -/
theorem State.takeFallback_eq (s : State) {c : Nat} (hrun : s.running = some c) (p : Prefetch) (delivered : Nat) :
    ∃ hi d u, u = ((s.pfEnd c p hi (p.missedAt d)).contribute 6).bump Reg.MT_PF_MISS_COUNT (s.pfHub c p) ∧
      s.takeFallback p delivered = (if p.fallen ≠ .waiting then u.signal p.so else u).pfReport p.site.core.val
        CoreSt.missSent (fun k => { k with missSent := true }) 0x0703
        (p.site.strand.val + p.slot * 4 + p.fallback * 2 ^ 8) Reg.MT_STATUS_MISS (s.pfHub c p) := by
  obtain ⟨d, hd⟩ := s.pfDeliver_snd_eq c p
    (if p.stopped then p.delivered else s.pfReach c p p.delivered (min delivered p.len))
  refine ⟨if p.stopped then p.delivered else s.pfReach c p p.delivered (min delivered p.len), d, _, rfl, ?_⟩
  rw [ite_not]
  unfold State.takeFallback
  rw [hrun]
  dsimp only [Option.getD_some]
  rw [hd]
  rfl

/-- In the guard before its deadline's beat, which is no step entry, an active prefetch takes its fallback. -/
theorem exec_prefetchDeadline {a : Site} {slot : BitVec 6} {p : Prefetch} (hslot : s.prefetch a slot.toNat = some p)
    (hst : p.st = .active) (hguard : s.bt.inGuard = true) (hentry : s.entryNext = false)
    (hdl : p.deadline ≤ s.beat + 1) (delivered : Nat) :
    exec (.prefetchDeadline a slot delivered) s = .next (s.takeFallback p delivered) := by
  show execPrefetchDeadline a slot delivered s = _
  unfold execPrefetchDeadline
  rw [hslot]
  exact congrArg Host.Outcome.next (if_pos (by simp [Prefetch.active, hst, hguard, hentry, hdl]))

/-- What a missed prefetch leaves. -/
theorem prefetch_misses {a : Site} {slot : BitVec 6} {c : Nat} {p : Prefetch} (hcanon : s.canon = true)
    (hrun : s.running = some c) (hslot : s.prefetch a slot.toNat = some p) (delivered : Nat) (hst : p.st = .active)
    (hguard : s.bt.inGuard = true) (hentry : s.entryNext = false) (hdl : p.deadline ≤ s.beat + 1) :
    ∃ (t : State) (q : Prefetch), exec (.prefetchDeadline a slot delivered) s = .next t ∧
      t.prefetch a slot.toNat = some q ∧ q.missed = true ∧
      q.st = (if p.fallback = 0 then .recompute else if p.fallback = 1 ∨ p.stopped = true then .direct else .waiting) ∧
      (∀ i, p.so = some i → q.st ≠ .waiting → s.signals t i) ∧ (p.so = none ∨ q.st = .waiting → t.so = s.so) ∧
      t.step.contrib.getLsbD 6 = true ∧ t.strands = s.strands ∧
      (∀ b k, (b, k) ≠ (a, slot.toNat) → (t.prefetch b k).map (·.st) = (s.prefetch b k).map (·.st)) ∧
      t.get Reg.MT_PF_MISS_COUNT (s.pfHub c p) = (s.get Reg.MT_PF_MISS_COUNT (s.pfHub c p) + 1) % 2 ^ 64 := by
  have hexec := exec_prefetchDeadline hslot hst hguard hentry hdl delivered
  obtain ⟨hi, d, u, hu, he⟩ := s.takeFallback_eq hrun p delivered
  rw [he] at hexec
  have hset := State.pfEnded_pfEnd (q := p.missedAt d) hcanon hslot c hi rfl rfl
  have hk : Keeps s (s.pfEnd c p hi (p.missedAt d)) := (Keeps.refl s).pfEnd
  obtain ⟨h18, h20, hstale, hstatus⟩ := hubCounter_miss (s.pfHub c p)
  generalize s.pfEnd c p hi (p.missedAt d) = v at *
  obtain ⟨⟨stale, hown⟩, hothers, hstrands, _, hso, hwords⟩ := hset
  have hku : Keeps s u := by
    rw [hu]
    exact hk.contribute.bump
  have hcount : u.get Reg.MT_PF_MISS_COUNT (s.pfHub c p) = (s.get Reg.MT_PF_MISS_COUNT (s.pfHub c p) + 1) % 2 ^ 64 := by
    rw [hu]
    exact State.get_bump_of_word (hwords _ hstale) (hk.contribute.tables hcanon).regs (by decide)
  have hw := State.signalsIf (hku.canon hcanon) (p.fallen ≠ .waiting) p
  have hkw : Keeps s (if p.fallen ≠ .waiting then u.signal p.so else u) := .ite hku.signal hku
  generalize (if p.fallen ≠ .waiting then u.signal p.so else u) = w at *
  have hkept := State.prefetch_pfReport (s := w) p.site.core.val CoreSt.missSent (fun k => { k with missSent := true })
    0x0703 (p.site.strand.val + p.slot * 4 + p.fallback * 2 ^ 8) Reg.MT_STATUS_MISS (s.pfHub c p)
  have hword := State.word_pfReport (hkw.tables hcanon).regs (core := p.site.core.val) (sent := CoreSt.missSent)
    (note := fun k => { k with missSent := true }) (code := 0x0703)
    (detail := p.site.strand.val + p.slot * 4 + p.fallback * 2 ^ 8) (f := Reg.MT_STATUS_MISS)
    (hub := s.pfHub c p) h18 h20 (hstatus _)
  have hpf (b : Site) (k : Nat) : w.prefetch b k = v.prefetch b k :=
    State.prefetch_congr (hw.prefetches.trans (by rw [hu]; rfl)) b k
  obtain ⟨cores, regs, svc, ht⟩ := w.pfReport_eq p.site.core.val CoreSt.missSent (fun k => { k with missSent := true })
    0x0703 (p.site.strand.val + p.slot * 4 + p.fallback * 2 ^ 8) Reg.MT_STATUS_MISS (s.pfHub c p)
  generalize State.pfReport w _ _ _ _ _ _ _ = t at *
  have huso : u.so = s.so := by
    rw [hu]
    exact hso
  have hto : t.so = w.so := by rw [ht]
  have hstep : t.step = (v.contribute 6).step := by
    rw [ht]
    exact hw.step.trans (by rw [hu]; rfl)
  have hstr : t.strands = u.strands := by
    rw [ht]
    exact hw.strands
  refine ⟨t, _, hexec, (hkept _ _).trans ((hpf _ _).trans hown), rfl, rfl, fun i hi hne => ?_, fun h => ?_, ?_,
    hstr.trans (by rw [hu]; exact hstrands), fun b k hne => ?_,
    (State.get_of_word hword).trans ((State.get_of_word (hw.words _ h18 h20)).trans hcount)⟩
  · exact ((hw.signals hne).of_so (u := s) (v := t) huso.symm hto).signals i hi
  · rw [hto]
    by_cases hwait : p.fallen = .waiting
    · exact (hw.still (not_not.2 hwait)).trans huso
    · exact ((hw.signals hwait).none (h.resolve_right hwait)).trans huso
  · rw [hstep]
    show (v.step.contrib ||| BitVec.ofNat 16 (2 ^ 6)).getLsbD 6 = true
    rw [BitVec.getLsbD_or, show (BitVec.ofNat 16 (2 ^ 6)).getLsbD 6 = true from by decide, Bool.or_true]
  · rw [hkept, hpf]
    exact hothers b k hne

/-! ### Starting a prefetch (R131, R409 to R413) -/

/-- A new prefetch takes its slot. -/
theorem State.prefetch_newPrefetch (p : Prefetch) : (s.newPrefetch p).prefetch p.site p.slot = some p := by
  unfold State.prefetch State.newPrefetch
  rw [List.find?_append, List.find?_eq_none.2 fun q hq => by
    rw [Bool.eq_false_of_not_eq_true' (List.mem_filter.1 hq).2]; exact Bool.false_ne_true]
  simp

/-- Every other slot keeps what it holds. -/
theorem State.prefetch_newPrefetch_ne (p : Prefetch) {b : Site} {k : Nat} (h : (b, k) ≠ (p.site, p.slot)) :
    (s.newPrefetch p).prefetch b k = s.prefetch b k := by
  have hnew : (b == p.site && k == p.slot) = false := by
    by_contra hc
    simp at hc
    exact h (by rw [hc.1, hc.2])
  have hother : (p.site == b && p.slot == k) = false := by rw [BEq.comm, BEq.comm (a := p.slot), hnew]
  unfold State.prefetch State.newPrefetch
  rw [List.find?_append, List.find?_filter, List.find?_singleton, hother]
  refine (Option.or_none ..).trans (congrArg (fun f => List.find? f s.prefetches) (funext fun q => ?_))
  cases hq : (q.site == b && q.slot == k) with
  | false => simp
  | true =>
    rw [Bool.and_eq_true, beq_iff_eq, beq_iff_eq] at hq
    rw [hq.1, hq.2, hnew]
    rfl

/-- The prefetch that PFH starts (R409 to R416). -/
def PfDesc.start (d : PfDesc) (a : Site) (slot deadline fallback : Nat) (so : Option Nat) (prev : Option Prefetch) :
    Prefetch :=
  { site := a, slot := slot, src := d.src, dst := d.dst, len := d.len, xlo := d.xlo, xhi := d.xhi, ra := d.ra
    watch := d.watch, faultStale := d.faultStale, deadline := deadline, fallback := fallback, so := so
    delivered := carriedOver prev d, st := .active, missed := false, stopped := false, stale := [] }

/-- PFH with a good descriptor, room for its watch and no active prefetch in its slot. -/
theorem exec_pfh {a : Site} {p : Pred} {mop : Mop} {dl : BitVec 16} {part : BitVec 3} {so : BitVec 13} {soen : Bool}
    {slot : BitVec 6} {fallback : BitVec 2} {c va : Nat} {d : PfDesc} (hrun : s.running = some c)
    (h : s.executes a p (.pfh a p mop dl part so soen slot fallback))
    (hfree : ∀ q, s.prefetch a slot.toNat = some q → q.st ≠ .active) (hva : va = Mop.addr (s.strand a) mop)
    (hd : d = pfDesc (s.vread c va 64)) (hgood : Mop.bad (s.strand a) mop = false)
    (hread : s.accessOk c va 64 false = true) (hok : d.ok = true) (hfits : s.watchFits c a slot.toNat d = true) :
    exec (.pfh a p mop dl part so soen slot fallback) s = .next (((s.issueFrom a).touch c va 64).newPrefetch
      (d.start a slot.toNat (s.beat + dl.toNat) fallback.toNat (if soen then some so.toNat else none)
        (s.prefetch a slot.toNat))|>.advance a) := by
  refine (loaded_issue h).trans (congrArg Host.Outcome.next ?_)
  dsimp only
  obtain ⟨cs, he⟩ := s.issueFrom_eq a
  have hprev : (s.issueFrom a).prefetch a slot.toNat = s.prefetch a slot.toNat := by rw [he]; rfl
  have hc : (s.issueFrom a).running = some c := by rw [he]; exact hrun
  have hbytes : (s.issueFrom a).vread c va 64 = s.vread c va 64 := by rw [he]; rfl
  have haccess : (s.issueFrom a).accessOk c va 64 false = true := by rw [he]; exact hread
  have hroom : (s.issueFrom a).watchFits c a slot.toNat d = true := by rw [he]; exact hfits
  have hbeat : (s.issueFrom a).beat = s.beat := by rw [he]; rfl
  have hidle : ¬ (s.prefetch a slot.toNat).any Prefetch.active = true := by
    cases hq : s.prefetch a slot.toNat with
    | none => decide
    | some q => simp [Prefetch.active, hfree q hq]
  rw [State.issueFrom_strand, ← hva, hprev, hc, Option.getD_some, hbytes, ← hd, if_neg hidle,
    State.guarded_none _ _ _ _ (firstCause_none (by simp [hgood, haccess, hok])), hroom, hbeat]
  rfl

/-- What a started prefetch leaves. -/
theorem prefetch_starts {a : Site} {p : Pred} {mop : Mop} {dl : BitVec 16} {part : BitVec 3} {so : BitVec 13}
    {soen : Bool} {slot : BitVec 6} {fallback : BitVec 2} {c va : Nat} {d : PfDesc} (hcanon : s.canon = true)
    (hrun : s.running = some c) (h : s.executes a p (.pfh a p mop dl part so soen slot fallback))
    (hfree : ∀ q, s.prefetch a slot.toNat = some q → q.st ≠ .active) (hva : va = Mop.addr (s.strand a) mop)
    (hd : d = pfDesc (s.vread c va 64)) (hgood : Mop.bad (s.strand a) mop = false)
    (hread : s.accessOk c va 64 false = true) (hok : d.ok = true) (hfits : s.watchFits c a slot.toNat d = true) :
    ∃ (t : State) (q : Prefetch), exec (.pfh a p mop dl part so soen slot fallback) s = .next t ∧
      t.strand a = s.after a ∧ t.mem = s.mem ∧
      s.othersSame t a ∧ t.prefetch a slot.toNat = some q ∧ q.src = d.src ∧ q.dst = d.dst ∧ q.len = d.len ∧
      q.deadline = s.beat + dl.toNat ∧ q.st = .active ∧ q.missed = false ∧ q.fallback = fallback.toNat ∧
      q.so = (if soen then some so.toNat else none) ∧
      q.watch = d.watch ∧ (∀ b k, (b, k) ≠ (a, slot.toNat) → t.prefetch b k = s.prefetch b k) ∧
      ({ t with strands := s.strands, cores := s.cores, sec := s.sec, prefetches := s.prefetches } : State) = s := by
  have hexec := exec_pfh hrun h hfree hva hd hgood hread hok hfits
  have ht := State.strandOnly_advance hcanon a
  obtain ⟨hstrands, hcores⟩ := ht.others
  obtain ⟨cs, he⟩ := s.issueFrom_eq a
  have hpf : ((s.issueFrom a).touch c va 64).prefetches = s.prefetches := by rw [he]; rfl
  have hsec : ∃ sec, (s.issueFrom a).touch c va 64 = { s.issueFrom a with sec := sec } := ⟨_, rfl⟩
  obtain ⟨sec, hs⟩ := hsec
  generalize hq : d.start a slot.toNat (s.beat + dl.toNat) fallback.toNat (if soen then some so.toNat else none)
    (s.prefetch a slot.toNat) = q at hexec
  have hsite : q.site = a := by rw [← hq]; rfl
  have hkey : q.slot = slot.toNat := by rw [← hq]; rfl
  have hown := State.prefetch_newPrefetch (s := (s.issueFrom a).touch c va 64) q
  have hothers (b : Site) (k : Nat) (hne : (b, k) ≠ (a, slot.toNat)) :
      (((s.issueFrom a).touch c va 64).newPrefetch q).prefetch b k = s.prefetch b k :=
    (State.prefetch_newPrefetch_ne q (by rw [hsite, hkey]; exact hne)).trans (State.prefetch_congr hpf b k)
  rw [hsite, hkey] at hown
  have hform : ∃ prefetches, ((s.issueFrom a).touch c va 64).newPrefetch q =
      { s.issueFrom a with sec := sec, prefetches := prefetches } := ⟨_, by rw [hs]; rfl⟩
  obtain ⟨prefetches, hform⟩ := hform
  rw [hform] at hexec hown hothers
  have hmem : (s.issueFrom a).mem = s.mem := by rw [he]
  refine ⟨_, q, hexec, ht.strand, hmem, ⟨hstrands, hcores⟩, hown, ?_⟩
  rw [← hq]
  refine ⟨rfl, rfl, rfl, rfl, rfl, rfl, rfl, rfl, rfl, hothers, ?_⟩
  rw [he]
  rfl

/-- Settles O19: the start, and of the three ends what the transfer leaves and what each adds to it. -/
theorem prefetching : Obligations.Prefetching := by
  unfold Obligations.Prefetching
  refine ⟨fun s a p mop dl part so soen slot fallback c hcanon hrun h hfree va d hva hd hgood hread hok hfits =>
    prefetch_starts hcanon hrun h hfree hva hd hgood hread hok hfits,
    fun s a slot c p hcanon hrun hslot => ⟨fun hst hstop hreach hle hserved =>
      prefetch_completes hcanon hrun hslot hst hstop hreach hle hserved, fun hst hstop x hx hlt =>
      prefetch_drops hcanon hrun hslot hst hstop (hx ▸ hlt), fun delivered hst hguard hentry hdl =>
      prefetch_misses hcanon hrun hslot delivered hst hguard hentry hdl⟩⟩

end Sys2Proof.Machine
end

section
/-!
PROOFS. What the collective engine leaves alone (03_programming_model.md, 10 collectives): one lemma per operation on the
state, one on the work on a collective, and what an issued step leaves listed (R441 to R453).
-/

namespace Sys2Proof.Machine

variable {s₀ s t : State} {o₀ o : CollOp}

/-! ### What the collective engine leaves alone -/

/-- The strands, the plans' next steps, the collectives and the gathers that wait are as they were. -/
structure CollKept (s₀ s : State) : Prop where
  strands : s.strands = s₀.strands
  collNext : s.collNext = s₀.collNext
  colls : s.colls = s₀.colls
  gathers : s.gathers = s₀.gathers

theorem CollKept.refl (s : State) : CollKept s s := ⟨rfl, rfl, rfl, rfl⟩

/-- An update of anything else. -/
theorem CollKept.frame (h : CollKept s₀ s) (hs : t.strands = s.strands := by rfl)
    (hn : t.collNext = s.collNext := by rfl) (hc : t.colls = s.colls := by rfl)
    (hg : t.gathers = s.gathers := by rfl) : CollKept s₀ t :=
  ⟨hs.trans h.strands, hn.trans h.collNext, hc.trans h.colls, hg.trans h.gathers⟩

theorem CollKept.ite {c : Prop} [Decidable c] (hs : CollKept s₀ s) (ht : CollKept s₀ t) :
    CollKept s₀ (if c then s else t) := by
  split
  · exact hs
  · exact ht

theorem CollKept.foldl {α : Type} {l : List α} {f : State → α → State} (h : CollKept s₀ s)
    (hf : ∀ t a, CollKept s₀ t → CollKept s₀ (f t a)) : CollKept s₀ (l.foldl f s) := by
  induction l generalizing s with
  | nil => exact h
  | cons a l ih => exact ih (hf s a h)

theorem CollKept.foldlFst {α β : Type} {l : List α} {f : State × β → α → State × β} {p : State × β}
    (h : CollKept s₀ p.1) (hf : ∀ q a, CollKept s₀ q.1 → CollKept s₀ (f q a).1) : CollKept s₀ (l.foldl f p).1 := by
  induction l generalizing p with
  | nil => exact h
  | cons a l ih => exact ih (hf p a h)

/-! #### Memory, flags, objects and tile stores -/

theorem CollKept.vwrite (h : CollKept s₀ s) {c va : Nat} {bs : List Byte} : CollKept s₀ (s.vwrite c va bs) := by
  obtain ⟨mem, he⟩ := s.vwrite_eq c va bs
  rw [he]
  exact h.frame
theorem CollKept.markStale (h : CollKept s₀ s) {c va n : Nat} : CollKept s₀ (s.markStale c va n) :=
  .ite h (.foldl h.frame fun _ _ h1 => h1.frame)
theorem CollKept.store (h : CollKept s₀ s) {c va : Nat} {bs : List Byte} : CollKept s₀ (s.store c va bs) :=
  .markStale h.vwrite.frame
theorem CollKept.soAdd (h : CollKept s₀ s) {i n : Nat} : CollKept s₀ (s.soAdd i n) := .ite h.frame h.frame
theorem CollKept.nonfin (h : CollKept s₀ s) {core strand src idx : Nat} :
    CollKept s₀ (s.nonfin core strand src idx) := .ite h.frame h.frame
theorem CollKept.twrite (h : CollKept s₀ s) {core at_ : Nat} {bs : List Byte} : CollKept s₀ (s.twrite core at_ bs) :=
  h.frame

/-! #### Sending (R441 to R447, R459) -/

theorem CollKept.emitOn (h : CollKept s₀ s) {port : Nat} {f : Frame} : CollKept s₀ (s.emitOn port f) :=
  .ite h.frame h.frame
theorem CollKept.takeXsn (h : CollKept s₀ s) {node : Nat} {ctx : Option Nat} : CollKept s₀ (s.takeXsn node ctx).1 := by
  obtain ⟨sessions, regs, freeCounter, he⟩ := s.takeXsn_eq node ctx
  rw [he]
  exact h.frame
theorem CollKept.emitIn (h : CollKept s₀ s) {node : Nat} {ctx : Option Nat} {f : Frame} :
    CollKept s₀ (s.emitIn node ctx f) := by
  unfold State.emitIn
  split
  · exact h
  · exact h.takeXsn.emitOn
theorem CollKept.recycle (h : CollKept s₀ s) {i : Nat} : CollKept s₀ (s.recycle i) := h.emitIn.frame
theorem CollKept.ask (h : CollKept s₀ s) {i : Nat} : CollKept s₀ (s.ask i) := .emitIn h.frame
theorem CollKept.openTo (h : CollKept s₀ s) {c node : Nat} : CollKept s₀ (s.openTo c node) := by
  unfold State.openTo
  split
  · exact .ask (.frame (CollKept.ite h.recycle h))
  · exact .ite h h.frame
theorem CollKept.sendOn (h : CollKept s₀ s) {i : Nat} {f : Frame} {tag : PktTag} : CollKept s₀ (s.sendOn i f tag) :=
  h.takeXsn.emitOn.frame
theorem CollKept.discardTo (h : CollKept s₀ s) {node : Nat} : CollKept s₀ (s.discardTo node) := .ite h.frame h.frame
theorem CollKept.drainSends (h : CollKept s₀ s) : CollKept s₀ s.drainSends := by
  unfold State.drainSends
  extract_lets r
  have hr : CollKept s₀ r.1 := by
    refine .foldlFst (p := (_, _)) h.frame ?_
    rintro ⟨t, keep, blocked⟩ w h1
    have hu {c : Prop} [Decidable c] : CollKept s₀ (if c then t.openTo w.ctx w.node else t) := .ite h1.openTo h1
    dsimp only
    split
    · exact .ite h1.discardTo h1
    · split
      · exact h1
      · split
        · exact hu.sendOn
        · exact hu
  exact hr.frame
theorem CollKept.send (h : CollKept s₀ s) {c node : Nat} {fs : List Frame} {tag : PktTag} :
    CollKept s₀ (s.send c node fs tag) := .ite h.discardTo (.drainSends h.frame)
theorem CollKept.sendItem (h : CollKept s₀ s) {c plan step item offset : Nat} {mark : CollMark} {own : Bool}
    {bs : List Byte} {to_ : List Nat} : CollKept s₀ (s.sendItem c plan step item offset mark own bs to_) :=
  h.foldl fun _ _ h1 => h1.send.frame

/-! #### Pages and the pool -/

theorem CollKept.setRec (h : CollKept s₀ s) {tier n ref st stream block beat : Nat} :
    CollKept s₀ (s.setRec tier n ref st stream block beat) := by
  unfold State.setRec
  split
  · exact h.store
  · exact h
theorem CollKept.touchPage (h : CollKept s₀ s) {tier n : Nat} : CollKept s₀ (s.touchPage tier n) := by
  unfold State.touchPage
  extract_lets s1
  have hs1 : CollKept s₀ s1 := by
    unfold s1
    split
    · exact h.frame
    · exact h
  exact .ite hs1.setRec hs1
theorem CollKept.noteEntry (h : CollKept s₀ s) {stream b : Nat} : CollKept s₀ (s.noteEntry stream b) := by
  unfold State.noteEntry
  split
  · exact h.frame
  · exact h
theorem CollKept.setPool (h : CollKept s₀ s) {c : Nat} {p : PoolRec} {e st : Nat} {keep vvalid : Bool}
    {version age : Nat} : CollKept s₀ (s.setPool c p e st keep vvalid version age) := h.store
theorem CollKept.setMaps (h : CollKept s₀ s) {c : Nat} {f : Tab (Option Mapping) → Tab (Option Mapping)} :
    CollKept s₀ (s.setMaps c f) := h.frame
theorem CollKept.bump (h : CollKept s₀ s) {f : Fld} {i j n : Nat} : CollKept s₀ (s.bump f i j n) := h.frame
theorem CollKept.evict (h : CollKept s₀ s) {c : Nat} {p : PoolRec} {e : Nat} : CollKept s₀ (s.evict c p e) :=
  h.setPool.setMaps.bump
theorem CollKept.makeRoom (h : CollKept s₀ s) {c : Nat} {p : PoolRec} {n fuel : Nat} :
    CollKept s₀ (State.makeRoom c p n fuel s) := by
  induction fuel generalizing s with
  | zero => exact h
  | succ fuel ih =>
    refine .ite h ?_
    split
    · exact h
    · exact ih h.evict
theorem CollKept.checkVersion (h : CollKept s₀ s) {c : Nat} {p : PoolRec} {e stamp node : Nat} :
    CollKept s₀ (s.checkVersion c p e stamp node) := .ite h.setPool (.ite h h.frame)

/-! #### Results that land -/

theorem CollKept.landPhase1 (h : CollKept s₀ s) {c : Nat} {r : PlanRec} {o : CollOp} {bs : List Byte} :
    CollKept s₀ (s.landPhase1 c r o bs) := by
  unfold State.landPhase1
  extract_lets _ _ s1
  have hs1 : CollKept s₀ s1 := h.foldl (fun _ _ h1 => h1.store)
  exact .ite hs1.frame hs1
theorem CollKept.markSat (h : CollKept s₀ s) {c plan region : Nat} : CollKept s₀ (s.markSat c plan region) := by
  unfold State.markSat
  extract_lets s1
  have hs1 : CollKept s₀ s1 := by
    unfold s1
    split
    · exact h
    · exact h.foldl (fun _ _ h1 => h1.store)
  exact hs1.frame
theorem CollKept.deliver (h : CollKept s₀ s) {c : Nat} {r : Roots} {x : Circ} {k step item : Nat} {bs : List Byte} :
    CollKept s₀ (s.deliver c r x k step item bs) := by
  unfold State.deliver
  extract_lets _ _ s1 _ _ s2
  have hs1 : CollKept s₀ s1 := h.store
  have hs2 : CollKept s₀ s2 := .ite h.store (.ite (hs1.foldl (fun _ _ h1 => h1.twrite)) hs1)
  exact .soAdd hs2.frame
theorem CollKept.circDrain (h : CollKept s₀ s) {c plan : Nat} {r : PlanRec} {rt : Roots} {fuel : Nat} :
    CollKept s₀ (State.circDrain c plan r rt fuel s) := by
  induction fuel generalizing s with
  | zero => exact h
  | succ fuel ih =>
    unfold State.circDrain
    dsimp only
    split
    · exact h
    · split
      · exact h
      · exact .ite h (ih h.deliver.frame)
theorem CollKept.circDrainAll (h : CollKept s₀ s) : CollKept s₀ s.circDrainAll := by
  unfold State.circDrainAll
  split
  · exact h
  · exact h.foldl (fun _ _ h1 => .ite h1.circDrain h1)
theorem CollKept.collNonfin (h : CollKept s₀ s) {r : PlanRec} {step : Nat} {calls : List CollCall} {bs : List Byte} :
    CollKept s₀ (s.collNonfin r step calls bs) := .ite (h.foldl (fun _ _ h1 => h1.nonfin)) h

/-- The cut leaves the strands alone where no update job is held (R381). -/
theorem CollKept.cut (h : CollKept s₀ s) (hjobs : s.step.cut = none → ∀ g, (s.group g).jobs = []) :
    CollKept s₀ s.cut := by
  unfold State.cut
  split
  · exact h
  next hcut =>
    extract_lets s1 s2 s3 _ s4
    have hs1 : CollKept s₀ s1 := .ite h.frame h
    have hs2 : CollKept s₀ s2 := .ite hs1.frame hs1
    have hs3 : CollKept s₀ s3 := .ite hs2.frame hs2
    have hs4 : CollKept s₀ s4 := hs3.frame
    have hgroups (g : Nat) : s4.group g = s.group g := by
      unfold s4 s3 s2 s1
      split_ifs <;> rfl
    split
    next g hg =>
      have hheld := List.find?_some hg
      rw [hgroups, hjobs hcut] at hheld
      exact absurd hheld (by decide)
    next => exact hs4

/-! ### What the engine does with a collective -/

/-- The same collective: its plan, step and calls, and whether it waits for room. -/
structure CollOp.Same (o o' : CollOp) : Prop where
  id : o'.id = o.id
  plan : o'.plan = o.plan
  step : o'.step = o.step
  calls : o'.calls = o.calls
  waiting : o'.waiting = o.waiting

theorem CollOp.Same.refl (o : CollOp) : o.Same o := ⟨rfl, rfl, rfl, rfl, rfl⟩

theorem CollOp.Same.trans {o o' o'' : CollOp} (h : o.Same o') (h' : o'.Same o'') : o.Same o'' :=
  ⟨h'.id.trans h.id, h'.plan.trans h.plan, h'.step.trans h.step, h'.calls.trans h.calls, h'.waiting.trans h.waiting⟩

/-- A state and a collective that the engine has worked on: of the collective only its progress has changed. -/
structure CollWork (s₀ : State) (o₀ : CollOp) (p : State × CollOp) : Prop where
  kept : CollKept s₀ p.1
  same : o₀.Same p.2

/-- Progress of the collective, and an update of the state that the engine makes. -/
theorem CollWork.edit {p q : State × CollOp} (h : CollWork s₀ o₀ p) (hk : CollKept s₀ q.1)
    (hi : q.2.id = p.2.id := by rfl) (hp : q.2.plan = p.2.plan := by rfl) (hs : q.2.step = p.2.step := by rfl) (hc : q.2.calls = p.2.calls := by rfl)
    (hw : q.2.waiting = p.2.waiting := by rfl) : CollWork s₀ o₀ q :=
  ⟨hk, h.same.trans ⟨hi, hp, hs, hc, hw⟩⟩

theorem CollWork.ite {c : Prop} [Decidable c] {p q : State × CollOp} (hp : CollWork s₀ o₀ p) (hq : CollWork s₀ o₀ q) :
    CollWork s₀ o₀ (if c then p else q) := by
  split
  · exact hp
  · exact hq

theorem CollWork.foldl {α : Type} {l : List α} {f : State × CollOp → α → State × CollOp} {p : State × CollOp}
    (h : CollWork s₀ o₀ p) (hf : ∀ q a, CollWork s₀ o₀ q → CollWork s₀ o₀ (f q a)) : CollWork s₀ o₀ (l.foldl f p) := by
  induction l generalizing p with
  | nil => exact h
  | cons a l ih => exact ih (hf p a h)

theorem CollWork.sendOnward (h : CollWork s₀ o₀ (s, o)) {c : Nat} {r : PlanRec} {item offset stamp : Nat}
    {bs : List Byte} {own : Bool} : CollWork s₀ o₀ (s.sendOnward c r o item offset stamp bs own) :=
  h.edit h.kept.sendItem

theorem CollWork.landResult (h : CollWork s₀ o₀ (s, o)) {c : Nat} {r : PlanRec} {item offset stamp : Nat}
    {bs : List Byte} : CollWork s₀ o₀ (s.landResult c r o item offset stamp bs) := by
  unfold State.landResult
  split
  · exact h
  · extract_lets o1 keep s1 _ _ s2
    have hs1 : CollKept s₀ s1 := h.kept.collNonfin
    have hs2 : CollKept s₀ s2 := hs1.foldl (fun _ _ h1 => h1.store)
    split
    · exact h.edit (hs1.foldl (fun _ _ h1 => h1.store))
    · split
      · split
        · split
          · exact h.edit hs1.landPhase1
          · exact h.edit hs1
        · exact h.edit (.ite hs2.markSat hs2)
      · split
        · split
          · exact h.edit hs1
          · exact h.edit (CollKept.ite hs1.checkVersion hs1).store
        · exact h.edit hs1

theorem CollWork.spread (h : CollWork s₀ o₀ (s, o)) {c : Nat} {r : PlanRec} {item stamp : Nat} {local_ own : Bool}
    {off : Nat} {bs : List Byte} : CollWork s₀ o₀ (s.spread c r o item stamp local_ own off bs) :=
  .ite h.sendOnward.landResult h.sendOnward

theorem CollWork.spreadItem (h : CollWork s₀ o₀ (s, o)) {c : Nat} {r : PlanRec} {item stamp : Nat} {local_ : Bool}
    {bs : List Byte} : CollWork s₀ o₀ (s.spreadItem c r o item stamp local_ bs) :=
  .foldl h (fun _ _ h1 => h1.spread)

theorem CollWork.treeNode (h : CollWork s₀ o₀ (s, o)) {c : Nat} {r : PlanRec} {n level q : Nat} :
    CollWork s₀ o₀ (s.treeNode c r o n level q) := by
  unfold State.treeNode
  split
  · exact h
  · split
    · exact .ite h (h.edit (h.kept.foldl (fun _ _ h1 => h1.sendItem)))
    · extract_lets
      split
      · exact h
      · split
        · exact h.edit h.kept
        · split
          · exact h
          · exact h.edit h.kept

theorem CollWork.treeRun (h : CollWork s₀ o₀ (s, o)) {c : Nat} {r : PlanRec} {n : Nat} :
    CollWork s₀ o₀ (s.treeRun c r o n) := by
  unfold State.treeRun
  extract_lets _ a
  have ha : CollWork s₀ o₀ a := .foldl h (fun _ _ h1 => .foldl h1 (fun _ _ h2 => h2.treeNode))
  split
  · exact ha
  · exact .ite ha ha.spreadItem

theorem CollWork.regionRun (h : CollWork s₀ o₀ (s, o)) {c : Nat} {r : PlanRec} {region : Nat} :
    CollWork s₀ o₀ (s.regionRun c r o region) := by
  unfold State.regionRun
  refine .ite h (.spreadItem ?_)
  split
  · exact h.edit h.kept.frame
  · exact h

theorem CollKept.circItem (h : CollKept s₀ s) {c : Nat} {rt : Roots} {x : Circ} {step item : Nat} :
    CollKept s₀ (s.circItem c rt x step item).1 := by
  unfold State.circItem
  extract_lets
  split
  · exact h
  · split
    · exact h.touchPage
    · exact h.noteEntry

theorem CollWork.beginTree (h : CollWork s₀ o₀ (s, o)) {c : Nat} {r : PlanRec} {buf : Nat} :
    CollWork s₀ o₀ (s.beginTree c r o buf) := by
  unfold State.beginTree
  extract_lets
  refine .treeRun ?_
  exact h.edit h.kept

theorem CollWork.beginPhase1 (h : CollWork s₀ o₀ (s, o)) {c : Nat} {r : PlanRec} {q : CollCall}
    (hjobs : r.verdict = true → s.step.cut = none → ∀ g, (s.group g).jobs = []) :
    CollWork s₀ o₀ (s.beginPhase1 c r o q) := by
  unfold State.beginPhase1
  extract_lets s1
  have hs1 : CollKept s₀ s1 := by
    unfold s1
    split
    next hv => exact h.kept.cut (hjobs hv)
    next => exact h.kept
  exact .treeRun (h.edit hs1)

theorem CollWork.beginPhase2 (h : CollWork s₀ o₀ (s, o)) {c : Nat} {r : PlanRec} {q : CollCall} :
    CollWork s₀ o₀ (s.beginPhase2 c r o q) := by
  refine .foldl (p := (_, _)) h fun p _ h1 => .ite (.regionRun ?_) ?_
  · exact h1.edit h1.kept
  · exact h1.edit (h1.kept.foldl fun _ _ h2 => h2.sendItem)

theorem CollWork.beginCirc (h : CollWork s₀ o₀ (s, o)) {c : Nat} {r : PlanRec} :
    CollWork s₀ o₀ (s.beginCirc c r o) := by
  unfold State.beginCirc
  extract_lets
  split
  · exact h
  · exact .ite h (.foldl h (fun _ _ h1 => (h1.edit (q := (_, _)) (CollKept.circItem h1.kept)).spreadItem))

theorem CollWork.fillEntry (h : CollWork s₀ o₀ (s, o)) {c : Nat} {r : PlanRec} {own taken : Bool} :
    CollWork s₀ o₀ (s.fillEntry c r o own taken) := by
  refine .foldl (p := (_, _)) h fun p _ h1 => .spreadItem (h1.edit ?_)
  dsimp only
  split
  · exact h1.kept
  · unfold State.takenShard
    dsimp only
    split
    · exact h1.kept.frame
    · exact h1.kept

/-! ### Where a collective stands -/

/-- Replacing a collective by a later state of itself. -/
theorem State.coll_setColl {plan step : Nat} {o' : CollOp} (h : s.coll plan step = some o) (hid : o'.id = o.id)
    (hplan : o'.plan = o.plan) (hstep : o'.step = o.step) : (s.setColl o').coll plan step = some o' := by
  have hkey := List.find?_some h
  have hkey' : (o'.plan == plan && o'.step == step) = true := by rw [hplan, hstep]; exact hkey
  unfold State.coll at h ⊢
  unfold State.setColl
  dsimp only
  generalize s.colls = l at h ⊢
  induction l with
  | nil => exact nomatch h
  | cons q l ih =>
    rw [List.map_cons]
    by_cases hq : q.id = o'.id
    · rw [if_pos hq]
      exact List.find?_cons_of_pos hkey'
    · rw [if_neg hq]
      cases hm : (q.plan == plan && q.step == step) with
      | true =>
        rw [List.find?_cons, hm] at h
        exact absurd (by rw [Option.some.inj h, hid]) hq
      | false =>
        rw [List.find?_cons, hm] at h ⊢
        exact ih h

/-- By identity: an entry that is listed is replaced. -/
theorem State.find_setColl {o o' : CollOp} (h : o ∈ s.colls) (hid : o'.id = o.id) :
    (s.setColl o').colls.find? (fun x => x.id == o.id) = some o' := by
  unfold State.setColl
  dsimp only
  generalize s.colls = l at h ⊢
  induction l with
  | nil => exact nomatch h
  | cons q l ih =>
    rw [List.map_cons]
    by_cases hq : q.id = o'.id
    · rw [if_pos hq]
      exact List.find?_cons_of_pos (by rw [hid]; exact beq_self_eq_true _)
    · rw [if_neg hq, List.find?_cons_of_neg (by rw [← hid]; simpa using hq)]
      exact ih ((List.mem_cons.1 h).resolve_left fun e => hq (by rw [← e, hid]))

/-- A step that has been issued: its collective is listed with the same calls, and the strands, the plans' next steps and
the gathers that wait are as they were. -/
structure CollStands (s₀ : State) (o₀ : CollOp) (s : State) : Prop where
  strands : s.strands = s₀.strands
  collNext : s.collNext = s₀.collNext
  gathers : s.gathers = s₀.gathers
  listed : ∃ o, s.coll o₀.plan o₀.step = some o ∧ o₀.Same o

theorem CollStands.kept (h : CollStands s₀ o₀ s) (hk : CollKept s t) : CollStands s₀ o₀ t where
  strands := hk.strands.trans h.strands
  collNext := hk.collNext.trans h.collNext
  gathers := hk.gathers.trans h.gathers
  listed := by
    unfold State.coll
    rw [hk.colls]
    exact h.listed

/-- The engine's work on a collective that is listed is listed in its place. -/
theorem CollStands.setColl {p : State × CollOp} (h : CollStands s₀ o₀ s) (ho : s.coll o₀.plan o₀.step = some o)
    (hsame : o₀.Same o) (hw : CollWork s o p) : CollStands s₀ o₀ (p.1.setColl p.2) where
  strands := hw.kept.strands.trans h.strands
  collNext := hw.kept.collNext.trans h.collNext
  gathers := hw.kept.gathers.trans h.gathers
  listed := by
    have hp : p.1.coll o₀.plan o₀.step = some o := by
      unfold State.coll
      rw [hw.kept.colls]
      exact ho
    exact ⟨p.2, State.coll_setColl hp hw.same.id hw.same.plan hw.same.step, hsame.trans hw.same⟩

/-- What an item brings to a listed collective. -/
theorem CollWork.takenItem {c : Nat} {r : PlanRec} {x : CollItem} {onward : Bool} (s : State) (o : CollOp) :
    ∃ p, CollWork s o p ∧ s.takeItem c r o x onward = (p.1.setColl p.2).circDrainAll := by
  have h : CollWork s o (s, o) := ⟨.refl s, .refl o⟩
  unfold State.takeItem
  extract_lets o1 _ _ a
  refine ⟨a, .ite (.ite h.spread h.landResult) ?_, rfl⟩
  have h1 : CollWork s o (s, o1) := h.edit (.refl s)
  refine .ite h1.regionRun (.ite h1 (.treeRun ?_))
  exact h1.edit (.refl s)

theorem CollStands.foldl {α : Type} {l : List α} {f : State → α → State} (h : CollStands s₀ o₀ s)
    (hf : ∀ t a, CollStands s₀ o₀ t → CollStands s₀ o₀ (f t a)) : CollStands s₀ o₀ (l.foldl f s) := by
  induction l generalizing s with
  | nil => exact h
  | cons a l ih => exact ih (hf s a h)

/-- Frames held for a step take effect, and leave it listed. -/
theorem CollStands.releaseHeld (h : CollStands s₀ o₀ s) : CollStands s₀ o₀ (s.releaseHeld o₀.plan o₀.step) := by
  unfold State.releaseHeld
  extract_lets _ s1
  have hs1 : CollStands s₀ o₀ s1 := h.kept (CollKept.refl s).frame
  refine hs1.foldl fun t e ht => ?_
  split
  next c r o _ _ ho =>
    obtain ⟨o', ho', hsame⟩ := ht.listed
    obtain rfl := Option.some.inj (ho.symm.trans ho')
    obtain ⟨p, hw, he⟩ := CollWork.takenItem (c := c) (r := r) (x := e.2) (onward := false) t o
    rw [he]
    exact (ht.setColl ho hsame hw).kept (CollKept.refl _).circDrainAll
  next => exact ht

/-! ### COLL of an all-reduce, an all-gather or a circulation (R451) -/

/-- A new collective is the one of its plan and step. -/
theorem State.coll_newColl (s : State) (plan step expect : Nat) (calls : List CollCall) (waiting : Bool) :
    (s.newColl plan step expect calls waiting).1.coll plan step =
      some (s.newColl plan step expect calls waiting).2 := by
  unfold State.newColl State.coll
  dsimp only
  rw [List.find?_append, List.find?_eq_none.2 fun q hq => by
    rw [Bool.eq_false_of_not_eq_true' (List.mem_filter.1 hq).2]; exact Bool.false_ne_true]
  simp

/-- The collective that a call joins, or begins. -/
def State.joined (s : State) (r : PlanRec) (plan step : Nat) (q : CollCall) : State × CollOp :=
  match s.coll plan step with
  | some o => (s, { o with calls := o.calls ++ [q] })
  | none => s.newColl plan step (s.collExpect r step) [q] false

/-- What joining leaves: the step's collective with the call added. -/
theorem State.joined_listed (s : State) (r : PlanRec) (plan step : Nat) (q : CollCall) :
    let a := s.joined r plan step q
    (a.1.setColl a.2).coll plan step = some a.2 ∧ a.2.plan = plan ∧ a.2.step = step ∧
      a.2.calls = ((s.coll plan step).map (·.calls)).getD [] ++ [q] := by
  unfold State.joined
  cases ho : s.coll plan step with
  | none => exact ⟨State.coll_setColl (s.coll_newColl plan step _ _ _) rfl rfl rfl, rfl, rfl, rfl⟩
  | some o =>
    have hkey := List.find?_some ho
    rw [Bool.and_eq_true, beq_iff_eq, beq_iff_eq] at hkey
    exact ⟨State.coll_setColl ho rfl rfl rfl, hkey.1, hkey.2, rfl⟩

/-- Joining touches the collectives alone. -/
theorem State.joined_kept (s : State) (r : PlanRec) (plan step : Nat) (q : CollCall) :
    let t := (s.joined r plan step q).1
    t.strands = s.strands ∧ t.collNext = s.collNext ∧ t.gathers = s.gathers ∧ t.groups = s.groups ∧ t.step = s.step := by
  unfold State.joined
  split
  · exact ⟨rfl, rfl, rfl, rfl, rfl⟩
  · exact ⟨rfl, rfl, rfl, rfl, rfl⟩

/-- An issued step of a plan that is no gather: its call is added, and nothing else of the plans changes. -/
theorem State.issueColl_stands {c : Nat} {r : PlanRec} {plan step : Nat} {q : CollCall} (hkind : r.kind ≠ 3)
    (hjobs : r.verdict = true → step = 0 → s.step.cut = none → ∀ g, (s.group g).jobs = []) :
    CollStands s (s.joined r plan step q).2 (s.issueColl c r plan step q) := by
  obtain ⟨hcoll, hp, hs, -⟩ := s.joined_listed r plan step q
  obtain ⟨hstrands, hnext, hgathers, hgroups, hcut⟩ := s.joined_kept r plan step q
  unfold State.issueColl
  rw [if_neg hkind]
  extract_lets a s1 b
  have hlisted : s1.coll plan step = some a.2 := hcoll
  have hplan : a.2.plan = plan := hp
  have hstep : a.2.step = step := hs
  show CollStands s a.2 _
  have hstands : CollStands s a.2 s1 :=
    ⟨hstrands, hnext, hgathers, a.2, by rw [hplan, hstep]; exact hlisted, .refl _⟩
  have hrefl : CollWork s1 a.2 (s1, a.2) := ⟨.refl s1, .refl a.2⟩
  have hb : CollWork s1 a.2 b := by
    unfold b
    split
    · exact hrefl.beginTree
    · split
      · split
        next h0 =>
          refine hrefl.beginPhase1 fun hv hnone => ?_
          unfold State.group
          rw [show s1.groups = s.groups from hgroups]
          rw [show s1.step = s.step from hcut] at hnone
          exact hjobs hv h0 hnone
        next => exact hrefl.beginPhase2
      · exact hrefl.beginCirc
  have hset := (hstands.setColl (by rw [hplan, hstep]; exact hlisted) (.refl _) hb).releaseHeld
  rw [hplan, hstep] at hset
  exact hset

end Sys2Proof.Machine
end

section
/-!
PROOFS. Collectives (03_programming_model.md, R107, R131, R365 to R369, R450 to R452, R570): COLL of a plan's next step, of a
gather that fills, is held full or begins, the end of a step and the starved gather.
-/

namespace Sys2Proof.Machine

variable {s t u : State} {a : Site}

/-! ### COLL (R451) -/

/-- The plan awaits the step after a COLL that is the last of its step; a gather has one step. -/
def State.collStepOn (s : State) (r : PlanRec) (plan step : Nat) (pos : Nat) : State :=
  if (r.kind != 2 || some pos == (s.myPositions r).getLast?) && r.kind != 3 then
    { s with collNext := Tab.set 0 s.collNext plan (step + 1) }
  else s

/-- COLL of a good step with mapped buffers takes effect. -/
theorem exec_coll {p : Pred} {mop : Mop} {plan : BitVec 16} {step so : BitVec 13} {soen : Bool} {c : Nat} {r : PlanRec}
    {q : CollCall} (hrun : s.running = some c) (h : s.executes a p (.coll a p mop plan step so soen))
    (hgood : Mop.bad (s.strand a) mop = false) (hplan : s.plan plan.toNat = some r)
    (hstep : s.collBad plan.toNat step.toNat = false)
    (hbufs : (s.collRanges r step.toNat (Mop.addr (s.strand a) mop)).all
      (fun x => decide (x.1 + x.2 ≤ 2 ^ 48) && s.mapped c x.1 x.2) = true)
    (hq : q = ⟨(s.nextPosition r plan.toNat step.toNat).getD 0, a, (s.strand a).pc.toNat, Mop.addr (s.strand a) mop,
      if soen then some so.toNat else none⟩) :
    exec (.coll a p mop plan step so soen) s = .next
      ((((s.issueFrom a).advance a).collStepOn r plan.toNat step.toNat q.pos).issueColl c r plan.toNat step.toNat q) := by
  obtain ⟨cs, he⟩ := s.issueFrom_eq a
  have hbad : (s.issueFrom a).collBad plan.toNat step.toNat = false := by rw [he]; exact hstep
  have hplan' : ((s.issueFrom a).advance a).plan plan.toNat = some r := by rw [he]; exact hplan
  have hranges (b : Nat) : ((s.issueFrom a).advance a).collRanges r step.toNat b = s.collRanges r step.toNat b := by
    rw [he]; rfl
  have hmapped (x n : Nat) : ((s.issueFrom a).advance a).mapped c x n = s.mapped c x n := by rw [he]; rfl
  have hpos : ((s.issueFrom a).advance a).nextPosition r plan.toNat step.toNat =
      s.nextPosition r plan.toNat step.toNat := by rw [he]; rfl
  have hfits : ¬ (s.collRanges r step.toNat (Mop.addr (s.strand a) mop)).any
      (fun x => decide (2 ^ 48 < x.1 + x.2) || !s.mapped c x.1 x.2) = true := by
    rw [Bool.not_eq_true, List.any_eq_false]
    intro x hx
    have hok := List.all_eq_true.1 hbufs x hx
    simp at hok ⊢
    exact hok
  refine (loaded_issue h).trans (congrArg Host.Outcome.next ?_)
  dsimp only
  rw [State.issueFrom_strand, hbad, State.guarded_none _ _ _ _ (firstCause_none (by simp [hgood]))]
  rw [hplan', hrun, Option.getD_some]
  dsimp only
  rw [hranges]
  simp only [hmapped]
  rw [if_neg hfits, hpos, ← hq, show (s.nextPosition r plan.toNat step.toNat).getD 0 = q.pos from by rw [hq]]
  rfl

/-- A step in order is the plan's next step. -/
theorem State.collNext_of_good {plan step : Nat} {r : PlanRec} (hplan : s.plan plan = some r) (hkind : r.kind ≠ 3)
    (h : s.collBad plan step = false) : Tab.get 0 s.collNext plan = step := by
  unfold State.collBad at h
  rw [hplan] at h
  simp [hkind] at h
  exact h.2.1.symm

/-- What follows a COLL of a step that is no gather: the next step of its plan, and no other. -/
theorem State.collNext_stepOn {r : PlanRec} {plan step pos : Nat} (hwf : Tab.wf 0 s.collNext = true)
    (hkind : r.kind ≠ 3) (hnext : Tab.get 0 s.collNext plan = step) :
    Tab.get 0 (s.collStepOn r plan step pos).collNext plan =
      (if r.kind ≠ 2 ∨ some pos = (s.myPositions r).getLast? then step + 1 else step) ∧
    ∀ n, n ≠ plan → Tab.get 0 (s.collStepOn r plan step pos).collNext n = Tab.get 0 s.collNext n := by
  unfold State.collStepOn
  by_cases hlast : r.kind ≠ 2 ∨ some pos = (s.myPositions r).getLast?
  · rw [if_pos (by simpa [hkind] using hlast), if_pos hlast]
    exact ⟨Tab.get_set_same _ _ hwf, fun n hn => Tab.get_set_ne hn _ hwf⟩
  · rw [if_neg (by simpa [hkind] using hlast), if_neg hlast]
    exact ⟨hnext, fun _ _ => rfl⟩

/-- Only the plans' next steps change. -/
theorem State.collStepOn_eq (s : State) (r : PlanRec) (plan step pos : Nat) :
    ∃ next, s.collStepOn r plan step pos = { s with collNext := next } := by
  unfold State.collStepOn
  split
  · exact ⟨_, rfl⟩
  · exact ⟨s.collNext, rfl⟩

/-- COLL of an all-reduce, an all-gather or a circulation. -/
theorem coll_step {c : Nat} {r : PlanRec} {plan step : Nat} {q : CollCall} (hcanon : s.canon = true)
    (hkind : r.kind ≠ 3) (hplan : s.plan plan = some r) (hgood : s.collBad plan step = false)
    (hjobs : r.verdict = true → step = 0 → s.step.cut = none → ∀ g, (s.group g).jobs = []) :
    let t := (((s.issueFrom a).advance a).collStepOn r plan step q.pos).issueColl c r plan step q
    t.strand a = s.after a ∧ (∀ b, b ≠ a → t.strand b = s.strand b) ∧
      (∃ o, t.coll plan step = some o ∧ o.calls = ((s.coll plan step).map (·.calls)).getD [] ++ [q]) ∧
      Tab.get 0 t.collNext plan =
        (if r.kind ≠ 2 ∨ some q.pos = (s.myPositions r).getLast? then step + 1 else step) ∧
      ∀ n, n ≠ plan → Tab.get 0 t.collNext n = Tab.get 0 s.collNext n := by
  intro t
  have hissue : t = (((s.issueFrom a).advance a).collStepOn r plan step q.pos).issueColl c r plan step q := rfl
  clear_value t
  have ht := State.strandOnly_advance hcanon a
  obtain ⟨hstrands, -⟩ := ht.others
  obtain ⟨cs, he⟩ := s.issueFrom_eq a
  have hfields : ((s.issueFrom a).advance a).collNext = s.collNext ∧
      ((s.issueFrom a).advance a).myPositions r = s.myPositions r ∧
      ((s.issueFrom a).advance a).coll plan step = s.coll plan step ∧
      ((s.issueFrom a).advance a).step = s.step ∧ ((s.issueFrom a).advance a).groups = s.groups := by
    rw [he]
    exact ⟨rfl, rfl, rfl, rfl, rfl⟩
  obtain ⟨hnext, hmine, hcoll, hcut, hgroups⟩ := hfields
  have hafter := State.collNext_stepOn (s := (s.issueFrom a).advance a) (step := step) (pos := q.pos)
    (by rw [hnext]; exact (s.canonical_iff.2 hcanon).collNext) hkind
    (by rw [hnext]; exact State.collNext_of_good hplan hkind hgood)
  rw [hmine, hnext] at hafter
  obtain ⟨next, hu⟩ := ((s.issueFrom a).advance a).collStepOn_eq r plan step q.pos
  have hufields : (((s.issueFrom a).advance a).collStepOn r plan step q.pos).coll plan step = s.coll plan step ∧
      (((s.issueFrom a).advance a).collStepOn r plan step q.pos).step = s.step ∧
      (((s.issueFrom a).advance a).collStepOn r plan step q.pos).groups = s.groups ∧
      (((s.issueFrom a).advance a).collStepOn r plan step q.pos).strands = ((s.issueFrom a).advance a).strands := by
    rw [hu]
    exact ⟨hcoll, hcut, hgroups, rfl⟩
  generalize ((s.issueFrom a).advance a).collStepOn r plan step q.pos = u at *
  obtain ⟨hucoll, hucut, hugroups, hustrands⟩ := hufields
  have hstands : CollStands u (u.joined r plan step q).2 t := by
    rw [hissue]
    refine State.issueColl_stands hkind fun hv h0 hnone => ?_
    unfold State.group
    rw [hugroups]
    rw [hucut] at hnone
    exact hjobs hv h0 hnone
  obtain ⟨-, hp, hs, hcalls⟩ := u.joined_listed r plan step q
  rw [hucoll] at hcalls
  obtain ⟨htstrands, htnext, -, o, ho, hsame⟩ := hstands
  rw [hp, hs] at ho
  have htstrand (b : Site) : t.strand b = ((s.issueFrom a).advance a).strand b := by
    unfold State.strand
    rw [htstrands, hustrands]
  rw [← htnext] at hafter
  exact ⟨(htstrand a).trans ht.strand, fun b hb => (htstrand b).trans (hstrands b hb),
    ⟨o, ho, hsame.calls.trans hcalls⟩, hafter⟩

/-! ### The words of a pool entry (R10, R366) -/

theorem ofBytes_toBytes (n : Nat) : ∀ v, ofBytes (toBytes n v) = v % 256 ^ n := by
  induction n with
  | zero => exact fun v => (Nat.mod_one v).symm
  | succ n ih =>
    intro v
    have hstep : toBytes (n + 1) v = byteOf v 0 :: toBytes n (v / 256) := by
      unfold toBytes
      rw [List.range_succ_eq_map, List.map_cons, List.map_map]
      refine congrArg _ (List.map_congr_left fun k _ => ?_)
      unfold byteOf
      rw [Function.comp_apply, Nat.succ_eq_add_one, Nat.pow_succ, Nat.mul_comm, Nat.div_div_eq_div_mul]
    rw [hstep, ofBytes, ih]
    unfold byteOf
    rw [BitVec.toNat_ofNat, Nat.pow_zero, Nat.div_one, show 2 ^ 8 = 256 from rfl, Nat.pow_succ, Nat.mul_comm (256 ^ n),
      Nat.mod_mul]

theorem toBytes_getD {n k : Nat} (v : Nat) (h : k < n) : (toBytes n v).getD k 0 = byteOf v k := by
  unfold toBytes
  rw [List.getD_eq_getElem?_getD, List.getElem?_map, List.getElem?_range h]
  rfl

theorem toBytes_length (n v : Nat) : (toBytes n v).length = n := by
  unfold toBytes
  rw [List.length_map, List.length_range]

/-- Within a frame no two addresses share a byte. -/
theorem State.translate_inj {c x y pa : Nat} (hframe : x / frameBytes = y / frameBytes)
    (hx : s.translate c x = some pa) (hy : s.translate c y = some pa) : x = y := by
  unfold State.translate at hx hy
  rw [hframe] at hx
  split at hx
  next => exact nomatch hx
  next m hm =>
    rw [hm] at hy
    dsimp only at hy
    split at hx
    next => exact nomatch hx
    next =>
      rename_i hflash
      rw [if_neg hflash] at hy
      have hmod : x % frameBytes = y % frameBytes := by
        have hsum := (Option.some.inj hx).trans (Option.some.inj hy).symm
        omega
      rw [← Nat.div_add_mod x frameBytes, ← Nat.div_add_mod y frameBytes, hframe, hmod]

/-- The second word of an entry that is written reads the AGE written, where the entry is mapped. -/
theorem State.poolWord_setPool {c e st version age : Nat} {keep vvalid : Bool} {p : PoolRec} (hcanon : s.canon = true)
    (halign : p.etab % 32 = 0) (hmapped : ∀ k, k < 32 → (s.translate c (p.etab + 32 * e + k)).isSome = true) :
    (s.setPool c p e st keep vvalid version age).poolWord c p e 1 = age % 2 ^ 48 := by
  unfold State.setPool
  generalize hw : st + (if keep then 8 else 0) + (if vvalid then 16 else 0) + version % 2 ^ 32 * 2 ^ 32 = w0
  have hmaps := (State.moved_store hcanon c (p.etab + 32 * e) (toBytes 8 w0 ++ toBytes 8 (age % 2 ^ 48))).maps
  obtain ⟨hbytes, -⟩ := State.store_gets hcanon c (p.etab + 32 * e) (toBytes 8 w0 ++ toBytes 8 (age % 2 ^ 48))
  rw [List.length_append, toBytes_length, toBytes_length] at hbytes
  generalize s.store c (p.etab + 32 * e) (toBytes 8 w0 ++ toBytes 8 (age % 2 ^ 48)) = t at *
  have hbyte (k : Nat) (hk : k < 8) : t.vbyte c (p.etab + 32 * e + 8 * 1 + k) = byteOf (age % 2 ^ 48) k := by
    obtain ⟨pa, hpa⟩ := Option.isSome_iff_exists.1 (hmapped (8 + k) (by omega))
    have hbyte := hbytes (8 + k) pa (by omega) hpa fun j hj hlt hsame => by
      dsimp only at hsame
      have := State.translate_inj (s := s) (by unfold frameBytes; omega) hpa hsame
      omega
    unfold State.vbyte
    rw [Nat.add_assoc _ (8 * 1) k, hmaps.translate, hpa]
    refine hbyte.trans ?_
    dsimp only
    rw [List.getD_append_right _ _ _ _ (by rw [toBytes_length]; omega), toBytes_length, Nat.add_sub_cancel_left,
      toBytes_getD _ hk]
  unfold State.poolWord State.vfield
  have hread : t.vread c (p.etab + 32 * e + 8 * 1) 8 = toBytes 8 (age % 2 ^ 48) := by
    unfold State.vread toBytes
    exact List.map_congr_left fun k hk => hbyte k (List.mem_range.1 hk)
  rw [hread, ofBytes_toBytes]
  omega

/-! ### COLL of a gather (R366, R367, R369) -/

theorem CollKept.signal {s₀ : State} (h : CollKept s₀ s) {so : Option Nat} : CollKept s₀ (s.signal so) := by
  unfold State.signal
  split
  · exact h.soAdd
  · exact h

/-- A COLL joins the gather that fills its entry. -/
theorem State.issueGather_joins {c : Nat} {r : PlanRec} {plan : Nat} {q : CollCall} {pool : PoolRec} {o : CollOp}
    (hpool : imgPool s.img = some pool) (ho : s.filling r.entry = some o) :
    s.issueGather c r plan q = s.setColl { o with calls := o.calls ++ [q] } := by
  unfold State.issueGather
  rw [hpool]
  dsimp only
  split
  next o' ho' =>
    have hsame : s.filling r.entry = some o' := ho'
    rw [Option.some.inj (hsame.symm.trans ho)]
  next hn =>
    have hnone : s.filling r.entry = none := hn
    exact nomatch hnone.symm.trans ho

/-- A COLL of an entry held full completes at once. -/
theorem State.issueGather_reuses {c : Nat} {r : PlanRec} {plan : Nat} {q : CollCall} {pool : PoolRec}
    (hpool : imgPool s.img = some pool) (ho : s.filling r.entry = none) (hfull : s.poolState pool r.entry = 2) :
    let w := s.poolWord c pool r.entry 0
    s.issueGather c r plan q = ((s.setPool c pool r.entry 2 (bits w 3 1 == 1) (bits w 4 1 == 1) (bits w 32 32)
      s.beat).bump Reg.UE_GP_REUSE_COUNT).signal q.so := by
  unfold State.issueGather
  rw [hpool]
  dsimp only
  split
  next o' ho' =>
    have hsome : s.filling r.entry = some o' := ho'
    exact nomatch ho.symm.trans hsome
  next => exact if_pos hfull

/-- A COLL of an entry that is not full begins a gather. -/
theorem State.issueGather_begins {c : Nat} {r : PlanRec} {plan : Nat} {q : CollCall} {pool : PoolRec}
    (hpool : imgPool s.img = some pool) (ho : s.filling r.entry = none) (hfull : s.poolState pool r.entry ≠ 2) :
    s.issueGather c r plan q =
      (let b := s.newColl plan 0 (s.collExpect r 0) [q] true
      ({ b.1 with gathers := b.1.gathers ++ [(⟨b.2.id, r.entry, s.beat⟩ : GatherWait)] } : State).placeGather c r b.2) := by
  unfold State.issueGather
  rw [hpool]
  dsimp only
  split
  next o' ho' =>
    have hsome : s.filling r.entry = some o' := ho'
    exact nomatch ho.symm.trans hsome
  next => exact if_neg hfull

/-- A gather that is placed, or waits for room: it is listed, and is among those that wait unless it was placed. -/
theorem State.placeGather_listed {c : Nat} {r : PlanRec} {o : CollOp} {pool : PoolRec}
    (hpool : imgPool s.img = some pool) (ho : s.coll o.plan o.step = some o) (hwait : o.waiting = true) {g : GatherWait} (hg : g ∈ s.gathers) :
    let t := s.placeGather c r o
    t.strands = s.strands ∧ ∃ o', t.coll o.plan o.step = some o' ∧ o'.id = o.id ∧ o'.calls = o.calls ∧
      (o'.waiting = true → g ∈ t.gathers) ∧ (o'.waiting = false → ∀ g ∈ t.gathers, g.op ≠ o.id) := by
  intro t
  have ht : t = s.placeGather c r o := rfl
  unfold State.placeGather at ht
  split at ht
  next hnone => exact nomatch hpool.symm.trans hnone
  next pool' _ =>
  extract_lets e need v free w v2 v3 b at ht
  have hroom : CollKept s v := (CollKept.refl s).makeRoom
  have hcoll : v.coll o.plan o.step = some o := by
    unfold State.coll
    rw [hroom.colls]
    exact ho
  split at ht
  next =>
    rw [ht]
    exact ⟨hroom.strands, o, hcoll, rfl, rfl, fun _ => by rw [hroom.gathers]; exact hg,
      fun h => absurd (hwait.symm.trans h) (by decide)⟩
  next =>
    have hplaced : CollKept v v2 := (CollKept.refl v).setMaps.setPool
    clear_value v2
    have hstart : CollWork v3 { o with waiting := false } (v3, { o with waiting := false }) := ⟨.refl _, .refl _⟩
    have hb : CollWork v3 { o with waiting := false } b := hstart.fillEntry
    have hlisted : v3.coll o.plan o.step = some o := by
      unfold State.coll
      rw [show v3.colls = v.colls from hplaced.colls]
      exact hcoll
    have hbcoll : b.1.coll o.plan o.step = some o := by
      unfold State.coll
      rw [hb.kept.colls]
      exact hlisted
    have hset : CollStands v3 { o with waiting := false } (b.1.setColl b.2) :=
      ⟨hb.kept.strands, hb.kept.collNext, hb.kept.gathers, b.2,
        State.coll_setColl hbcoll hb.same.id hb.same.plan hb.same.step, hb.same⟩
    obtain ⟨hstrands, -, hgathers, o', ho', hsame⟩ := hset.releaseHeld
    rw [ht]
    refine ⟨hstrands.trans (hplaced.strands.trans hroom.strands), o', ho', hsame.id, hsame.calls,
      fun h => absurd (hsame.waiting.symm.trans h) Bool.false_ne_true, fun _ x hx => ?_⟩
    rw [hgathers] at hx
    simpa using (List.mem_filter.1 hx).2

/-- A COLL of a gather takes effect on the state in which its strand has gone on. -/
theorem State.issueColl_gather {c : Nat} {r : PlanRec} {plan step : Nat} {q : CollCall} (hkind : r.kind = 3) :
    (s.collStepOn r plan step q.pos).issueColl c r plan step q = s.issueGather c r plan q := by
  unfold State.collStepOn State.issueColl
  rw [if_pos hkind, if_neg (by simp [hkind])]

/-- What going on leaves the gather pool. -/
theorem State.advance_pool (s : State) (a : Site) :
    ((s.issueFrom a).advance a).img = s.img ∧ ((s.issueFrom a).advance a).filling = s.filling ∧
      ((s.issueFrom a).advance a).poolState = s.poolState ∧ ((s.issueFrom a).advance a).beat = s.beat := by
  obtain ⟨cs, he⟩ := s.issueFrom_eq a
  rw [he]
  exact ⟨rfl, rfl, rfl, rfl⟩

theorem State.filling_mem {e : Nat} {o : CollOp} (h : s.filling e = some o) : o ∈ s.colls :=
  List.mem_of_find?_eq_some h

/-- A COLL of an entry that a gather fills. -/
theorem gather_joins {c : Nat} {r : PlanRec} {plan : Nat} {q : CollCall} {pool : PoolRec} {o : CollOp}
    (hcanon : s.canon = true) (hpool : imgPool s.img = some pool) (ho : s.filling r.entry = some o) :
    let t := ((s.issueFrom a).advance a).issueGather c r plan q
    t.strand a = s.after a ∧ t.colls.find? (fun x => x.id == o.id) = some { o with calls := o.calls ++ [q] } ∧
      s.othersSame t a ∧ ({ t with strands := s.strands, cores := s.cores, colls := s.colls } : State) = s := by
  intro t
  obtain ⟨himg, hfilling, -, -⟩ := s.advance_pool a
  have ht : t = ((s.issueFrom a).advance a).setColl { o with calls := o.calls ++ [q] } :=
    State.issueGather_joins (by rw [himg]; exact hpool) (by rw [hfilling]; exact ho)
  have hon := State.strandOnly_advance hcanon a
  obtain ⟨hstrands, hcores⟩ := hon.others
  obtain ⟨cs, he⟩ := s.issueFrom_eq a
  have hmem : o ∈ ((s.issueFrom a).advance a).colls := by
    rw [he]
    exact State.filling_mem ho
  rw [ht]
  refine ⟨hon.strand, State.find_setColl hmem rfl, ⟨hstrands, hcores⟩, ?_⟩
  rw [he]
  rfl

/-- The words of an entry hang on the maps and memory alone. -/
theorem State.poolWord_congr (hmaps : s.SameMaps t) (hmem : t.mem = s.mem) (c : Nat) (p : PoolRec) (e w : Nat) :
    t.poolWord c p e w = s.poolWord c p e w := by
  unfold State.poolWord State.vfield State.vread State.vbyte State.pbyte
  simp only [hmaps.translate, hmem]

/-- A COLL of an entry held full. -/
theorem gather_reuses {c : Nat} {r : PlanRec} {plan : Nat} {q : CollCall} {pool : PoolRec} (hcanon : s.canon = true)
    (hpool : imgPool s.img = some pool) (ho : s.filling r.entry = none) (hfull : s.poolState pool r.entry = 2) :
    let t := ((s.issueFrom a).advance a).issueGather c r plan q
    t.strand a = s.after a ∧ s.othersSame t a ∧ t.colls = s.colls ∧ t.gathers = s.gathers ∧ t.sent = s.sent ∧
      t.get Reg.UE_GP_REUSE_COUNT = (s.get Reg.UE_GP_REUSE_COUNT + 1) % 2 ^ 64 ∧ s.Signalled t q.so ∧
      (pool.etab % 32 = 0 → (∀ k, k < 32 → (s.translate c (pool.etab + 32 * r.entry + k)).isSome = true) →
        t.poolWord c pool r.entry 1 = s.beat % 2 ^ 48) := by
  intro t
  obtain ⟨himg, hfilling, hstate, hbeat⟩ := s.advance_pool a
  have ht : t = _ := State.issueGather_reuses (c := c) (plan := plan) (q := q) (by rw [himg]; exact hpool)
    (by rw [hfilling]; exact ho) (by rw [hstate]; exact hfull)
  generalize ((s.issueFrom a).advance a).poolWord c pool r.entry 0 = w at ht
  have hka : Keeps s ((s.issueFrom a).advance a) := (Keeps.refl s).issueFrom.advance
  have hon := State.strandOnly_advance hcanon a
  obtain ⟨hstrands, hcores⟩ := hon.others
  obtain ⟨cs, he⟩ := s.issueFrom_eq a
  have hfields : ((s.issueFrom a).advance a).colls = s.colls ∧ ((s.issueFrom a).advance a).gathers = s.gathers ∧
      ((s.issueFrom a).advance a).sent = s.sent ∧ ((s.issueFrom a).advance a).so = s.so ∧
      (∀ off, ((s.issueFrom a).advance a).word off = s.word off) ∧
      ∀ va, ((s.issueFrom a).advance a).translate c va = s.translate c va := by
    rw [he]
    exact ⟨rfl, rfl, rfl, rfl, fun _ => rfl, fun _ => rfl⟩
  generalize (s.issueFrom a).advance a = w0 at *
  obtain ⟨hcolls, hgathers, hsent, hso, hword, htrans⟩ := hfields
  have hstored : w0.Moved (w0.setPool c pool r.entry 2 (bits w 3 1 == 1) (bits w 4 1 == 1) (bits w 32 32) w0.beat) :=
    State.moved_store (hka.canon hcanon) _ _ _
  have hkept : CollKept w0 (w0.setPool c pool r.entry 2 (bits w 3 1 == 1) (bits w 4 1 == 1) (bits w 32 32) w0.beat) :=
    (CollKept.refl w0).setPool
  have hk := hka.setPool (c := c) (p := pool) (e := r.entry) (st := 2) (keep := bits w 3 1 == 1)
    (vvalid := bits w 4 1 == 1) (version := bits w 32 32) (age := w0.beat)
  have hage (halign : pool.etab % 32 = 0)
      (hmapped : ∀ k, k < 32 → (s.translate c (pool.etab + 32 * r.entry + k)).isSome = true) :=
    State.poolWord_setPool (s := w0) (c := c) (e := r.entry) (st := 2) (version := bits w 32 32) (age := w0.beat)
      (keep := bits w 3 1 == 1) (vvalid := bits w 4 1 == 1) (hka.canon hcanon) halign
      fun k hk => by rw [htrans]; exact hmapped k hk
  generalize w0.setPool c pool r.entry 2 (bits w 3 1 == 1) (bits w 4 1 == 1) (bits w 32 32) w0.beat = v at *
  obtain ⟨mem, regs, sec, prefetches, hv⟩ := hstored.frame
  have hvt := (State.canonical_iff v).2 (hk.canon hcanon)
  have hbumped := (hk.bump (f := Reg.UE_GP_REUSE_COUNT) (i := 0) (j := 0) (n := 1)).tables hcanon
  obtain ⟨objs, regs', ring, hsig⟩ := (v.bump Reg.UE_GP_REUSE_COUNT).signal_eq q.so
  have hstale : ¬ staleCounter (Reg.UE_GP_REUSE_COUNT.off 0 0) := by
    simp only [staleCounter, Fld.off, Reg.UE_GP_REUSE_COUNT, Reg.MT_PF_STALE_COUNT, not_exists]
    omega
  have hreads (off : Nat) (hcount : off ≠ 0x000018) (hlost : off ≠ 0x000020) :
      t.word off = (v.bump Reg.UE_GP_REUSE_COUNT).word off := by
    rw [ht]
    exact State.word_signal hbumped.regs q.so hcount hlost
  have hsignalled : s.Signalled t q.so :=
    (State.signalled_signal hbumped.so q.so).of_so (by rw [← hso, hv]; rfl) (by rw [ht])
  have hmaps : v.SameMaps t := by
    refine State.sameMaps_of ?_ ((hreads _ (by decide) (by decide)).trans
      (State.word_put_ne _ _ _ _ _ _ hvt.regs (by decide)))
    rw [ht, hsig]
    rfl
  have hmem : t.mem = v.mem := by
    rw [ht, State.signal_mem]
    rfl
  have htstrands : t.strands = w0.strands := by
    rw [ht, State.signal_strands]
    exact hkept.strands
  have htcores : t.cores = w0.cores := by
    rw [ht, State.signal_cores, hv]
    rfl
  have htkept : CollKept w0 t := by
    rw [ht]
    exact hkept.bump.signal
  have hstrand (b : Site) : t.strand b = w0.strand b := by
    unfold State.strand
    rw [htstrands]
  refine ⟨(hstrand a).trans hon.strand, ⟨fun b hb => (hstrand b).trans (hstrands b hb), fun k => ?_⟩,
    htkept.colls.trans hcolls, htkept.gathers.trans hgathers, ?_, ?_, hsignalled, fun halign hmapped => ?_⟩
  · unfold State.core
    rw [htcores]
    exact hcores k
  · rw [ht, hsig, ← hsent, hv]
    rfl
  · exact (State.get_of_word (hreads _ (by decide) (by decide))).trans
      (State.get_bump_of_word ((hstored.words _ hstale).trans (hword _)) hvt.regs (by decide))
  · rw [State.poolWord_congr hmaps hmem, hage halign hmapped, hbeat]

/-- A COLL of an entry that is not full. -/
theorem gather_begins {c : Nat} {r : PlanRec} {plan : Nat} {q : CollCall} {pool : PoolRec} (hcanon : s.canon = true)
    (hpool : imgPool s.img = some pool) (ho : s.filling r.entry = none) (hfull : s.poolState pool r.entry ≠ 2) :
    let t := ((s.issueFrom a).advance a).issueGather c r plan q
    t.strand a = s.after a ∧ (∀ b, b ≠ a → t.strand b = s.strand b) ∧ ∃ o, t.coll plan 0 = some o ∧ o.calls = [q] ∧
      (o.waiting = true → ⟨o.id, r.entry, s.beat⟩ ∈ t.gathers) ∧
      (o.waiting = false → ∀ g ∈ t.gathers, g.op ≠ o.id) := by
  intro t
  obtain ⟨himg, hfilling, hstate, hbeat⟩ := s.advance_pool a
  have ht : t = _ := State.issueGather_begins (c := c) (plan := plan) (q := q) (by rw [himg]; exact hpool)
    (by rw [hfilling]; exact ho) (by rw [hstate]; exact hfull)
  have hon := State.strandOnly_advance hcanon a
  obtain ⟨hstrands, -⟩ := hon.others
  generalize (s.issueFrom a).advance a = w at *
  have hlisted := w.coll_newColl plan 0 (w.collExpect r 0) [q] true
  obtain ⟨htstrands, o, ho, hid, hcalls, hwaits, hplaced⟩ := State.placeGather_listed (c := c) (r := r)
    (s := { (w.newColl plan 0 (w.collExpect r 0) [q] true).1 with
      gathers := (w.newColl plan 0 (w.collExpect r 0) [q] true).1.gathers ++
        [⟨(w.newColl plan 0 (w.collExpect r 0) [q] true).2.id, r.entry, w.beat⟩] })
    (o := (w.newColl plan 0 (w.collExpect r 0) [q] true).2)
    (g := ⟨(w.newColl plan 0 (w.collExpect r 0) [q] true).2.id, r.entry, w.beat⟩) (by
      show imgPool w.img = some pool
      rw [himg]
      exact hpool) hlisted rfl (List.mem_append_right _ (List.mem_singleton_self _))
  rw [← show t = _ from ht] at htstrands ho hwaits hplaced
  have hstrand (b : Site) : t.strand b = w.strand b := by
    unfold State.strand
    rw [htstrands]
    rfl
  refine ⟨(hstrand a).trans hon.strand, fun b hb => (hstrand b).trans (hstrands b hb), o, ho, hcalls, fun h => ?_,
    fun h => ?_⟩
  · rw [hid, ← hbeat]
    exact hwaits h
  · rw [hid]
    exact hplaced h

/-! ### The completion objects of a step's calls (R102, R451) -/

/-- Each call increments the object that it names. -/
def State.signalCalls (s : State) (calls : List CollCall) : State := calls.foldl (fun t q => t.signal q.so) s

theorem Keeps.signalCalls {s₀ : State} (h : Keeps s₀ s) {calls : List CollCall} : Keeps s₀ (s.signalCalls calls) :=
  h.foldl fun _ _ h1 => h1.signal

theorem CollKept.signalCalls {s₀ : State} (h : CollKept s₀ s) {calls : List CollCall} :
    CollKept s₀ (s.signalCalls calls) := h.foldl fun _ _ h1 => h1.signal

theorem State.signalCalls_eq (calls : List CollCall) : ∀ s : State, ∃ objs regs ring,
    s.signalCalls calls = { s with so := objs, regs := regs, svc := { s.svc with ring := ring } } := by
  induction calls with
  | nil => exact fun s => ⟨s.so, s.regs, s.svc.ring, rfl⟩
  | cons q calls ih =>
    intro s
    obtain ⟨objs, regs, ring, he⟩ := s.signal_eq q.so
    obtain ⟨objs', regs', ring', he'⟩ := ih (s.signal q.so)
    refine ⟨objs', regs', ring', he'.trans ?_⟩
    rw [he]

theorem State.word_signalCalls {calls : List CollCall} {off : Nat} (hcount : off ≠ 0x000018) (hlost : off ≠ 0x000020) :
    ∀ {s : State}, s.canon = true → (s.signalCalls calls).word off = s.word off := by
  induction calls with
  | nil => exact fun _ => rfl
  | cons q calls ih =>
    exact fun {s} h => (ih ((Keeps.refl s).signal.canon h)).trans
      (State.word_signal (s.canonical_iff.2 h).regs q.so hcount hlost)

/-- The count of an object after a call is signalled. -/
theorem State.count_signal (hwf : Tab.wf SyncObj.reset s.so = true) (so : Option Nat) (i : Nat) :
    ((s.signal so).obj i).count.toNat =
      min ((s.obj i).count.toNat + (if so == some i then 1 else 0)) 0xFFFFFFFF := by
  have hlt := (s.obj i).count.isLt
  cases so with
  | none =>
    rw [if_neg (by simp)]
    show (s.obj i).count.toNat = _
    omega
  | some j =>
    obtain ⟨hself, hothers⟩ := State.signals_soAdd hwf j
    unfold State.signal
    by_cases hj : i = j
    · subst hj
      rw [hself]
      simp
    · rw [hothers i hj, if_neg (by simp [Ne.symm hj])]
      omega

theorem State.callsSignal_signalCalls {calls : List CollCall} : ∀ {s : State}, s.canon = true →
    s.callsSignal (s.signalCalls calls) calls := by
  induction calls with
  | nil =>
    intro s _ i
    have hlt := (s.obj i).count.isLt
    rw [List.countP_nil]
    show (s.obj i).count.toNat = _
    omega
  | cons q calls ih =>
    intro s h i
    refine (ih ((Keeps.refl s).signal.canon h) i).trans ?_
    rw [State.count_signal (s.canonical_iff.2 h).so, List.countP_cons]
    omega

/-- The objects alone say what was incremented. -/
theorem State.callsSignal_of_so {v : State} {calls : List CollCall} (h : s.callsSignal t calls) (hs : u.so = s.so)
    (ht : v.so = t.so) : u.callsSignal v calls := by
  unfold State.callsSignal State.obj at *
  rw [hs, ht]
  exact h

/-! ### The end of a step (R369, R570) -/

/-- The entry of a gather that is complete is READY, and the gather is counted. -/
def State.gatherReady (s : State) (c : Nat) (r : PlanRec) : State :=
  match imgPool s.img with
  | some p =>
    let w := s.poolWord c p r.entry 0
    (s.setPool c p r.entry 2 (bits w 3 1 == 1) (bits w 4 1 == 1) (bits w 32 32) s.beat).bump Reg.UE_GP_GATHERS_COUNT
  | none => s

theorem Keeps.gatherReady {s₀ : State} (h : Keeps s₀ s) {c : Nat} {r : PlanRec} : Keeps s₀ (s.gatherReady c r) := by
  unfold State.gatherReady
  split
  · exact h.setPool.bump
  · exact h

theorem CollKept.gatherReady {s₀ : State} (h : CollKept s₀ s) {c : Nat} {r : PlanRec} :
    CollKept s₀ (s.gatherReady c r) := by
  unfold State.gatherReady
  split
  · exact h.setPool.bump
  · exact h

theorem State.gatherReady_so (hcanon : s.canon = true) (c : Nat) (r : PlanRec) : (s.gatherReady c r).so = s.so := by
  unfold State.gatherReady
  split
  next p _ =>
    extract_lets w
    have hm : s.Moved (s.setPool c p r.entry 2 (bits w 3 1 == 1) (bits w 4 1 == 1) (bits w 32 32) s.beat) :=
      State.moved_store hcanon _ _ _
    obtain ⟨mem, regs, sec, prefetches, he⟩ := hm.frame
    rw [he]
    rfl
  next => rfl

/-- A READY entry counts a gather. -/
theorem State.gatherReady_counts (hcanon : s.canon = true) (c : Nat) (r : PlanRec)
    (hpool : (imgPool s.img).isSome = true) :
    (s.gatherReady c r).get Reg.UE_GP_GATHERS_COUNT = (s.get Reg.UE_GP_GATHERS_COUNT + 1) % 2 ^ 64 := by
  unfold State.gatherReady
  split
  next p _ =>
    extract_lets w
    have hm : s.Moved (s.setPool c p r.entry 2 (bits w 3 1 == 1) (bits w 4 1 == 1) (bits w 32 32) s.beat) :=
      State.moved_store hcanon _ _ _
    have hstale : ¬ staleCounter (Reg.UE_GP_GATHERS_COUNT.off 0 0) := by
      simp only [staleCounter, Fld.off, Reg.UE_GP_GATHERS_COUNT, Reg.MT_PF_STALE_COUNT, not_exists]
      omega
    exact State.get_bump_of_word (hm.words _ hstale) ((Keeps.refl s).setPool.tables hcanon).regs (by decide)
  next hnone =>
    rw [hnone] at hpool
    exact absurd hpool (by decide)

/-- A step that is ready completes. -/
theorem exec_collStepComplete {op c : Nat} {o : CollOp} {r : PlanRec} (hu : u = s.circDrainAll)
    (hrun : u.running = some c) (ho : u.colls.find? (fun o => o.id == op) = some o) (hplan : u.plan o.plan = some r)
    (hready : u.collReady r o = true) : exec (.collStepComplete op) s = .next
      ((if r.kind = 3 then (u.setColl { o with complete := true }).gatherReady c r
        else u.setColl { o with complete := true }).signalCalls o.calls) := by
  show execCollStepComplete op s = _
  unfold execCollStepComplete
  rw [← hu]
  dsimp only
  rw [hrun, ho]
  dsimp only
  rw [hplan]
  exact congrArg Host.Outcome.next (if_pos hready)

/-- What a completed step leaves. -/
theorem collStep_completes {op c : Nat} {o : CollOp} {r : PlanRec} (hcanon : s.canon = true) (hu : u = s.circDrainAll)
    (hrun : u.running = some c) (ho : u.colls.find? (fun o => o.id == op) = some o) (hplan : u.plan o.plan = some r)
    (hready : u.collReady r o = true) : ∃ t, exec (.collStepComplete op) s = .next t ∧
      t.colls.find? (fun o => o.id == op) = some { o with complete := true } ∧ u.callsSignal t o.calls ∧
      t.strands = u.strands ∧ (r.kind = 3 → (imgPool u.img).isSome = true →
        t.get Reg.UE_GP_GATHERS_COUNT = (u.get Reg.UE_GP_GATHERS_COUNT + 1) % 2 ^ 64) := by
  have hku : Keeps s u := by
    rw [hu]
    exact (Keeps.refl s).circDrainAll
  have hexec := exec_collStepComplete hu hrun ho hplan hready
  obtain rfl : o.id = op := by simpa using List.find?_some ho
  have hcoll := State.find_setColl (s := u) (o := o) (o' := { o with complete := true })
    (List.mem_of_find?_eq_some ho) rfl
  have hk : Keeps s (u.setColl { o with complete := true }) := hku.setColl
  have hset : (u.setColl { o with complete := true }).so = u.so ∧
      (u.setColl { o with complete := true }).strands = u.strands ∧ (u.setColl { o with complete := true }).img = u.img ∧
      (u.setColl { o with complete := true }).get Reg.UE_GP_GATHERS_COUNT = u.get Reg.UE_GP_GATHERS_COUNT :=
    ⟨rfl, rfl, rfl, rfl⟩
  generalize u.setColl { o with complete := true } = v at *
  obtain ⟨hso, hstrands, himg, hcount⟩ := hset
  have hkw : Keeps s (if r.kind = 3 then v.gatherReady c r else v) := .ite hk.gatherReady hk
  have hkept : CollKept v (if r.kind = 3 then v.gatherReady c r else v) := .ite (CollKept.refl v).gatherReady (.refl v)
  have hwso : (if r.kind = 3 then v.gatherReady c r else v).so = v.so := by
    split
    · exact State.gatherReady_so (hk.canon hcanon) c r
    · rfl
  have hcounts : r.kind = 3 → (imgPool u.img).isSome = true → (if r.kind = 3 then v.gatherReady c r else v).get
      Reg.UE_GP_GATHERS_COUNT = (u.get Reg.UE_GP_GATHERS_COUNT + 1) % 2 ^ 64 := by
    intro h3 hpool
    rw [if_pos h3, ← hcount]
    exact State.gatherReady_counts (hk.canon hcanon) c r (by rw [himg]; exact hpool)
  generalize (if r.kind = 3 then v.gatherReady c r else v) = w at *
  have ht : CollKept v (w.signalCalls o.calls) := hkept.signalCalls
  refine ⟨_, hexec, ?_, State.callsSignal_of_so (State.callsSignal_signalCalls (hkw.canon hcanon))
    (hso.symm.trans hwso.symm) rfl, ht.strands.trans hstrands, fun h3 hpool => ?_⟩
  · rw [ht.colls]
    exact hcoll
  · exact (State.get_of_word (State.word_signalCalls (by decide) (by decide) (hkw.canon hcanon))).trans
      (hcounts h3 hpool)

/-! ### A starved gather (R113, R369, R480) -/

/-- What a program error leaves (R113, R480): the strands stopped, and a self-fence asked for with cause 5. -/
structure State.ErrorLeaves (s t : State) : Prop where
  gathers : t.gathers = s.gathers
  colls : t.colls = s.colls
  so : t.so = s.so
  ring : t.svc.ring = s.svc.ring
  words : ∀ off, t.word off = s.word off
  stopped : ∀ b, (s.strand b).enabled = true → (s.strand b).st ≠ .idle → (t.strand b).st = .stopped
  fence : s.flt.selfCause = none → s.flt.fencedSelf = false → t.flt.selfCause = some 5

theorem State.programError_leaves (hcanon : s.canon = true) (detail core : Nat) :
    s.ErrorLeaves (s.programError detail core) := by
  have hprog : s.programError detail core = (s.stopStrands.setProgErr detail core).selfFence 5 := rfl
  have hcause := (s.stopStrands.setProgErr detail core).selfFence_cause 5
  obtain ⟨flt, he⟩ := (s.stopStrands.setProgErr detail core).selfFence_eq 5
  rw [hprog]
  refine ⟨by rw [he]; rfl, by rw [he]; rfl, by rw [he]; rfl, by rw [he]; rfl, fun off => by rw [he]; rfl,
    fun b hen hst => ?_, fun hc hf => by rw [hcause hc hf]⟩
  rw [he]
  show (s.stopStrands.strand b).st = .stopped
  rw [State.strand_stopStrands hcanon, if_pos (by simp [hen, hst])]

/-- A gather that found no room ends: its entry fails, it waits no more and its calls are signalled. -/
def State.gatherFails (s : State) (c : Nat) (p : PoolRec) (entry op : Nat) (o : CollOp) : State :=
  let w := s.poolWord c p entry 0
  let s := s.setPool c p entry 3 (bits w 3 1 == 1) (bits w 4 1 == 1) (bits w 32 32) (s.poolWord c p entry 1)
  let s := { s with gathers := s.gathers.filter (fun x => x.op != op) }
  (s.signalCalls o.calls).setColl { o with complete := true }

theorem Keeps.gatherFails {s₀ : State} (h : Keeps s₀ s) {c : Nat} {p : PoolRec} {entry op : Nat} {o : CollOp} :
    Keeps s₀ (s.gatherFails c p entry op o) := h.setPool.frame.signalCalls.setColl

/-- What a failed gather leaves of the device. -/
structure State.GatherFailed (s t : State) (op : Nat) (o : CollOp) : Prop where
  gathers : ∀ x ∈ t.gathers, x.op ≠ op
  listed : t.colls.find? (fun o => o.id == op) = some { o with complete := true }
  signals : s.callsSignal t o.calls
  strands : t.strands = s.strands
  node : t.node = s.node
  running : t.running = s.running
  beat : t.beat = s.beat
  flt : t.flt = s.flt

theorem State.gatherFailed {c : Nat} {p : PoolRec} {entry op : Nat} {o : CollOp} (hcanon : s.canon = true)
    (ho : s.colls.find? (fun o => o.id == op) = some o) : s.GatherFailed (s.gatherFails c p entry op o) op o := by
  unfold State.gatherFails
  extract_lets w v v'
  have hm : s.Moved v := State.moved_store hcanon _ _ _
  have hkept : CollKept s v := (CollKept.refl s).setPool
  have hk : Keeps s v := (Keeps.refl s).setPool
  clear_value v
  have hcanon' : v'.canon = true := hk.frame.canon hcanon
  have hsig := State.callsSignal_signalCalls (calls := o.calls) hcanon'
  have hword (off : Nat) (hcount : off ≠ 0x000018) (hlost : off ≠ 0x000020) :=
    State.word_signalCalls (calls := o.calls) hcount hlost hcanon'
  have hkept' : CollKept v' (v'.signalCalls o.calls) := (CollKept.refl v').signalCalls
  obtain ⟨objs, regs', ring, he'⟩ := State.signalCalls_eq o.calls v'
  generalize v'.signalCalls o.calls = x at *
  obtain ⟨mem, regs, sec, prefetches, he⟩ := hm.frame
  obtain rfl : o.id = op := by simpa using List.find?_some ho
  have hnode : ¬ staleCounter (Reg.FAB_NODE_NODE.off 0 0) := by
    simp only [staleCounter, Fld.off, Reg.FAB_NODE_NODE, Reg.MT_PF_STALE_COUNT, not_exists]
    omega
  refine ⟨fun y hy => ?_, ?_, ?_, ?_, ?_, ?_, ?_, ?_⟩
  · rw [show (x.setColl _).gathers = v'.gathers from hkept'.gathers] at hy
    simpa using (List.mem_filter.1 hy).2
  · refine State.find_setColl ?_ rfl
    rw [hkept'.colls]
    exact hkept.colls ▸ List.mem_of_find?_eq_some ho
  · exact State.callsSignal_of_so hsig (by rw [show v'.so = v.so from rfl, he]) rfl
  · exact hkept'.strands.trans hkept.strands
  · exact (State.get_of_word (hword _ (by decide) (by decide))).trans (State.get_of_word (hm.words _ hnode))
  · rw [he']
    exact congrArg (Option.map Fin.val) hm.run
  · rw [he']
    show v.beat = s.beat
    rw [he]
    rfl
  · rw [he']
    show v.flt = s.flt
    rw [he]

/-- A gather that was not placed by its second boundary fails (R369). -/
theorem exec_gatherTimeout {op c : Nat} {g : GatherWait} {o : CollOp} {p : PoolRec} (hrun : s.running = some c)
    (hg : s.gathers.find? (fun g => g.op == op) = some g) (hpool : imgPool s.img = some p)
    (ho : s.colls.find? (fun o => o.id == op) = some o) (hdue : g.since + 2 ≤ s.beat) :
    exec (.gatherTimeout op) s = .next ((((s.gatherFails c p g.entry op o).put Reg.UE_STEP_STATUS_NOSPACE 1).event 0x060D
      g.entry).programError g.entry 0xFF) := by
  show execGatherTimeout op s = _
  unfold execGatherTimeout
  rw [hrun, hg, hpool]
  refine congrArg Host.Outcome.next ((if_pos hdue).trans ?_)
  extract_lets w s1 s2 s3
  have hkept : s1.colls = s.colls := (CollKept.refl s).setPool.colls
  have hkept' : s2.colls = s.colls := by
    unfold s2
    dsimp only
    exact hkept
  have hs2 : s2.colls.find? (fun o => o.id == op) = some o := by rw [hkept']; exact ho
  have hs3 : s3 = s.gatherFails c p g.entry op o := by
    unfold s3
    split
    next o' ho' =>
      obtain rfl := Option.some.inj (hs2.symm.trans ho')
      rfl
    next hnone => exact nomatch hs2.symm.trans hnone
  rw [hs3]

/-- What a starved gather leaves (R369): its event, the status, and the context stopped with a fence asked for. -/
theorem gather_starves {op c : Nat} {g : GatherWait} {o : CollOp} {p : PoolRec} (hcanon : s.canon = true)
    (hrun : s.running = some c) (hg : s.gathers.find? (fun g => g.op == op) = some g) (hpool : imgPool s.img = some p)
    (ho : s.colls.find? (fun o => o.id == op) = some o) (hdue : g.since + 2 ≤ s.beat) :
    ∃ t, exec (.gatherTimeout op) s = .next t ∧
      (∀ x ∈ t.gathers, x.op ≠ op) ∧ t.colls.find? (fun o => o.id == op) = some { o with complete := true } ∧
      s.callsSignal t o.calls ∧ t.get Reg.UE_STEP_STATUS_NOSPACE = 1 ∧
      t.newest = some (s.eventRec 0x060D g.entry 0xFF) ∧
      (∀ b, (s.strand b).enabled = true → (s.strand b).st ≠ .idle → (t.strand b).st = .stopped) ∧
      (s.flt.selfCause = none → s.flt.fencedSelf = false → t.flt.selfCause = some 5) := by
  have hexec := exec_gatherTimeout hrun hg hpool ho hdue
  have hfailed := State.gatherFailed (c := c) (p := p) (entry := g.entry) hcanon ho
  have hk : Keeps s (s.gatherFails c p g.entry op o) := (Keeps.refl s).gatherFails
  generalize s.gatherFails c p g.entry op o = w at *
  obtain ⟨hgathers, hlisted, hsignals, hstrands, hnode, hrunning, hbeat, hflt⟩ := hfailed
  have hw := (hk.tables hcanon).regs
  have hput : (w.put Reg.UE_STEP_STATUS_NOSPACE 1).get Reg.UE_STEP_STATUS_NOSPACE = 1 :=
    State.get_put _ _ _ _ _ hw (by decide)
  have hevent := State.get_event (s := w.put Reg.UE_STEP_STATUS_NOSPACE 1) (f := Reg.UE_STEP_STATUS_NOSPACE) (i := 0)
    (j := 0) (code := 0x060D) (detail := g.entry) (core := 0xFF) (hk.put.tables hcanon).regs (by decide) (by decide)
  have hputnode : (w.put Reg.UE_STEP_STATUS_NOSPACE 1).node = w.node :=
    State.get_put_ne _ _ _ _ _ _ _ _ hw (by decide)
  have hrec : (w.put Reg.UE_STEP_STATUS_NOSPACE 1).eventRec 0x060D g.entry 0xFF = s.eventRec 0x060D g.entry 0xFF := by
    have hrunning' : (w.put Reg.UE_STEP_STATUS_NOSPACE 1).running = s.running := hrunning
    have hbeat' : (w.put Reg.UE_STEP_STATUS_NOSPACE 1).beat = s.beat := hbeat
    unfold State.eventRec
    rw [hputnode, hnode, hrunning', hbeat']
  have hring := (State.event_raised (w.put Reg.UE_STEP_STATUS_NOSPACE 1) 0x060D g.entry 0xFF (hk.put.canon hcanon)).1
  have hke : Keeps s ((w.put Reg.UE_STEP_STATUS_NOSPACE 1).event 0x060D g.entry) := hk.put.event
  have hkept : CollKept w ((w.put Reg.UE_STEP_STATUS_NOSPACE 1).event 0x060D g.entry) := (CollKept.refl w).frame
  have hso : ((w.put Reg.UE_STEP_STATUS_NOSPACE 1).event 0x060D g.entry).so = w.so := rfl
  have hxflt : ((w.put Reg.UE_STEP_STATUS_NOSPACE 1).event 0x060D g.entry).flt = w.flt := rfl
  generalize State.event (w.put Reg.UE_STEP_STATUS_NOSPACE 1) 0x060D g.entry 0xFF = x at *
  have herr := State.programError_leaves (hke.canon hcanon) g.entry 0xFF
  generalize x.programError g.entry 0xFF = t at *
  have hstrand (b : Site) : x.strand b = s.strand b := by
    unfold State.strand
    rw [hkept.strands, hstrands]
  refine ⟨t, hexec, ?_, ?_, State.callsSignal_of_so hsignals rfl (herr.so.trans hso),
    (State.get_of_word (herr.words _)).trans (hevent.trans hput), ?_, fun b hen hst => ?_, fun hc hf => ?_⟩
  · rw [herr.gathers, hkept.gathers]
    exact hgathers
  · rw [herr.colls, hkept.colls]
    exact hlisted
  · unfold State.newest
    rw [herr.ring, hring, hrec]
    rfl
  · exact herr.stopped b (by rw [hstrand]; exact hen) (by rw [hstrand]; exact hst)
  · exact herr.fence (by rw [hxflt, hflt]; exact hc) (by rw [hxflt, hflt]; exact hf)

/-- Settles O20: the plan step that COLL takes, the gather that it joins, reuses or begins, and the two ends. -/
theorem collectives : Obligations.Collectives := by
  unfold Obligations.Collectives
  refine ⟨fun s a p mop plan step so soen c r i q hcanon hrun hi h hgood hplan hstep hbufs hq => ?_, fun s op c hcanon =>
    ⟨fun u o r hu hrun ho hplan hready => collStep_completes hcanon hu hrun ho hplan hready,
      fun g o p hrun hg hpool ho hdue => gather_starves hcanon hrun hg hpool ho hdue⟩⟩
  subst hi
  have hexec := exec_coll hrun h hgood hplan hstep hbufs hq
  have hso : q.so = if soen then some so.toNat else none := by rw [hq]
  refine ⟨fun hkind hjobs => ?step, fun pool hkind hpool => ?gather⟩
  case step =>
    have hne : r.kind ≠ 3 := by omega
    obtain ⟨hself, hothers, ⟨o, ho, hcalls⟩, hnext, hrest⟩ := coll_step (a := a) (c := c) (q := q) hcanon hne hplan hstep
      fun hv h0 => hjobs hv (BitVec.eq_of_toNat_eq h0)
    exact ⟨_, o, hexec, hself, hothers, ho, hcalls, hnext, hrest⟩
  case gather =>
    rw [State.issueColl_gather hkind] at hexec
    refine ⟨fun o ho => ?_, fun ho hfull => ?_, fun ho hfull => ?_⟩
    · exact ⟨_, hexec, gather_joins hcanon hpool ho⟩
    · obtain ⟨hself, hothers, hcolls, hgathers, hsent, hcount, ⟨hsignals, hstill⟩, hage⟩ :=
        gather_reuses (a := a) (c := c) (plan := plan.toNat) (q := q) hcanon hpool ho hfull
      exact ⟨_, hexec, hself, hothers, hcolls, hgathers, hsent, hcount, fun hen => hsignals _ (by rw [hso, hen]; rfl),
        fun hen => hstill (by rw [hso, hen]; rfl), hage⟩
    · obtain ⟨hself, hothers, o, ho, hcalls, hwaits, hplaced⟩ :=
        gather_begins (a := a) (c := c) (plan := plan.toNat) (q := q) hcanon hpool ho hfull
      exact ⟨_, o, hexec, hself, hothers, ho, hcalls, hwaits, hplaced⟩

end Sys2Proof.Machine
end
